-- ==== Sys2Proof/Word.lean ====
section
/-! DEFINITION. The word types of the device and their plainest arithmetic. -/

namespace Sys2Proof

/-- One byte. -/
abbrev Byte := BitVec 8
/-- A scalar register, a CSR, an address (R245: the base is RV64). -/
abbrev Word := BitVec 64
/-- An instruction word (R234). -/
abbrev Word32 := BitVec 32

end Sys2Proof
end

