-- ==== Sys2Proof/Syntax.lean ====
section
/-! DEFINITION. The syntax of the machine: one constructor of `Instr` for each row of
spec/opcode_table.json. The first 104 steps of the device that have no word (host commands,
messages, completions, expiries) carry what an observer of the step would name; the 332 word
rows carry the fields of the word, most significant first, under the table's own letters. -/

namespace Sys2Proof

/-- How a management request is signed (R52): which of the eight operator keys, its 64-bit
counter, and the signature bytes. -/
structure Auth where
  key : Nat
  counter : BitVec 64
  sig : List (BitVec 8)
  deriving DecidableEq, Repr

/-- One step of the machine. -/
inductive Instr where
  /-- R42. Power-on reset starts the boot ROM on Axis core 0 and holds every compute die in reset. -/
  | powerOnReset
  /-- R42. A nonzero write of BOOTLEN in STAGE 0 starts verification of the image in the boot window; other writes are ignored. -/
  | bootlenWrite (len : BitVec 64)
  /-- R42. The ROM's fetch of the firmware image from the fused NVMe namespace completes, and the image is verified. -/
  | bootImageFetched (image : List (BitVec 8))
  /-- R42. The verified firmware trains links, brings up HBM, verifies the core runtime and releases the dies. -/
  | firmwareBringup (runtime : List (BitVec 8))
  /-- R47. A sensor trips an alarm cause, and the highest level tripped in the tick acts. -/
  | alarmTrip (causes : BitVec 5)
  /-- R48. The key-store erase completes within 10 µs, and the device has no identity until it is provisioned again. -/
  | keyStoreEraseDone
  /-- R21. A die's hottest sensor crosses 100 °C, a further degree, or falls below 95 °C, and the Axis complex requests a clock step down or up. -/
  | thermalPolicy (die temp : Nat)
  /-- R44. The management-port service returns the device public key, or the status no identity. -/
  | identity
  /-- R45. The management-port service signs and returns an attestation report for the given nonce. -/
  | attest (nonce : BitVec 256)
  /-- R52. The management-port service returns BOOTST and the alarm state. -/
  | status
  /-- R51. The signed management-port service returns entries of one die's error log from a given SEQ. -/
  | logRead (auth : Auth) (die : Nat) (seq : BitVec 32)
  /-- R49. The signed management-port service reads or sets die and hub event-counter pairs. -/
  | counters (auth : Auth) (die idx : Nat) (set : Option (BitVec 64 × BitVec 64))
  /-- R43. The signed management-port service verifies and stages a firmware image for the next power-on reset. -/
  | firmware (auth : Auth) (image : List (BitVec 8))
  /-- R52. The signed management-port service issues PCREATE, PDESTROY, QBIND or PDRAIN as the administrative queue would. -/
  | partition (auth : Auth) (opc : BitVec 8) (arg0 arg1 : BitVec 64)
  /-- R16. The signed management-port service requests a clock step of a die. -/
  | step (auth : Auth) (die clock : Nat)
  /-- R46. The signed management-port service reads the alarm configuration or, while it is unlocked, writes it. -/
  | alarm (auth : Auth) (set : Option (BitVec 10 × Bool))
  /-- R44. The management-port service generates the device key pair and enrols the operator keys, once per key store. -/
  | provision (auth : Auth) (keys : List (List (BitVec 8)))
  /-- R16. A supply ramp at 10 mV/µs completes; the die relocks after a raise, or its step record is updated after a fall. -/
  | supplyRampDone (die : Nat)
  /-- R17. After 150 reference ticks the clock restarts at the new ratio, the held flits drain, and the supply is lowered or the record updated. -/
  | relockEnd (die : Nat)
  /-- R10. A Stavit flit is received on a link port, checked and delivered, with its credits and acknowledgement applied. -/
  | flitReceive (die port : Nat) (header : BitVec 64) (payload : BitVec 512)
  /-- R11. After eight replays of one flit, the link retrains. -/
  | linkRetrain (die port : Nat)
  /-- R12. After three failed retrains within one second, the link goes down; traffic reroutes or, for H, the die's cores are held in reset and faulted. -/
  | linkDown (die port : Nat)
  /-- R14. An Ethernet frame carrying up to 16 Stavit flits arrives on a scale-out port. -/
  | fabricFrameReceive (port : Nat) (pkg : BitVec 16) (flits : List (BitVec 64 × BitVec 512))
  /-- R14. A frame unacknowledged for 20 µs is replayed by its sending port. -/
  | fabricReplayTimeout (port : Nat)
  /-- R25. Writing EN 1 in DISABLED enters RUNNING, or leaves the queue DISABLED with QERR 5 on a bad configuration. -/
  | qctlEnSet (q : Nat) (v : BitVec 64)
  /-- R25. Writing EN 0 with QINFL 0, outside DRAINING, enters DISABLED; otherwise it is ignored. -/
  | qctlEnClear (q : Nat) (v : BitVec 64)
  /-- R25. Writing RESUME 1 in STOPPED or HALTED enters RUNNING and reloads the watchdog. -/
  | qctlResume (q : Nat) (v : BitVec 64)
  /-- R25. Setting or clearing HOLD stops or restarts slot consumption of a RUNNING queue. -/
  | qctlHold (q : Nat) (v : BitVec 64)
  /-- R25. Writing DISC 1 discards every unconsumed slot: QSLOT := QDBELL, with no answers. -/
  | qctlDisc (q : Nat) (v : BitVec 64)
  /-- R33. The producer's write of QDBELL makes slots up to the new count visible for consumption. -/
  | qdbellWrite (q : Nat) (v : BitVec 64)
  /-- R33. The host marks answers processed, freeing answer entries; a value that does not precede or equal QDSEQ is ignored. -/
  | qaconsWrite (q : Nat) (v : BitVec 64)
  /-- R37. A write of QWDOG sets the watchdog interval and reloads QWLEFT, except in DRAINING and HALTED. -/
  | qwdogWrite (q : Nat) (v : BitVec 64)
  /-- R24. A write to a register without behaviour of its own takes effect, or is ignored when the register is read-only in the current state or the access is not an aligned 64-bit one. -/
  | queueRegisterWrite (q : Nat) (off : BitVec 12) (size : Nat) (v : BitVec 64)
  /-- R30. When the queue can consume, the device checks the slot at QSLOT and copies the command into QFLT, or stops the queue. -/
  | slotConsume (q : Nat)
  /-- R31. When a command's completion condition holds, its answer entry is written, then QDSEQ, QFLT, QINFL and the watchdog update in one step. -/
  | answerEmit (q : Nat)
  /-- R34. Command 0x00 is answered OK at once. -/
  | nop (q : Nat) (hseq : BitVec 32)
  /-- R35. Admin command 0x01 validates a partition record and creates the partition with its root region. -/
  | pcreate (q : Nat) (hseq : BitVec 32)
  /-- R34. Admin command 0x02 drains a partition, releases its cores and share, and unbinds its queues. -/
  | pdestroy (q : Nat) (hseq : BitVec 32)
  /-- R34. Admin command 0x03 binds a disabled queue to a partition or unbinds it. -/
  | qbind (q : Nat) (hseq : BitVec 32)
  /-- R38. Command 0x04 drains the bound or named partition and is answered when the drain is complete. -/
  | pdrain (q : Nat) (hseq : BitVec 32)
  /-- R54. Command 0x05 validates a region control block and accepts it into the tree, returning its handle. -/
  | rcreate (q : Nat) (hseq : BitVec 32)
  /-- R34. Command 0x06 submits a task node and is answered when its completion object reaches the target. -/
  | grun (q : Nat) (hseq : BitVec 32)
  /-- R34. Command 0x07 sets QWDOG and is answered at once. -/
  | wdog (q : Nat) (hseq : BitVec 32)
  /-- R39. Command 0x08 begins a checkpoint of the scope to the CXL tier by quiescing the partitions in scope. -/
  | cksave (q : Nat) (hseq : BitVec 32)
  /-- R39. Command 0x09 begins a checkpoint load of the scope from the CXL tier by quiescing the partitions in scope. -/
  | ckload (q : Nat) (hseq : BitVec 32)
  /-- R34. Admin command 0x0A requests a clock step for each die of its mask and is answered once each has been carried out or replaced. -/
  | fstep (q : Nat) (hseq : BitVec 32)
  /-- R34. Command 0x0B is answered when every earlier command of the queue has been answered. -/
  | qfence (q : Nat) (hseq : BitVec 32)
  /-- R73. Command 0x0C begins retiring a region of the bound partition. -/
  | rretire (q : Nat) (hseq : BitVec 32)
  /-- R34. A command with opcode 0x0D to 0xFF, or an admin-only opcode on another queue, is answered BADOP at once. -/
  | reservedOpcode (q : Nat) (hseq : BitVec 32)
  /-- R40. No task of the partitions in scope runs; the watchdogs are suspended and the copy phase starts. -/
  | checkpointQuiesced (q : Nat) (hseq : BitVec 32)
  /-- R40. The checkpoint copy finishes, awards resume and the command is answered. -/
  | checkpointCopyComplete (q : Nat) (hseq : BitVec 32)
  /-- R40. A CXL error during the copy ends the checkpoint with CKERR and the byte offset reached. -/
  | checkpointCxlError (q : Nat) (hseq : BitVec 32) (reached : Nat)
  /-- R37. A queue's QWLEFT reaches 0; a bound queue's partition is drained, or an unbound queue halts with a WDOG event. -/
  | watchdogExpiry (q : Nat)
  /-- R202. Every engine operation and reduce-store of the draining partition has ended, and the forced invalidation of its space starts. -/
  | drainOperationsSettled (part : Nat)
  /-- R73. A retiring region whose LIVE and OUTS are both 0 retires, its resources are freed and RRETIRE is answered. -/
  | regionRetire (part region : Nat)
  /-- R78. A submission that waited on a full Locus enters it as soon as an entry frees. -/
  | locusWaitingSubmissionEnter (locus : Nat)
  /-- R79. Each 16,384 cycles in the Locus raise an entry's tender priority by 1, making it due. -/
  | tenderPriorityRise (locus entry : Nat)
  /-- R84. A free tender slot takes the first due WAITING entry, sends the tender and opens a window of BWIN cycles. -/
  | tenderStart (locus : Nat)
  /-- R80. A core receives a tender and answers with a bid or a decline. -/
  | tenderArrival (locus entry round core : Nat)
  /-- R84. The Locus receives a bid or decline; when every core has answered, the window closes. -/
  | bidReceive (locus entry round core : Nat) (bid : Option Int)
  /-- R84. BWIN cycles pass and the window closes, with an award, an escalation or a return to WAITING. -/
  | bidWindowExpiry (locus entry round : Nat)
  /-- R86. The hub Locus takes an escalated entry with its age and tenders it to every core of the partition. -/
  | escalatedTenderReceive (die entry : Nat)
  /-- R84. The origin Locus learns the hub tender's outcome; the entry leaves or returns to WAITING. -/
  | hubTenderResult (die entry : Nat) (committed : Bool)
  /-- R87. A core receives an award and rechecks its slot. -/
  | awardArrival (locus entry round core : Nat)
  /-- R84. The Locus receives a withdrawal and opens a new window without that core. -/
  | withdrawalReceive (locus entry round core : Nat)
  /-- R84. 64 cycles pass after an award without a commit, and a new window opens without the winner. -/
  | commitTimeout (locus entry round : Nat)
  /-- R89. The Locus receives a commit and dispatches the task, or refuses the commit for an entry already removed. -/
  | commitReceive (locus entry round core : Nat)
  /-- R89. A victim whose convoy has not retired within 2,048 cycles of the commit is stopped at its first uncommitted element group. -/
  | preemptionStopTimeout (ctx : Nat)
  /-- R113. A context to be saved reaches its stop at the oldest unconfirmed convoy, and its save starts. -/
  | convoyBoundaryStop (ctx : Nat)
  /-- R200. Engine writes owed to the context's tiles, accumulators or chains have arrived, and the image is written. -/
  | saveOwedWritesDelivered (ctx : Nat)
  /-- R200. The image is released at package scope, the slot is freed, and the committed task takes it. -/
  | saveImageWritten (ctx : Nat)
  /-- R91. 65,536 cycles after a priority-0 context resumes from pre-emption, its protection ends. -/
  | protectionExpiry (ctx : Nat)
  /-- R67. After the copies and the system release, COMP is incremented, successors are decremented and the context is freed. -/
  | retireComplete (ctx : Nat)
  /-- R66. An atomic update at the object's home raises VALUE, ECOUNT and a first ESTAT together. -/
  | completionObjectUpdate (part region : Nat) (object : BitVec 64) (estat : BitVec 8)
  /-- R68. A decrement of a successor's PRED at its home submits the node when it takes the word from 1 to 0. -/
  | predDecrement (part region : Nat) (node : BitVec 64) (core : Nat)
  /-- R71. A decrement that lowers PRED and sets CANCEL reaches a successor of a killed or cancelled node. -/
  | cancellingDecrement (part region : Nat) (node : BitVec 64) (core : Nat)
  /-- R69. Every kill of a killing region has ended; its STATE returns to active and held entries and submissions proceed. -/
  | killEnd (part region : Nat)
  /-- R76. A wait on another party reaches WDI reference ticks and ends with its timeout status. -/
  | regionWatchdogExpiry (ctx : Nat)
  /-- R130. A segment returns to the pool, and the runtime restarts a convoy that stands in the pool-empty fault. -/
  | poolEmptyRestart (ctx : Nat)
  /-- R130. A pool-empty fault that has stood WDI ticks is delivered unresolved to the fault domain. -/
  | poolEmptyWaitExpiry (ctx : Nat)
  /-- R367. A grant or connection makes a faulted vsend possible, and the runtime executes sret. -/
  | rayPermitResume (ctx : Nat)
  /-- R367. A ray-permit wait that has stood WDI ticks is delivered unresolved. -/
  | rayPermitWaitExpiry (ctx : Nat)
  /-- R154. The page arrives; the leaf is written valid and released, and the waiting contexts are made ready, or the fault goes unresolved. -/
  | pageFetchComplete (part page : Nat) (ok : Bool)
  /-- R143. Every access translated through dropped or revoked entries has completed, and the request completes. -/
  | rangedInvalidationComplete (req : Nat)
  /-- R369. Runtime call 0 grants contiguous plane units to the caller's region under PLANE. -/
  | planeAllocate (ctx : Nat) (units : BitVec 64)
  /-- R369. Runtime call 1 frees plane units granted to the caller's region. -/
  | planeFree (ctx : Nat) (offset units : BitVec 64)
  /-- R144. Runtime call 2 loads the range's valid leaves into the die TLBs as pinned entries, or pins nothing. -/
  | pin (ctx : Nat) (base len : BitVec 64)
  /-- R369. Runtime call 3 unpins a range that the caller's region pinned. -/
  | unpin (ctx : Nat) (base len : BitVec 64)
  /-- R143. Runtime call 4 requests a normal or forced ranged invalidation. -/
  | invalidate (ctx : Nat) (base len mode : BitVec 64)
  /-- R337. An engine operation finishes or stops at a fault and increments its completion object, acting as rel sys. -/
  | engineOperationComplete (op : Nat)
  /-- R151. A write-queue entry leaves the queue and is applied to HBM or a plane bank, or discarded on an uncorrectable error. -/
  | writeQueueApply (entry : Nat)
  /-- R185. Every home written in the old phase reports its count, the release completes and the held writes proceed. -/
  | releaseComplete (ctx : Nat)
  /-- R265. 128 cycles after an lr, its reservation lapses. -/
  | lrReservationExpiry (ctx : Nat)
  /-- R351. A resume message reaches a waiter's die, and the waiter issues its next word 10 cycles later. -/
  | barrierResume (ctx : Nat)
  /-- R346. The ingress unit takes a routed token and places it in an expert queue, evicting and re-placing or dropping. -/
  | tokenArrival (token : Nat)
  /-- R234. A fetched word whose major opcode, selector values or restricted fields name no instruction and no hint traps at decode with scause 2. -/
  | illegalEncoding (word : BitVec 32)
  /-- R11. A link's training or retraining ends; on success the link carries traffic again, and a failure counts towards the three that take it down. -/
  | linkTrainingComplete (die port : Nat) (ok : Bool)
  /-- R143. A ranged invalidation finishes dropping or revoking entries, and the hold on the die TLBs ends within 512 cycles. -/
  | dieTlbHoldEnd (req : Nat)
  /-- R185. A home clears its arrival counters for a phase one round trip after the closing release completes, and a release waiting on that phase proceeds. -/
  | phaseCountersCleared (ctx : Nat) (phase : BitVec 2)
  /-- R355. peltum-dbg lets a context that it stopped at a breakpoint run again, by continue or stepi. -/
  | debuggerResume (ctx : Nat) (single : Bool)
  /-- R42. A boot source gives no image, so the ROM tries the next source, or halts with FAIL 6 when none remains. -/
  | bootSourceNoAnswer
  /-- R48. The supply is lost, stopping the device, possibly during a key-store erase that the ROM must finish at the next power-on. -/
  | powerFail
  /-- R33. The host writes device memory through the host port: command slots, records, page tables, or the boot window. -/
  | hostMemoryWrite (addr : Nat) (bytes : List (BitVec 8))
  /-- R197. A soft error arises of itself in an SRAM word or an HBM location, to be corrected or reported when a read, queue entry or table access meets it. -/
  | memoryError (unit addr : Nat) (corrected : Bool)
  /-- R279. vadd, form vv: element a + b of two chains. -/
  | vaddVv (c m : BitVec 1) (b a d : BitVec 5)
  /-- R279. vadd, form vx: chain plus a scalar from an x register. -/
  | vaddVx (c m : BitVec 1) (b a d : BitVec 5)
  /-- R279. vadd, form vi: chain plus imm5, integer types. -/
  | vaddVi (c m : BitVec 1) (b i d : BitVec 5)
  /-- R279. vadd, form vs: chain plus element 0 of another chain. -/
  | vaddVs (m : BitVec 1) (b a d : BitVec 5)
  /-- R299. vadd, ray-source form: operand a from the message at the head of a ray. -/
  | vaddRay (c m : BitVec 1) (b a d : BitVec 5)
  /-- R279. vsub, form vv: a − b. -/
  | vsubVv (c m : BitVec 1) (b a d : BitVec 5)
  /-- R279. vsub, form vx. -/
  | vsubVx (c m : BitVec 1) (b a d : BitVec 5)
  /-- R279. vsub, form vi. -/
  | vsubVi (c m : BitVec 1) (b i d : BitVec 5)
  /-- R279. vsub, form vs. -/
  | vsubVs (m : BitVec 1) (b a d : BitVec 5)
  /-- R299. vsub, ray-source form. -/
  | vsubRay (c m : BitVec 1) (b a d : BitVec 5)
  /-- R279. vrsub, form vx: b − a. -/
  | vrsubVx (c m : BitVec 1) (b a d : BitVec 5)
  /-- R279. vrsub, form vi. -/
  | vrsubVi (c m : BitVec 1) (b i d : BitVec 5)
  /-- R279. vrsub, form vs. -/
  | vrsubVs (m : BitVec 1) (b a d : BitVec 5)
  /-- R299. vrsub, ray-source form. -/
  | vrsubRay (c m : BitVec 1) (b a d : BitVec 5)
  /-- R279. vmul, form vv: a × b. -/
  | vmulVv (c m : BitVec 1) (b a d : BitVec 5)
  /-- R279. vmul, form vx. -/
  | vmulVx (c m : BitVec 1) (b a d : BitVec 5)
  /-- R279. vmul, form vs. -/
  | vmulVs (m : BitVec 1) (b a d : BitVec 5)
  /-- R299. vmul, ray-source form. -/
  | vmulRay (c m : BitVec 1) (b a d : BitVec 5)
  /-- R279. vmulh, form vv: high half of the integer product. -/
  | vmulhVv (c m : BitVec 1) (b a d : BitVec 5)
  /-- R279. vmulh, form vx. -/
  | vmulhVx (c m : BitVec 1) (b a d : BitVec 5)
  /-- R279. vmulh, form vs. -/
  | vmulhVs (m : BitVec 1) (b a d : BitVec 5)
  /-- R299. vmulh, ray-source form. -/
  | vmulhRay (c m : BitVec 1) (b a d : BitVec 5)
  /-- R279. vdiv, form vv: a / b. -/
  | vdivVv (c m : BitVec 1) (b a d : BitVec 5)
  /-- R279. vdiv, form vx. -/
  | vdivVx (c m : BitVec 1) (b a d : BitVec 5)
  /-- R279. vdiv, form vs. -/
  | vdivVs (m : BitVec 1) (b a d : BitVec 5)
  /-- R299. vdiv, ray-source form. -/
  | vdivRay (c m : BitVec 1) (b a d : BitVec 5)
  /-- R279. vrem, form vv: remainder with the dividend's sign. -/
  | vremVv (c m : BitVec 1) (b a d : BitVec 5)
  /-- R279. vrem, form vx. -/
  | vremVx (c m : BitVec 1) (b a d : BitVec 5)
  /-- R279. vrem, form vs. -/
  | vremVs (m : BitVec 1) (b a d : BitVec 5)
  /-- R299. vrem, ray-source form. -/
  | vremRay (c m : BitVec 1) (b a d : BitVec 5)
  /-- R279. vmin, form vv. -/
  | vminVv (c m : BitVec 1) (b a d : BitVec 5)
  /-- R279. vmin, form vx. -/
  | vminVx (c m : BitVec 1) (b a d : BitVec 5)
  /-- R279. vmin, form vi. -/
  | vminVi (c m : BitVec 1) (b i d : BitVec 5)
  /-- R279. vmin, form vs. -/
  | vminVs (m : BitVec 1) (b a d : BitVec 5)
  /-- R299. vmin, ray-source form. -/
  | vminRay (c m : BitVec 1) (b a d : BitVec 5)
  /-- R279. vmax, form vv. -/
  | vmaxVv (c m : BitVec 1) (b a d : BitVec 5)
  /-- R279. vmax, form vx. -/
  | vmaxVx (c m : BitVec 1) (b a d : BitVec 5)
  /-- R279. vmax, form vi. -/
  | vmaxVi (c m : BitVec 1) (b i d : BitVec 5)
  /-- R279. vmax, form vs. -/
  | vmaxVs (m : BitVec 1) (b a d : BitVec 5)
  /-- R299. vmax, ray-source form. -/
  | vmaxRay (c m : BitVec 1) (b a d : BitVec 5)
  /-- R279. vand, form vv: bitwise and. -/
  | vandVv (c m : BitVec 1) (b a d : BitVec 5)
  /-- R279. vand, form vx. -/
  | vandVx (c m : BitVec 1) (b a d : BitVec 5)
  /-- R279. vand, form vi. -/
  | vandVi (c m : BitVec 1) (b i d : BitVec 5)
  /-- R279. vand, form vs. -/
  | vandVs (m : BitVec 1) (b a d : BitVec 5)
  /-- R299. vand, ray-source form. -/
  | vandRay (c m : BitVec 1) (b a d : BitVec 5)
  /-- R279. vor, form vv: bitwise or. -/
  | vorVv (c m : BitVec 1) (b a d : BitVec 5)
  /-- R279. vor, form vx. -/
  | vorVx (c m : BitVec 1) (b a d : BitVec 5)
  /-- R279. vor, form vi. -/
  | vorVi (c m : BitVec 1) (b i d : BitVec 5)
  /-- R279. vor, form vs. -/
  | vorVs (m : BitVec 1) (b a d : BitVec 5)
  /-- R299. vor, ray-source form. -/
  | vorRay (c m : BitVec 1) (b a d : BitVec 5)
  /-- R279. vxor, form vv: bitwise exclusive or. -/
  | vxorVv (c m : BitVec 1) (b a d : BitVec 5)
  /-- R279. vxor, form vx. -/
  | vxorVx (c m : BitVec 1) (b a d : BitVec 5)
  /-- R279. vxor, form vi. -/
  | vxorVi (c m : BitVec 1) (b i d : BitVec 5)
  /-- R279. vxor, form vs. -/
  | vxorVs (m : BitVec 1) (b a d : BitVec 5)
  /-- R299. vxor, ray-source form. -/
  | vxorRay (c m : BitVec 1) (b a d : BitVec 5)
  /-- R279. vsll, form vv: shift left by b mod width. -/
  | vsllVv (c m : BitVec 1) (b a d : BitVec 5)
  /-- R279. vsll, form vx. -/
  | vsllVx (c m : BitVec 1) (b a d : BitVec 5)
  /-- R279. vsll, form vi, shift amount 0 to 31. -/
  | vsllVi (c m : BitVec 1) (b i d : BitVec 5)
  /-- R279. vsll, form vs. -/
  | vsllVs (m : BitVec 1) (b a d : BitVec 5)
  /-- R299. vsll, ray-source form. -/
  | vsllRay (c m : BitVec 1) (b a d : BitVec 5)
  /-- R279. vsrl, form vv: logical shift right. -/
  | vsrlVv (c m : BitVec 1) (b a d : BitVec 5)
  /-- R279. vsrl, form vx. -/
  | vsrlVx (c m : BitVec 1) (b a d : BitVec 5)
  /-- R279. vsrl, form vi. -/
  | vsrlVi (c m : BitVec 1) (b i d : BitVec 5)
  /-- R279. vsrl, form vs. -/
  | vsrlVs (m : BitVec 1) (b a d : BitVec 5)
  /-- R299. vsrl, ray-source form. -/
  | vsrlRay (c m : BitVec 1) (b a d : BitVec 5)
  /-- R279. vsra, form vv: arithmetic shift right. -/
  | vsraVv (c m : BitVec 1) (b a d : BitVec 5)
  /-- R279. vsra, form vx. -/
  | vsraVx (c m : BitVec 1) (b a d : BitVec 5)
  /-- R279. vsra, form vi. -/
  | vsraVi (c m : BitVec 1) (b i d : BitVec 5)
  /-- R279. vsra, form vs. -/
  | vsraVs (m : BitVec 1) (b a d : BitVec 5)
  /-- R299. vsra, ray-source form. -/
  | vsraRay (c m : BitVec 1) (b a d : BitVec 5)
  /-- R281. vfma, form vv: a × b + c, c from vd, one rounding. -/
  | vfmaVv (c m : BitVec 1) (b a d : BitVec 5)
  /-- R281. vfma, form vx. -/
  | vfmaVx (c m : BitVec 1) (b a d : BitVec 5)
  /-- R281. vfma, form vs. -/
  | vfmaVs (m : BitVec 1) (b a d : BitVec 5)
  /-- R299. vfma, ray-source form. -/
  | vfmaRay (c m : BitVec 1) (b a d : BitVec 5)
  /-- R281. vfms, form vv: a × b − c. -/
  | vfmsVv (c m : BitVec 1) (b a d : BitVec 5)
  /-- R281. vfms, form vx. -/
  | vfmsVx (c m : BitVec 1) (b a d : BitVec 5)
  /-- R281. vfms, form vs. -/
  | vfmsVs (m : BitVec 1) (b a d : BitVec 5)
  /-- R299. vfms, ray-source form. -/
  | vfmsRay (c m : BitVec 1) (b a d : BitVec 5)
  /-- R281. vfnma, form vv: −(a × b) + c. -/
  | vfnmaVv (c m : BitVec 1) (b a d : BitVec 5)
  /-- R281. vfnma, form vx. -/
  | vfnmaVx (c m : BitVec 1) (b a d : BitVec 5)
  /-- R281. vfnma, form vs. -/
  | vfnmaVs (m : BitVec 1) (b a d : BitVec 5)
  /-- R299. vfnma, ray-source form. -/
  | vfnmaRay (c m : BitVec 1) (b a d : BitVec 5)
  /-- R279. vsadd, form vv: saturating add, setting SAT on a clamp. -/
  | vsaddVv (c m : BitVec 1) (b a d : BitVec 5)
  /-- R279. vsadd, form vx. -/
  | vsaddVx (c m : BitVec 1) (b a d : BitVec 5)
  /-- R279. vsadd, form vi. -/
  | vsaddVi (c m : BitVec 1) (b i d : BitVec 5)
  /-- R279. vsadd, form vs. -/
  | vsaddVs (m : BitVec 1) (b a d : BitVec 5)
  /-- R299. vsadd, ray-source form. -/
  | vsaddRay (c m : BitVec 1) (b a d : BitVec 5)
  /-- R279. vssub, form vv: saturating subtract. -/
  | vssubVv (c m : BitVec 1) (b a d : BitVec 5)
  /-- R279. vssub, form vx. -/
  | vssubVx (c m : BitVec 1) (b a d : BitVec 5)
  /-- R279. vssub, form vi. -/
  | vssubVi (c m : BitVec 1) (b i d : BitVec 5)
  /-- R279. vssub, form vs. -/
  | vssubVs (m : BitVec 1) (b a d : BitVec 5)
  /-- R299. vssub, ray-source form. -/
  | vssubRay (c m : BitVec 1) (b a d : BitVec 5)
  /-- R282. Compare equal, writing predicate pd. -/
  | vceq (c m : BitVec 1) (b a : BitVec 5) (p : BitVec 3)
  /-- R282. Compare not equal, the negation of vceq. -/
  | vcne (c m : BitVec 1) (b a : BitVec 5) (p : BitVec 3)
  /-- R282. Compare equal, unsigned variant for integers or signalling variant for floats. -/
  | vcequ (c m : BitVec 1) (b a : BitVec 5) (p : BitVec 3)
  /-- R282. Negated equal compare, unsigned or signalling variant. -/
  | vcneu (c m : BitVec 1) (b a : BitVec 5) (p : BitVec 3)
  /-- R282. Compare less than. -/
  | vclt (c m : BitVec 1) (b a : BitVec 5) (p : BitVec 3)
  /-- R282. Negated less-than compare. -/
  | vcnlt (c m : BitVec 1) (b a : BitVec 5) (p : BitVec 3)
  /-- R282. Less-than compare, unsigned or signalling variant. -/
  | vcltu (c m : BitVec 1) (b a : BitVec 5) (p : BitVec 3)
  /-- R282. Negated less-than compare, unsigned or signalling variant. -/
  | vcnltu (c m : BitVec 1) (b a : BitVec 5) (p : BitVec 3)
  /-- R282. Compare less or equal. -/
  | vcle (c m : BitVec 1) (b a : BitVec 5) (p : BitVec 3)
  /-- R282. Negated less-or-equal compare. -/
  | vcnle (c m : BitVec 1) (b a : BitVec 5) (p : BitVec 3)
  /-- R282. Less-or-equal compare, unsigned or signalling variant. -/
  | vcleu (c m : BitVec 1) (b a : BitVec 5) (p : BitVec 3)
  /-- R282. Negated less-or-equal compare, unsigned or signalling variant. -/
  | vcnleu (c m : BitVec 1) (b a : BitVec 5) (p : BitVec 3)
  /-- R282. True when a or b is a NaN. -/
  | vcun (c m : BitVec 1) (b a : BitVec 5) (p : BitVec 3)
  /-- R282. True when neither a nor b is a NaN. -/
  | vcord (c m : BitVec 1) (b a : BitVec 5) (p : BitVec 3)
  /-- R282. True when a is a signalling NaN. -/
  | vcsn (c m : BitVec 1) (a : BitVec 5) (p : BitVec 3)
  /-- R282. True when a is not a signalling NaN. -/
  | vcnsn (c m : BitVec 1) (a : BitVec 5) (p : BitVec 3)
  /-- R283. Takes vs1 where p0 is 1 and vs2 elsewhere. -/
  | vsel (c : BitVec 1) (b a d : BitVec 5)
  /-- R283. Fills every element with an x register's pattern. -/
  | vmvVx (c m : BitVec 1) (a d : BitVec 5)
  /-- R283. Fills every element with a converted immediate. -/
  | vmvVi (c m : BitVec 1) (i d : BitVec 5)
  /-- R283. Moves element 0 of a chain to an x register, whatever vl holds. -/
  | vmvX (a d : BitVec 5)
  /-- R283. Copies the first vl elements of a chain, normalised. -/
  | vmvVv (c m : BitVec 1) (a d : BitVec 5)
  /-- R284. Converts elements to the target type, non-saturating. -/
  | vcvt (c m : BitVec 1) (t : BitVec 4) (a d : BitVec 5)
  /-- R284. Converts elements to a narrower or integer target, saturating. -/
  | vcvts (c m : BitVec 1) (t : BitVec 4) (a d : BitVec 5)
  /-- R285. Negates each element. -/
  | vneg (c m : BitVec 1) (a d : BitVec 5)
  /-- R285. Takes the absolute value of each element. -/
  | vabs (c m : BitVec 1) (a d : BitVec 5)
  /-- R285. Takes the square root, rounded under frm. -/
  | vsqrt (c m : BitVec 1) (a d : BitVec 5)
  /-- R286. Estimates 1/a to p bits. -/
  | vrcpe (c m : BitVec 1) (a d : BitVec 5)
  /-- R286. Estimates 1/√a to p bits. -/
  | vrsqe (c m : BitVec 1) (a d : BitVec 5)
  /-- R285. Computes 2^a, rounded once. -/
  | vexp2 (c m : BitVec 1) (a d : BitVec 5)
  /-- R285. Computes log2 a, rounded once. -/
  | vlog2 (c m : BitVec 1) (a d : BitVec 5)
  /-- R285. Counts leading zero bits. -/
  | vclz (c m : BitVec 1) (a d : BitVec 5)
  /-- R285. Counts set bits. -/
  | vpopc (c m : BitVec 1) (a d : BitVec 5)
  /-- R285. Reverses bits within the width. -/
  | vbrev (c m : BitVec 1) (a d : BitVec 5)
  /-- R285. Writes a one-hot class mask for each floating element. -/
  | vclass (c m : BitVec 1) (a d : BitVec 5)
  /-- R288. Sums the active elements through the virtual-lane tree. -/
  | vredsum (m : BitVec 1) (b a d : BitVec 5)
  /-- R288. Sums the start operand and the elements in index order. -/
  | vredosum (m : BitVec 1) (b a d : BitVec 5)
  /-- R288. Reduces the active elements to their minimum. -/
  | vredmin (m : BitVec 1) (b a d : BitVec 5)
  /-- R288. Reduces the active elements to their maximum. -/
  | vredmax (m : BitVec 1) (b a d : BitVec 5)
  /-- R288. Reduces by bitwise and. -/
  | vredand (m : BitVec 1) (b a d : BitVec 5)
  /-- R288. Reduces by bitwise or. -/
  | vredor (m : BitVec 1) (b a d : BitVec 5)
  /-- R288. Reduces by bitwise exclusive or. -/
  | vredxor (m : BitVec 1) (b a d : BitVec 5)
  /-- R289. Writes the index of the largest active element as n32. -/
  | vargmax (m : BitVec 1) (b d : BitVec 5)
  /-- R290. Packs the active elements in index order. -/
  | vcompress (b d : BitVec 5)
  /-- R290. Spreads consecutive source elements to the active positions. -/
  | vexpand (b d : BitVec 5)
  /-- R291. Element i counts the predicate bits set below i. -/
  | vpcnt (m : BitVec 1) (a : BitVec 3) (d : BitVec 5)
  /-- R291. Element i names the latest earlier active lane with an equal element. -/
  | vconfl (m : BitVec 1) (a d : BitVec 5)
  /-- R292. Shifts elements up by n. -/
  | vslideup (m : BitVec 1) (b a d : BitVec 5)
  /-- R292. Shifts elements down by n. -/
  | vslidedn (m : BitVec 1) (b a d : BitVec 5)
  /-- R292. Gathers elements of vs2 by the n32 indices in vs1. -/
  | vperm (m : BitVec 1) (b a d : BitVec 5)
  /-- R291. Element i := xs1 + i, wrapping. -/
  | viota (m : BitVec 1) (a d : BitVec 5)
  /-- R293. Segmented inclusive scan by add, with segments marked by p0. -/
  | vsscanAdd (b d : BitVec 5)
  /-- R293. Segmented scan by min. -/
  | vsscanMin (b d : BitVec 5)
  /-- R293. Segmented scan by max. -/
  | vsscanMax (b d : BitVec 5)
  /-- R293. Segmented scan by bitwise or. -/
  | vsscanOr (b d : BitVec 5)
  /-- R295. The Apex unit writes the indices of the k largest active elements. -/
  | vtopk (m : BitVec 1) (b a d : BitVec 5)
  /-- R296. The Apex unit intersects two index lists into position pairs. -/
  | vinter (m : BitVec 1) (b a d : BitVec 5)
  /-- R297. The Apex unit writes the indices of the active elements in stable ascending rank. -/
  | vsortk (m : BitVec 1) (a d : BitVec 5)
  /-- R298. Predicate and. -/
  | pand (c : BitVec 1) (b a d : BitVec 3)
  /-- R298. Predicate or. -/
  | por (c : BitVec 1) (b a d : BitVec 3)
  /-- R298. Predicate exclusive or. -/
  | pxor (c : BitVec 1) (b a d : BitVec 3)
  /-- R298. Predicate negation. -/
  | pnot (c : BitVec 1) (a d : BitVec 3)
  /-- R298. Predicate copy. -/
  | pmov (c : BitVec 1) (a d : BitVec 3)
  /-- R298. Counts the predicate bits set below vl into an x register. -/
  | pcnt (c : BitVec 1) (a : BitVec 3) (d : BitVec 5)
  /-- R298. Writes the lowest set predicate position below vl, or all ones. -/
  | pfirst (c : BitVec 1) (a : BitVec 3) (d : BitVec 5)
  /-- R309. Unit-stride vector load. -/
  | vldUnit (c m : BitVec 1) (a d : BitVec 5)
  /-- R309. Strided vector load. -/
  | vldStrided (c m : BitVec 1) (b a d : BitVec 5)
  /-- R309. Indexed vector load, gathering through an index chain. -/
  | vldIndexed (m : BitVec 1) (b a d : BitVec 5)
  /-- R311. Unit first-fault load, which shortens vl at a later fault. -/
  | vldffUnit (c m : BitVec 1) (a d : BitVec 5)
  /-- R311. Strided first-fault load. -/
  | vldffStrided (c m : BitVec 1) (b a d : BitVec 5)
  /-- R311. Indexed first-fault load. -/
  | vldffIndexed (m : BitVec 1) (b a d : BitVec 5)
  /-- R310. Unit-stride vector store. -/
  | vstUnit (c m : BitVec 1) (a s : BitVec 5)
  /-- R310. Strided vector store; a stride of 0 is a shape fault. -/
  | vstStrided (c m : BitVec 1) (b a s : BitVec 5)
  /-- R310. Indexed vector store, scattering through an index chain. -/
  | vstIndexed (m : BitVec 1) (b a s : BitVec 5)
  /-- R312. Unit store that writes a progress word after each 256-byte block. -/
  | vstn (c m : BitVec 1) (b a s : BitVec 5)
  /-- R313. Reduce-store add, unit form. -/
  | vrsAddUnit (c m : BitVec 1) (a s : BitVec 5)
  /-- R313. Reduce-store add, indexed form. -/
  | vrsAddIndexed (c m : BitVec 1) (b a s : BitVec 5)
  /-- R313. Reduce-store min, unit form. -/
  | vrsMinUnit (c m : BitVec 1) (a s : BitVec 5)
  /-- R313. Reduce-store min, indexed form. -/
  | vrsMinIndexed (c m : BitVec 1) (b a s : BitVec 5)
  /-- R313. Reduce-store max, unit form. -/
  | vrsMaxUnit (c m : BitVec 1) (a s : BitVec 5)
  /-- R313. Reduce-store max, indexed form. -/
  | vrsMaxIndexed (c m : BitVec 1) (b a s : BitVec 5)
  /-- R313. Reduce-store or, unit form. -/
  | vrsOrUnit (c m : BitVec 1) (a s : BitVec 5)
  /-- R313. Reduce-store or, indexed form. -/
  | vrsOrIndexed (c m : BitVec 1) (b a s : BitVec 5)
  /-- R306. Writes a chain's spill image and releases the register. -/
  | vspill (a s : BitVec 5)
  /-- R307. Builds a chain in fresh segments from a spill image. -/
  | vfill (a d : BitVec 5)
  /-- R122. Prepends the pieces of vs1 to vs2 and releases vs2. -/
  | vprep (b a d : BitVec 5)
  /-- R122. Drops the first n elements of a chain. -/
  | vtrimh (b a d : BitVec 5)
  /-- R122. Drops the last n elements of a chain. -/
  | vtrimt (b a d : BitVec 5)
  /-- R122. Splits a chain at element n into two registers. -/
  | vsplit (b a d : BitVec 5)
  /-- R122. Joins two chains and releases both sources. -/
  | vjoin (b a d : BitVec 5)
  /-- R122. Gives a second register the same pieces. -/
  | vshare (a d : BitVec 5)
  /-- R122. Moves a chain to vd with a new TYPE. -/
  | vretype (t a d : BitVec 5)
  /-- R304. Writes a chain's element count to an x register. -/
  | vlen (a d : BitVec 5)
  /-- R122. Releases a register. -/
  | vfree (d : BitVec 5)
  /-- R122. Rewrites a chain into aligned full pieces with FIRST 0. -/
  | vnorm (a d : BitVec 5)
  /-- R159. Claims a Facet region of 2^L bytes at the top of the scratchpad and writes a code. -/
  | fclaim (b a d : BitVec 5)
  /-- R160. Releases the region's Facet claim, zeroing the area. -/
  | frel
  /-- R317. Inserts or replaces key-value entries, with a status per lane. -/
  | fins (m : BitVec 1) (b a : BitVec 5) (p : BitVec 2)
  /-- R317. Searches the keys, writing values, statuses and a hit count. -/
  | fprobe (m : BitVec 1) (b a : BitVec 5) (p : BitVec 2) (d : BitVec 5)
  /-- R317. Deletes entries, leaving tombstones. -/
  | fdel (m : BitVec 1) (a : BitVec 5) (p : BitVec 2)
  /-- R317. Accumulates values by key with add. -/
  | faccAdd (m : BitVec 1) (p : BitVec 2) (a d : BitVec 5)
  /-- R317. Accumulates values by key with min. -/
  | faccMin (m : BitVec 1) (p : BitVec 2) (a d : BitVec 5)
  /-- R317. Accumulates values by key with max. -/
  | faccMax (m : BitVec 1) (p : BitVec 2) (a d : BitVec 5)
  /-- R317. Accumulates values by key with or. -/
  | faccOr (m : BitVec 1) (p : BitVec 2) (a d : BitVec 5)
  /-- R317. Counts lanes per key into the table. -/
  | faccCount (m : BitVec 1) (p : BitVec 2) (a d : BitVec 5)
  /-- R318. Writes up to vl entries to key and value chains, leaving tombstones and advancing HEAD. -/
  | fdrain (b d : BitVec 5)
  /-- R321. Sets a tile's mshape format, rows and columns. -/
  | mset (b a : BitVec 5) (f d : BitVec 3)
  /-- R322. Loads a tile's rows from memory. -/
  | mld (b a : BitVec 5) (d : BitVec 3)
  /-- R324. First-fault tile load, shortening ROWS at a later fault. -/
  | mldff (b a : BitVec 5) (d : BitVec 3)
  /-- R322. Stores a tile's rows to memory. -/
  | mst (b a : BitVec 5) (d : BitVec 3)
  /-- R321. Zeroes a tile, an accumulator, or both accumulators. -/
  | mzero (t : BitVec 5)
  /-- R326. Multiplies two tiles into an accumulator or the pair. -/
  | mop (c b a f : BitVec 3)
  /-- R328. Applies E8M0 row and column scales to the other accumulator's sums. -/
  | msca (c : BitVec 3) (b a : BitVec 5)
  /-- R330. Writes a tile row from a chain. -/
  | mrowIn (b a : BitVec 5) (f d : BitVec 3)
  /-- R330. Writes a tile row to a normalised chain. -/
  | mrowOut (b : BitVec 5) (a f : BitVec 3) (d : BitVec 5)
  /-- R331. Writes accumulator rows to a chain in the given format. -/
  | maccOut (c : BitVec 1) (b a : BitVec 5) (f : BitVec 3) (d : BitVec 5)
  /-- R332. Forms a gang from a record, or reports the task's gang. -/
  | mgang (a d : BitVec 5)
  /-- R334. Sends a tile's rows as one message on a ray. -/
  | mbcast (b : BitVec 5) (a : BitVec 3)
  /-- R250. Steps the selected pointers, lowers the count, grants the next vl and branches while the count is nonzero. -/
  | vsmine (o : BitVec 12) (k : BitVec 4) (n : BitVec 5)
  /-- R248. Grants vl := min(avl, vlmax(type)) and sets vtype. -/
  | vsetl (t a d : BitVec 5)
  /-- R251. Reads a shape record, merges contiguous dimensions, and grants vl and vouter. -/
  | vcollapse (a d : BitVec 5)
  /-- R252. Orders earlier scalar accesses before later convoys' accesses in the scope. -/
  | fenceSv (s : BitVec 2)
  /-- R252. Orders earlier vector accesses before later scalar accesses in the scope. -/
  | fenceVs (s : BitVec 2)
  /-- R252. Orders earlier vector accesses before later vector accesses in the scope. -/
  | fenceVv (s : BitVec 2)
  /-- R179. Release: waits until earlier writes are performed for the scope, then advances the phase and steps the clock. -/
  | rel (s : BitVec 2)
  /-- R180. Acquire: orders earlier reads before later accesses and waits for the covered writes to be applied. -/
  | acq (s : BitVec 2)
  /-- R336. Reads a copy command and forks a copy-engine operation. -/
  | ccopy (b a d : BitVec 5)
  /-- R338. Waits in the slot until a completion object reaches a target. -/
  | cwait (b a d : BitVec 5)
  /-- R338. Reads a completion object once against a target. -/
  | ctest (b a d : BitVec 5)
  /-- R339. Opens a send or receive end of a ray by key. -/
  | rayOpen (b a d : BitVec 5)
  /-- R343. Closes an end, returning permits or releasing queued messages. -/
  | rayClose (a : BitVec 5)
  /-- R340. Grants permits to the sender, setting aside segments for a cross-core ray. -/
  | rayGrant (b a : BitVec 5)
  /-- R341. Sends a chain as a message on a connected send end. -/
  | vsend (b a : BitVec 5)
  /-- R342. Waits for the head message and receives it as a chain, tile rows or accumulator adds. -/
  | rayRecv (a d : BitVec 5)
  /-- R345. Routes tokens to the top expert groups' ingress units under a route record. -/
  | vroute (b a d : BitVec 5)
  /-- R347. Creates a die or package barrier with an expected count. -/
  | barInit (b a d : BitVec 5)
  /-- R348. Releases at the barrier's scope and counts one arrival. -/
  | barArrive (a : BitVec 5)
  /-- R349. Waits for the phase of the context's last arrival. -/
  | barWait (a d : BitVec 5)
  /-- R352. Contributes a chain to a package add collective and waits. -/
  | collAdd (b a d : BitVec 5)
  /-- R352. Min collective. -/
  | collMin (b a d : BitVec 5)
  /-- R352. Max collective. -/
  | collMax (b a d : BitVec 5)
  /-- R352. Or collective. -/
  | collOr (b a d : BitVec 5)
  /-- R254. Releases at system scope, then reads, checks and submits a task node. -/
  | tsub (a d : BitVec 5)
  /-- R255. Ends the task once older convoys retire. -/
  | tdone
  /-- R256. Saves the context and makes it ready again through a resume entry, when a frame is free. -/
  | tyield
  /-- R257. Waits, giving up the slot, until a completion object reaches a target. -/
  | twait (b a d : BitVec 5)
  /-- R258. Kills a region and its descendants as kill subtree. -/
  | tkill (a d : BitVec 5)
  /-- R259. Returns the segment table entry of a segment. -/
  | qseg (a d : BitVec 5)
  /-- R259. Reports on a context of the core. -/
  | qctx (a d : BitVec 5)
  /-- R260. Drops the core TLB entries that overlap a range; S mode only. -/
  | tlbdrop (b a : BitVec 5)
  /-- R261. Drops cached remote lines and instruction-cache lines over a range. -/
  | cflush (b a : BitVec 5)
  /-- R262. Clears or sets EN of selected event counters in one cycle; S mode only. -/
  | evfrz (a : BitVec 5)
  /-- R246. Group-110 words with f7 64 to 127 and rd 0 execute as no-ops. -/
  | syHint (h : BitVec 6) (b a : BitVec 5)
  /-- R263. Extracts a bit field, zero-extended. -/
  | bfx (e b a d : BitVec 5)
  /-- R263. Extracts a bit field, sign-extended. -/
  | bfxs (e b a d : BitVec 5)
  /-- R263. Inserts a bit field into rd. -/
  | bfi (e b a d : BitVec 5)
  /-- R245. rd := sign-extended imm << 12. -/
  | lui (u : BitVec 20) (d : BitVec 5)
  /-- R245. rd := pc + sign-extended imm << 12. -/
  | auipc (u : BitVec 20) (d : BitVec 5)
  /-- R245. Jump and link. -/
  | jal (j : BitVec 20) (d : BitVec 5)
  /-- R245. Jump and link through a register. -/
  | jalr (i : BitVec 12) (a d : BitVec 5)
  /-- R245. Branch if equal. -/
  | beq (h : BitVec 7) (b a l : BitVec 5)
  /-- R245. Branch if not equal. -/
  | bne (h : BitVec 7) (b a l : BitVec 5)
  /-- R245. Branch if less, signed. -/
  | blt (h : BitVec 7) (b a l : BitVec 5)
  /-- R245. Branch if greater or equal, signed. -/
  | bge (h : BitVec 7) (b a l : BitVec 5)
  /-- R245. Branch if less, unsigned. -/
  | bltu (h : BitVec 7) (b a l : BitVec 5)
  /-- R245. Branch if greater or equal, unsigned. -/
  | bgeu (h : BitVec 7) (b a l : BitVec 5)
  /-- R245. Load byte, sign-extended. -/
  | lb (i : BitVec 12) (a d : BitVec 5)
  /-- R245. Load halfword, sign-extended. -/
  | lh (i : BitVec 12) (a d : BitVec 5)
  /-- R245. Load word, sign-extended. -/
  | lw (i : BitVec 12) (a d : BitVec 5)
  /-- R245. Load doubleword. -/
  | ld (i : BitVec 12) (a d : BitVec 5)
  /-- R245. Load byte, zero-extended. -/
  | lbu (i : BitVec 12) (a d : BitVec 5)
  /-- R245. Load halfword, zero-extended. -/
  | lhu (i : BitVec 12) (a d : BitVec 5)
  /-- R245. Load word, zero-extended. -/
  | lwu (i : BitVec 12) (a d : BitVec 5)
  /-- R245. Store byte. -/
  | sb (h : BitVec 7) (b a l : BitVec 5)
  /-- R245. Store halfword. -/
  | sh (h : BitVec 7) (b a l : BitVec 5)
  /-- R245. Store word. -/
  | sw (h : BitVec 7) (b a l : BitVec 5)
  /-- R245. Store doubleword. -/
  | sd (h : BitVec 7) (b a l : BitVec 5)
  /-- R245. Add immediate. -/
  | addi (i : BitVec 12) (a d : BitVec 5)
  /-- R245. Set if less than immediate, signed. -/
  | slti (i : BitVec 12) (a d : BitVec 5)
  /-- R245. Set if less than immediate, unsigned. -/
  | sltiu (i : BitVec 12) (a d : BitVec 5)
  /-- R245. Exclusive or with an immediate. -/
  | xori (i : BitVec 12) (a d : BitVec 5)
  /-- R245. Or with an immediate. -/
  | ori (i : BitVec 12) (a d : BitVec 5)
  /-- R245. And with an immediate. -/
  | andi (i : BitVec 12) (a d : BitVec 5)
  /-- R245. Shift left by an immediate. -/
  | slli (h : BitVec 6) (a d : BitVec 5)
  /-- R245. Logical shift right by an immediate. -/
  | srli (h : BitVec 6) (a d : BitVec 5)
  /-- R245. Arithmetic shift right by an immediate. -/
  | srai (h : BitVec 6) (a d : BitVec 5)
  /-- R245. Add. -/
  | add (b a d : BitVec 5)
  /-- R245. Subtract. -/
  | sub (b a d : BitVec 5)
  /-- R245. Shift left. -/
  | sll (b a d : BitVec 5)
  /-- R245. Set if less than, signed. -/
  | slt (b a d : BitVec 5)
  /-- R245. Set if less than, unsigned. -/
  | sltu (b a d : BitVec 5)
  /-- R245. Exclusive or. -/
  | xor (b a d : BitVec 5)
  /-- R245. Logical shift right. -/
  | srl (b a d : BitVec 5)
  /-- R245. Arithmetic shift right. -/
  | sra (b a d : BitVec 5)
  /-- R245. Or. -/
  | or (b a d : BitVec 5)
  /-- R245. And. -/
  | and (b a d : BitVec 5)
  /-- R245. Multiply, low bits. -/
  | mul (b a d : BitVec 5)
  /-- R245. Multiply, high bits, signed. -/
  | mulh (b a d : BitVec 5)
  /-- R245. Multiply, high bits, signed by unsigned. -/
  | mulhsu (b a d : BitVec 5)
  /-- R245. Multiply, high bits, unsigned. -/
  | mulhu (b a d : BitVec 5)
  /-- R245. Signed divide; division by zero gives all ones. -/
  | div (b a d : BitVec 5)
  /-- R245. Unsigned divide. -/
  | divu (b a d : BitVec 5)
  /-- R245. Signed remainder. -/
  | rem (b a d : BitVec 5)
  /-- R245. Unsigned remainder. -/
  | remu (b a d : BitVec 5)
  /-- R245. Add immediate, 32-bit result, sign-extended. -/
  | addiw (i : BitVec 12) (a d : BitVec 5)
  /-- R245. 32-bit shift left by an immediate. -/
  | slliw (h a d : BitVec 5)
  /-- R245. 32-bit logical shift right by an immediate. -/
  | srliw (h a d : BitVec 5)
  /-- R245. 32-bit arithmetic shift right by an immediate. -/
  | sraiw (h a d : BitVec 5)
  /-- R245. 32-bit add. -/
  | addw (b a d : BitVec 5)
  /-- R245. 32-bit subtract. -/
  | subw (b a d : BitVec 5)
  /-- R245. 32-bit shift left. -/
  | sllw (b a d : BitVec 5)
  /-- R245. 32-bit logical shift right. -/
  | srlw (b a d : BitVec 5)
  /-- R245. 32-bit arithmetic shift right. -/
  | sraw (b a d : BitVec 5)
  /-- R245. 32-bit multiply. -/
  | mulw (b a d : BitVec 5)
  /-- R245. 32-bit signed divide. -/
  | divw (b a d : BitVec 5)
  /-- R245. 32-bit unsigned divide. -/
  | divuw (b a d : BitVec 5)
  /-- R245. 32-bit signed remainder. -/
  | remw (b a d : BitVec 5)
  /-- R245. 32-bit unsigned remainder. -/
  | remuw (b a d : BitVec 5)
  /-- R178. Orders the thread's scalar accesses across every space. -/
  | fence (i : BitVec 12) (a d : BitVec 5)
  /-- R245. Makes the context's earlier stores visible to its own fetch. -/
  | fenceI (i : BitVec 12) (a d : BitVec 5)
  /-- R265. Load-reserved: sets a reservation on the aligned 64-byte block at the home. -/
  | lr (q r : BitVec 1) (a : BitVec 5) (w : BitVec 1) (d : BitVec 5)
  /-- R265. Store-conditional: writes and returns 0 only while the reservation holds. -/
  | sc (q r : BitVec 1) (b a : BitVec 5) (w : BitVec 1) (d : BitVec 5)
  /-- R264. Atomic swap at the home. -/
  | amoswap (q r : BitVec 1) (b a : BitVec 5) (w : BitVec 1) (d : BitVec 5)
  /-- R264. Atomic add at the home. -/
  | amoadd (q r : BitVec 1) (b a : BitVec 5) (w : BitVec 1) (d : BitVec 5)
  /-- R264. Atomic exclusive or at the home. -/
  | amoxor (q r : BitVec 1) (b a : BitVec 5) (w : BitVec 1) (d : BitVec 5)
  /-- R264. Atomic and at the home. -/
  | amoand (q r : BitVec 1) (b a : BitVec 5) (w : BitVec 1) (d : BitVec 5)
  /-- R264. Atomic or at the home. -/
  | amoor (q r : BitVec 1) (b a : BitVec 5) (w : BitVec 1) (d : BitVec 5)
  /-- R264. Atomic signed min at the home. -/
  | amomin (q r : BitVec 1) (b a : BitVec 5) (w : BitVec 1) (d : BitVec 5)
  /-- R264. Atomic signed max at the home. -/
  | amomax (q r : BitVec 1) (b a : BitVec 5) (w : BitVec 1) (d : BitVec 5)
  /-- R264. Atomic unsigned min at the home. -/
  | amominu (q r : BitVec 1) (b a : BitVec 5) (w : BitVec 1) (d : BitVec 5)
  /-- R264. Atomic unsigned max at the home. -/
  | amomaxu (q r : BitVec 1) (b a : BitVec 5) (w : BitVec 1) (d : BitVec 5)
  /-- R369. In U mode, traps to the runtime, which serves the call named in a7; in S mode, an illegal encoding. -/
  | ecall
  /-- R367. Breakpoint trap. -/
  | ebreak
  /-- R194. Returns from a trap to sepc; illegal in U mode. -/
  | sret
  /-- R246. Executes as a no-op. -/
  | wfi
  /-- R266. Reads and writes a CSR. -/
  | csrrw (c : BitVec 12) (a d : BitVec 5)
  /-- R266. Reads a CSR and sets bits. -/
  | csrrs (c : BitVec 12) (a d : BitVec 5)
  /-- R266. Reads a CSR and clears bits. -/
  | csrrc (c : BitVec 12) (a d : BitVec 5)
  /-- R266. Reads a CSR and writes an immediate. -/
  | csrrwi (c : BitVec 12) (u d : BitVec 5)
  /-- R266. Reads a CSR and sets bits from an immediate. -/
  | csrrsi (c : BitVec 12) (u d : BitVec 5)
  /-- R266. Reads a CSR and clears bits from an immediate. -/
  | csrrci (c : BitVec 12) (u d : BitVec 5)
  deriving DecidableEq, Repr

end Sys2Proof
end

