-- ==== Sys2Proof/WellFormed.lean ====
section
/-! DEFINITION. The checks that a word's fields must pass beyond the fixed bits of its row (R235: a
register field restricted to even numbers or to a range is reserved outside that set). A step
that is no word has no such check. -/

namespace Sys2Proof

/-- An even chain register. -/
def even (r : BitVec 5) : Bool := r.toNat % 2 == 0

/-- An even operand tile. -/
def evenTile (r : BitVec 3) : Bool := r.toNat % 2 == 0

/-- The count register `n` of `vsmine` is one of the pointers a0 to a3 that mask `k` selects (R250). -/
def pointerOf (k : BitVec 4) (n : BitVec 5) : Bool :=
  (k.getLsbD 0 && n == 10) || (k.getLsbD 1 && n == 11) || (k.getLsbD 2 && n == 12) || (k.getLsbD 3 && n == 13)

/-- The static checks: R239 (`vcvt`), R240 (`vsplit`, `vretype`), R241 (`fdrain`), R242 with R321, R326 to
R328, R330, R331 (MT words), R244 (`vsetl`, `vroute`), R250 (`vsmine`). -/
def Instr.wf : Instr → Bool
  | .powerOnReset .. => true
  | .bootlenWrite .. => true
  | .bootImageFetched .. => true
  | .firmwareBringup .. => true
  | .alarmTrip .. => true
  | .keyStoreEraseDone .. => true
  | .thermalPolicy .. => true
  | .identity .. => true
  | .attest .. => true
  | .status .. => true
  | .logRead .. => true
  | .counters .. => true
  | .firmware .. => true
  | .partition .. => true
  | .step .. => true
  | .alarm .. => true
  | .provision .. => true
  | .supplyRampDone .. => true
  | .relockEnd .. => true
  | .flitReceive .. => true
  | .linkRetrain .. => true
  | .linkDown .. => true
  | .fabricFrameReceive .. => true
  | .fabricReplayTimeout .. => true
  | .qctlEnSet .. => true
  | .qctlEnClear .. => true
  | .qctlResume .. => true
  | .qctlHold .. => true
  | .qctlDisc .. => true
  | .qdbellWrite .. => true
  | .qaconsWrite .. => true
  | .qwdogWrite .. => true
  | .queueRegisterWrite .. => true
  | .slotConsume .. => true
  | .answerEmit .. => true
  | .nop .. => true
  | .pcreate .. => true
  | .pdestroy .. => true
  | .qbind .. => true
  | .pdrain .. => true
  | .rcreate .. => true
  | .grun .. => true
  | .wdog .. => true
  | .cksave .. => true
  | .ckload .. => true
  | .fstep .. => true
  | .qfence .. => true
  | .rretire .. => true
  | .reservedOpcode .. => true
  | .checkpointQuiesced .. => true
  | .checkpointCopyComplete .. => true
  | .checkpointCxlError .. => true
  | .watchdogExpiry .. => true
  | .drainOperationsSettled .. => true
  | .regionRetire .. => true
  | .locusWaitingSubmissionEnter .. => true
  | .tenderPriorityRise .. => true
  | .tenderStart .. => true
  | .tenderArrival .. => true
  | .bidReceive .. => true
  | .bidWindowExpiry .. => true
  | .escalatedTenderReceive .. => true
  | .hubTenderResult .. => true
  | .awardArrival .. => true
  | .withdrawalReceive .. => true
  | .commitTimeout .. => true
  | .commitReceive .. => true
  | .preemptionStopTimeout .. => true
  | .convoyBoundaryStop .. => true
  | .saveOwedWritesDelivered .. => true
  | .saveImageWritten .. => true
  | .protectionExpiry .. => true
  | .retireComplete .. => true
  | .completionObjectUpdate .. => true
  | .predDecrement .. => true
  | .cancellingDecrement .. => true
  | .killEnd .. => true
  | .regionWatchdogExpiry .. => true
  | .poolEmptyRestart .. => true
  | .poolEmptyWaitExpiry .. => true
  | .rayPermitResume .. => true
  | .rayPermitWaitExpiry .. => true
  | .pageFetchComplete .. => true
  | .rangedInvalidationComplete .. => true
  | .planeAllocate .. => true
  | .planeFree .. => true
  | .pin .. => true
  | .unpin .. => true
  | .invalidate .. => true
  | .engineOperationComplete .. => true
  | .writeQueueApply .. => true
  | .releaseComplete .. => true
  | .lrReservationExpiry .. => true
  | .barrierResume .. => true
  | .tokenArrival .. => true
  | .illegalEncoding .. => true
  | .linkTrainingComplete .. => true
  | .dieTlbHoldEnd .. => true
  | .phaseCountersCleared .. => true
  | .debuggerResume .. => true
  | .bootSourceNoAnswer .. => true
  | .powerFail .. => true
  | .hostMemoryWrite .. => true
  | .memoryError .. => true
  | .vaddVv .. => true
  | .vaddVx .. => true
  | .vaddVi .. => true
  | .vaddVs .. => true
  | .vaddRay .. => true
  | .vsubVv .. => true
  | .vsubVx .. => true
  | .vsubVi .. => true
  | .vsubVs .. => true
  | .vsubRay .. => true
  | .vrsubVx .. => true
  | .vrsubVi .. => true
  | .vrsubVs .. => true
  | .vrsubRay .. => true
  | .vmulVv .. => true
  | .vmulVx .. => true
  | .vmulVs .. => true
  | .vmulRay .. => true
  | .vmulhVv .. => true
  | .vmulhVx .. => true
  | .vmulhVs .. => true
  | .vmulhRay .. => true
  | .vdivVv .. => true
  | .vdivVx .. => true
  | .vdivVs .. => true
  | .vdivRay .. => true
  | .vremVv .. => true
  | .vremVx .. => true
  | .vremVs .. => true
  | .vremRay .. => true
  | .vminVv .. => true
  | .vminVx .. => true
  | .vminVi .. => true
  | .vminVs .. => true
  | .vminRay .. => true
  | .vmaxVv .. => true
  | .vmaxVx .. => true
  | .vmaxVi .. => true
  | .vmaxVs .. => true
  | .vmaxRay .. => true
  | .vandVv .. => true
  | .vandVx .. => true
  | .vandVi .. => true
  | .vandVs .. => true
  | .vandRay .. => true
  | .vorVv .. => true
  | .vorVx .. => true
  | .vorVi .. => true
  | .vorVs .. => true
  | .vorRay .. => true
  | .vxorVv .. => true
  | .vxorVx .. => true
  | .vxorVi .. => true
  | .vxorVs .. => true
  | .vxorRay .. => true
  | .vsllVv .. => true
  | .vsllVx .. => true
  | .vsllVi .. => true
  | .vsllVs .. => true
  | .vsllRay .. => true
  | .vsrlVv .. => true
  | .vsrlVx .. => true
  | .vsrlVi .. => true
  | .vsrlVs .. => true
  | .vsrlRay .. => true
  | .vsraVv .. => true
  | .vsraVx .. => true
  | .vsraVi .. => true
  | .vsraVs .. => true
  | .vsraRay .. => true
  | .vfmaVv .. => true
  | .vfmaVx .. => true
  | .vfmaVs .. => true
  | .vfmaRay .. => true
  | .vfmsVv .. => true
  | .vfmsVx .. => true
  | .vfmsVs .. => true
  | .vfmsRay .. => true
  | .vfnmaVv .. => true
  | .vfnmaVx .. => true
  | .vfnmaVs .. => true
  | .vfnmaRay .. => true
  | .vsaddVv .. => true
  | .vsaddVx .. => true
  | .vsaddVi .. => true
  | .vsaddVs .. => true
  | .vsaddRay .. => true
  | .vssubVv .. => true
  | .vssubVx .. => true
  | .vssubVi .. => true
  | .vssubVs .. => true
  | .vssubRay .. => true
  | .vceq .. => true
  | .vcne .. => true
  | .vcequ .. => true
  | .vcneu .. => true
  | .vclt .. => true
  | .vcnlt .. => true
  | .vcltu .. => true
  | .vcnltu .. => true
  | .vcle .. => true
  | .vcnle .. => true
  | .vcleu .. => true
  | .vcnleu .. => true
  | .vcun .. => true
  | .vcord .. => true
  | .vcsn .. => true
  | .vcnsn .. => true
  | .vsel .. => true
  | .vmvVx .. => true
  | .vmvVi .. => true
  | .vmvX .. => true
  | .vmvVv .. => true
  | .vcvt _ _ t _ d => 1 ≤ t.toNat && t.toNat ≤ 14 && (t != 14 || even d)
  | .vcvts _ _ t _ d => 1 ≤ t.toNat && t.toNat ≤ 14 && (t != 14 || even d)
  | .vneg .. => true
  | .vabs .. => true
  | .vsqrt .. => true
  | .vrcpe .. => true
  | .vrsqe .. => true
  | .vexp2 .. => true
  | .vlog2 .. => true
  | .vclz .. => true
  | .vpopc .. => true
  | .vbrev .. => true
  | .vclass .. => true
  | .vredsum .. => true
  | .vredosum .. => true
  | .vredmin .. => true
  | .vredmax .. => true
  | .vredand .. => true
  | .vredor .. => true
  | .vredxor .. => true
  | .vargmax .. => true
  | .vcompress .. => true
  | .vexpand .. => true
  | .vpcnt .. => true
  | .vconfl .. => true
  | .vslideup .. => true
  | .vslidedn .. => true
  | .vperm .. => true
  | .viota .. => true
  | .vsscanAdd .. => true
  | .vsscanMin .. => true
  | .vsscanMax .. => true
  | .vsscanOr .. => true
  | .vtopk .. => true
  | .vinter .. => true
  | .vsortk .. => true
  | .pand .. => true
  | .por .. => true
  | .pxor .. => true
  | .pnot .. => true
  | .pmov .. => true
  | .pcnt .. => true
  | .pfirst .. => true
  | .vldUnit .. => true
  | .vldStrided .. => true
  | .vldIndexed .. => true
  | .vldffUnit .. => true
  | .vldffStrided .. => true
  | .vldffIndexed .. => true
  | .vstUnit .. => true
  | .vstStrided .. => true
  | .vstIndexed .. => true
  | .vstn .. => true
  | .vrsAddUnit .. => true
  | .vrsAddIndexed .. => true
  | .vrsMinUnit .. => true
  | .vrsMinIndexed .. => true
  | .vrsMaxUnit .. => true
  | .vrsMaxIndexed .. => true
  | .vrsOrUnit .. => true
  | .vrsOrIndexed .. => true
  | .vspill .. => true
  | .vfill .. => true
  | .vprep .. => true
  | .vtrimh .. => true
  | .vtrimt .. => true
  | .vsplit _ a d => d != a
  | .vjoin .. => true
  | .vshare .. => true
  | .vretype t _ _ => 1 ≤ t.toNat && t.toNat ≤ 14
  | .vlen .. => true
  | .vfree .. => true
  | .vnorm .. => true
  | .fclaim .. => true
  | .frel .. => true
  | .fins .. => true
  | .fprobe .. => true
  | .fdel .. => true
  | .faccAdd .. => true
  | .faccMin .. => true
  | .faccMax .. => true
  | .faccOr .. => true
  | .faccCount .. => true
  | .fdrain b d => d != b
  | .mset _ _ f _ => f != 7
  | .mld .. => true
  | .mldff .. => true
  | .mst .. => true
  | .mzero t => t.toNat ≤ 10
  | .mop c b _ f => c.toNat ≤ 2 && f.toNat ≤ 5 && (c != 2 || ((f == 0 || f == 1 || f == 5) && evenTile b))
  | .msca c _ _ => c.toNat ≤ 1
  | .mrowIn _ a f d => f != 7 && (f != 4 || (even a && evenTile d))
  | .mrowOut _ a f d => f != 7 && (f != 4 || (evenTile a && even d))
  | .maccOut _ _ _ f _ => f.toNat ≤ 3 || f == 6
  | .mgang .. => true
  | .mbcast .. => true
  | .vsmine _ k n => n != 0 && !(pointerOf k n)
  | .vsetl t _ _ => 1 ≤ t.toNat && t.toNat ≤ 14
  | .vcollapse .. => true
  | .fenceSv .. => true
  | .fenceVs .. => true
  | .fenceVv .. => true
  | .rel .. => true
  | .acq .. => true
  | .ccopy .. => true
  | .cwait .. => true
  | .ctest .. => true
  | .rayOpen .. => true
  | .rayClose .. => true
  | .rayGrant .. => true
  | .vsend .. => true
  | .rayRecv .. => true
  | .vroute b _ _ => b.toNat ≤ 29
  | .barInit .. => true
  | .barArrive .. => true
  | .barWait .. => true
  | .collAdd .. => true
  | .collMin .. => true
  | .collMax .. => true
  | .collOr .. => true
  | .tsub .. => true
  | .tdone .. => true
  | .tyield .. => true
  | .twait .. => true
  | .tkill .. => true
  | .qseg .. => true
  | .qctx .. => true
  | .tlbdrop .. => true
  | .cflush .. => true
  | .evfrz .. => true
  | .syHint .. => true
  | .bfx .. => true
  | .bfxs .. => true
  | .bfi .. => true
  | .lui .. => true
  | .auipc .. => true
  | .jal .. => true
  | .jalr .. => true
  | .beq .. => true
  | .bne .. => true
  | .blt .. => true
  | .bge .. => true
  | .bltu .. => true
  | .bgeu .. => true
  | .lb .. => true
  | .lh .. => true
  | .lw .. => true
  | .ld .. => true
  | .lbu .. => true
  | .lhu .. => true
  | .lwu .. => true
  | .sb .. => true
  | .sh .. => true
  | .sw .. => true
  | .sd .. => true
  | .addi .. => true
  | .slti .. => true
  | .sltiu .. => true
  | .xori .. => true
  | .ori .. => true
  | .andi .. => true
  | .slli .. => true
  | .srli .. => true
  | .srai .. => true
  | .add .. => true
  | .sub .. => true
  | .sll .. => true
  | .slt .. => true
  | .sltu .. => true
  | .xor .. => true
  | .srl .. => true
  | .sra .. => true
  | .or .. => true
  | .and .. => true
  | .mul .. => true
  | .mulh .. => true
  | .mulhsu .. => true
  | .mulhu .. => true
  | .div .. => true
  | .divu .. => true
  | .rem .. => true
  | .remu .. => true
  | .addiw .. => true
  | .slliw .. => true
  | .srliw .. => true
  | .sraiw .. => true
  | .addw .. => true
  | .subw .. => true
  | .sllw .. => true
  | .srlw .. => true
  | .sraw .. => true
  | .mulw .. => true
  | .divw .. => true
  | .divuw .. => true
  | .remw .. => true
  | .remuw .. => true
  | .fence .. => true
  | .fenceI .. => true
  | .lr .. => true
  | .sc .. => true
  | .amoswap .. => true
  | .amoadd .. => true
  | .amoxor .. => true
  | .amoand .. => true
  | .amoor .. => true
  | .amomin .. => true
  | .amomax .. => true
  | .amominu .. => true
  | .amomaxu .. => true
  | .ecall .. => true
  | .ebreak .. => true
  | .sret .. => true
  | .wfi .. => true
  | .csrrw .. => true
  | .csrrs .. => true
  | .csrrc .. => true
  | .csrrwi .. => true
  | .csrrsi .. => true
  | .csrrci .. => true

end Sys2Proof
end

