-- ==== Sys2Proof/Decode.lean ====
section
/-! DEFINITION. Decoding a word (R234 to R246), the encoder written from the same tables, and the
shapes in which the host lays a row's bits out. Decoding is total; it rejects by name. -/

namespace Sys2Proof

/-- Why a run of bytes is no instruction. -/
inductive Reject where
  /-- Fewer than four bytes. -/
  | short
  /-- A major opcode that R234 does not decode, bits [1:0] other than 0b11 included. -/
  | major
  /-- A selector value that no map lists, or a nonzero field that a row marks 0 (R235). -/
  | reserved
  /-- A register or number field outside the set its row allows (R235). -/
  | restricted
  deriving DecidableEq, Repr

/-- A word's fields pass the checks of its row, or the word is rejected. -/
def check (i : Instr) : Except Reject Instr := if i.wf then .ok i else .error .restricted

/-- VX words (R236 to R239). -/
noncomputable def decodeVx (f5 : BitVec 5) (c m : BitVec 1) (b a : BitVec 5) (f3 : BitVec 3) (d : BitVec 5) : Except Reject Instr :=
  match f5 with
  | 0#5 =>
      if f3 = 0#3 then check (.vaddVv c m b a d) else
      if f3 = 1#3 then check (.vaddVx c m b a d) else
      if f3 = 2#3 then check (.vaddVi c m b a d) else
      if c = 0#1 ∧ f3 = 4#3 then check (.vaddVs m b a d) else
      if f3 = 7#3 then check (.vaddRay c m b a d) else
      .error .reserved
  | 1#5 =>
      if f3 = 0#3 then check (.vsubVv c m b a d) else
      if f3 = 1#3 then check (.vsubVx c m b a d) else
      if f3 = 2#3 then check (.vsubVi c m b a d) else
      if c = 0#1 ∧ f3 = 4#3 then check (.vsubVs m b a d) else
      if f3 = 7#3 then check (.vsubRay c m b a d) else
      .error .reserved
  | 2#5 =>
      if f3 = 1#3 then check (.vrsubVx c m b a d) else
      if f3 = 2#3 then check (.vrsubVi c m b a d) else
      if c = 0#1 ∧ f3 = 4#3 then check (.vrsubVs m b a d) else
      if f3 = 7#3 then check (.vrsubRay c m b a d) else
      .error .reserved
  | 3#5 =>
      if f3 = 0#3 then check (.vmulVv c m b a d) else
      if f3 = 1#3 then check (.vmulVx c m b a d) else
      if c = 0#1 ∧ f3 = 4#3 then check (.vmulVs m b a d) else
      if f3 = 7#3 then check (.vmulRay c m b a d) else
      .error .reserved
  | 4#5 =>
      if f3 = 0#3 then check (.vmulhVv c m b a d) else
      if f3 = 1#3 then check (.vmulhVx c m b a d) else
      if c = 0#1 ∧ f3 = 4#3 then check (.vmulhVs m b a d) else
      if f3 = 7#3 then check (.vmulhRay c m b a d) else
      .error .reserved
  | 5#5 =>
      if f3 = 0#3 then check (.vdivVv c m b a d) else
      if f3 = 1#3 then check (.vdivVx c m b a d) else
      if c = 0#1 ∧ f3 = 4#3 then check (.vdivVs m b a d) else
      if f3 = 7#3 then check (.vdivRay c m b a d) else
      .error .reserved
  | 6#5 =>
      if f3 = 0#3 then check (.vremVv c m b a d) else
      if f3 = 1#3 then check (.vremVx c m b a d) else
      if c = 0#1 ∧ f3 = 4#3 then check (.vremVs m b a d) else
      if f3 = 7#3 then check (.vremRay c m b a d) else
      .error .reserved
  | 7#5 =>
      if f3 = 0#3 then check (.vminVv c m b a d) else
      if f3 = 1#3 then check (.vminVx c m b a d) else
      if f3 = 2#3 then check (.vminVi c m b a d) else
      if c = 0#1 ∧ f3 = 4#3 then check (.vminVs m b a d) else
      if f3 = 7#3 then check (.vminRay c m b a d) else
      .error .reserved
  | 8#5 =>
      if f3 = 0#3 then check (.vmaxVv c m b a d) else
      if f3 = 1#3 then check (.vmaxVx c m b a d) else
      if f3 = 2#3 then check (.vmaxVi c m b a d) else
      if c = 0#1 ∧ f3 = 4#3 then check (.vmaxVs m b a d) else
      if f3 = 7#3 then check (.vmaxRay c m b a d) else
      .error .reserved
  | 9#5 =>
      if f3 = 0#3 then check (.vandVv c m b a d) else
      if f3 = 1#3 then check (.vandVx c m b a d) else
      if f3 = 2#3 then check (.vandVi c m b a d) else
      if c = 0#1 ∧ f3 = 4#3 then check (.vandVs m b a d) else
      if f3 = 7#3 then check (.vandRay c m b a d) else
      .error .reserved
  | 10#5 =>
      if f3 = 0#3 then check (.vorVv c m b a d) else
      if f3 = 1#3 then check (.vorVx c m b a d) else
      if f3 = 2#3 then check (.vorVi c m b a d) else
      if c = 0#1 ∧ f3 = 4#3 then check (.vorVs m b a d) else
      if f3 = 7#3 then check (.vorRay c m b a d) else
      .error .reserved
  | 11#5 =>
      if f3 = 0#3 then check (.vxorVv c m b a d) else
      if f3 = 1#3 then check (.vxorVx c m b a d) else
      if f3 = 2#3 then check (.vxorVi c m b a d) else
      if c = 0#1 ∧ f3 = 4#3 then check (.vxorVs m b a d) else
      if f3 = 7#3 then check (.vxorRay c m b a d) else
      .error .reserved
  | 12#5 =>
      if f3 = 0#3 then check (.vsllVv c m b a d) else
      if f3 = 1#3 then check (.vsllVx c m b a d) else
      if f3 = 2#3 then check (.vsllVi c m b a d) else
      if c = 0#1 ∧ f3 = 4#3 then check (.vsllVs m b a d) else
      if f3 = 7#3 then check (.vsllRay c m b a d) else
      .error .reserved
  | 13#5 =>
      if f3 = 0#3 then check (.vsrlVv c m b a d) else
      if f3 = 1#3 then check (.vsrlVx c m b a d) else
      if f3 = 2#3 then check (.vsrlVi c m b a d) else
      if c = 0#1 ∧ f3 = 4#3 then check (.vsrlVs m b a d) else
      if f3 = 7#3 then check (.vsrlRay c m b a d) else
      .error .reserved
  | 14#5 =>
      if f3 = 0#3 then check (.vsraVv c m b a d) else
      if f3 = 1#3 then check (.vsraVx c m b a d) else
      if f3 = 2#3 then check (.vsraVi c m b a d) else
      if c = 0#1 ∧ f3 = 4#3 then check (.vsraVs m b a d) else
      if f3 = 7#3 then check (.vsraRay c m b a d) else
      .error .reserved
  | 15#5 =>
      if f3 = 0#3 then check (.vfmaVv c m b a d) else
      if f3 = 1#3 then check (.vfmaVx c m b a d) else
      if c = 0#1 ∧ f3 = 4#3 then check (.vfmaVs m b a d) else
      if f3 = 7#3 then check (.vfmaRay c m b a d) else
      .error .reserved
  | 16#5 =>
      if f3 = 0#3 then check (.vfmsVv c m b a d) else
      if f3 = 1#3 then check (.vfmsVx c m b a d) else
      if c = 0#1 ∧ f3 = 4#3 then check (.vfmsVs m b a d) else
      if f3 = 7#3 then check (.vfmsRay c m b a d) else
      .error .reserved
  | 17#5 =>
      if f3 = 0#3 then check (.vfnmaVv c m b a d) else
      if f3 = 1#3 then check (.vfnmaVx c m b a d) else
      if c = 0#1 ∧ f3 = 4#3 then check (.vfnmaVs m b a d) else
      if f3 = 7#3 then check (.vfnmaRay c m b a d) else
      .error .reserved
  | 18#5 =>
      if f3 = 0#3 then check (.vsaddVv c m b a d) else
      if f3 = 1#3 then check (.vsaddVx c m b a d) else
      if f3 = 2#3 then check (.vsaddVi c m b a d) else
      if c = 0#1 ∧ f3 = 4#3 then check (.vsaddVs m b a d) else
      if f3 = 7#3 then check (.vsaddRay c m b a d) else
      .error .reserved
  | 19#5 =>
      if f3 = 0#3 then check (.vssubVv c m b a d) else
      if f3 = 1#3 then check (.vssubVx c m b a d) else
      if f3 = 2#3 then check (.vssubVi c m b a d) else
      if c = 0#1 ∧ f3 = 4#3 then check (.vssubVs m b a d) else
      if f3 = 7#3 then check (.vssubRay c m b a d) else
      .error .reserved
  | 20#5 =>
      if f3 = 3#3 ∧ d.extractLsb' 3 2 = 0#2 then check (.vceq c m b a (d.extractLsb' 0 3)) else
      if f3 = 3#3 ∧ d.extractLsb' 3 2 = 1#2 then check (.vcne c m b a (d.extractLsb' 0 3)) else
      if f3 = 3#3 ∧ d.extractLsb' 3 2 = 2#2 then check (.vcequ c m b a (d.extractLsb' 0 3)) else
      if f3 = 3#3 ∧ d.extractLsb' 3 2 = 3#2 then check (.vcneu c m b a (d.extractLsb' 0 3)) else
      .error .reserved
  | 21#5 =>
      if f3 = 3#3 ∧ d.extractLsb' 3 2 = 0#2 then check (.vclt c m b a (d.extractLsb' 0 3)) else
      if f3 = 3#3 ∧ d.extractLsb' 3 2 = 1#2 then check (.vcnlt c m b a (d.extractLsb' 0 3)) else
      if f3 = 3#3 ∧ d.extractLsb' 3 2 = 2#2 then check (.vcltu c m b a (d.extractLsb' 0 3)) else
      if f3 = 3#3 ∧ d.extractLsb' 3 2 = 3#2 then check (.vcnltu c m b a (d.extractLsb' 0 3)) else
      .error .reserved
  | 22#5 =>
      if f3 = 3#3 ∧ d.extractLsb' 3 2 = 0#2 then check (.vcle c m b a (d.extractLsb' 0 3)) else
      if f3 = 3#3 ∧ d.extractLsb' 3 2 = 1#2 then check (.vcnle c m b a (d.extractLsb' 0 3)) else
      if f3 = 3#3 ∧ d.extractLsb' 3 2 = 2#2 then check (.vcleu c m b a (d.extractLsb' 0 3)) else
      if f3 = 3#3 ∧ d.extractLsb' 3 2 = 3#2 then check (.vcnleu c m b a (d.extractLsb' 0 3)) else
      .error .reserved
  | 23#5 =>
      if f3 = 3#3 ∧ d.extractLsb' 3 2 = 0#2 then check (.vcun c m b a (d.extractLsb' 0 3)) else
      if f3 = 3#3 ∧ d.extractLsb' 3 2 = 1#2 then check (.vcord c m b a (d.extractLsb' 0 3)) else
      if b = 0#5 ∧ f3 = 3#3 ∧ d.extractLsb' 3 2 = 2#2 then check (.vcsn c m a (d.extractLsb' 0 3)) else
      if b = 0#5 ∧ f3 = 3#3 ∧ d.extractLsb' 3 2 = 3#2 then check (.vcnsn c m a (d.extractLsb' 0 3)) else
      .error .reserved
  | 24#5 =>
      if m = 1#1 ∧ f3 = 0#3 then check (.vsel c b a d) else
      if b = 0#5 ∧ f3 = 1#3 then check (.vmvVx c m a d) else
      if b = 0#5 ∧ f3 = 2#3 then check (.vmvVi c m a d) else
      if c = 0#1 ∧ m = 1#1 ∧ b = 0#5 ∧ f3 = 4#3 then check (.vmvX a d) else
      if b = 0#5 ∧ f3 = 6#3 then check (.vmvVv c m a d) else
      .error .reserved
  | 25#5 =>
      if b.extractLsb' 4 1 = 0#1 ∧ f3 = 5#3 then check (.vcvt c m (b.extractLsb' 0 4) a d) else
      if b.extractLsb' 4 1 = 1#1 ∧ f3 = 5#3 then check (.vcvts c m (b.extractLsb' 0 4) a d) else
      .error .reserved
  | 26#5 =>
      if b = 0#5 ∧ f3 = 6#3 then check (.vneg c m a d) else
      if b = 1#5 ∧ f3 = 6#3 then check (.vabs c m a d) else
      if b = 2#5 ∧ f3 = 6#3 then check (.vsqrt c m a d) else
      if b = 3#5 ∧ f3 = 6#3 then check (.vrcpe c m a d) else
      if b = 4#5 ∧ f3 = 6#3 then check (.vrsqe c m a d) else
      if b = 5#5 ∧ f3 = 6#3 then check (.vexp2 c m a d) else
      if b = 6#5 ∧ f3 = 6#3 then check (.vlog2 c m a d) else
      if b = 7#5 ∧ f3 = 6#3 then check (.vclz c m a d) else
      if b = 8#5 ∧ f3 = 6#3 then check (.vpopc c m a d) else
      if b = 9#5 ∧ f3 = 6#3 then check (.vbrev c m a d) else
      if b = 10#5 ∧ f3 = 6#3 then check (.vclass c m a d) else
      .error .reserved
  | 27#5 =>
      if c = 0#1 ∧ f3 = 0#3 then check (.vredsum m b a d) else
      if c = 0#1 ∧ f3 = 1#3 then check (.vredosum m b a d) else
      if c = 0#1 ∧ f3 = 2#3 then check (.vredmin m b a d) else
      if c = 0#1 ∧ f3 = 3#3 then check (.vredmax m b a d) else
      if c = 0#1 ∧ f3 = 4#3 then check (.vredand m b a d) else
      if c = 0#1 ∧ f3 = 5#3 then check (.vredor m b a d) else
      if c = 0#1 ∧ f3 = 6#3 then check (.vredxor m b a d) else
      if c = 0#1 ∧ a = 0#5 ∧ f3 = 7#3 then check (.vargmax m b d) else
      .error .reserved
  | 28#5 =>
      if c = 0#1 ∧ m = 0#1 ∧ a = 0#5 ∧ f3 = 0#3 then check (.vcompress b d) else
      if c = 0#1 ∧ m = 0#1 ∧ a = 0#5 ∧ f3 = 1#3 then check (.vexpand b d) else
      if c = 0#1 ∧ b = 0#5 ∧ a.extractLsb' 3 2 = 0#2 ∧ f3 = 2#3 then check (.vpcnt m (a.extractLsb' 0 3) d) else
      if c = 0#1 ∧ b = 0#5 ∧ f3 = 3#3 then check (.vconfl m a d) else
      if c = 0#1 ∧ f3 = 4#3 then check (.vslideup m b a d) else
      if c = 0#1 ∧ f3 = 5#3 then check (.vslidedn m b a d) else
      if c = 0#1 ∧ f3 = 6#3 then check (.vperm m b a d) else
      if c = 0#1 ∧ b = 0#5 ∧ f3 = 7#3 then check (.viota m a d) else
      .error .reserved
  | 29#5 =>
      if c = 0#1 ∧ m = 1#1 ∧ a = 0#5 ∧ f3 = 0#3 then check (.vsscanAdd b d) else
      if c = 0#1 ∧ m = 1#1 ∧ a = 0#5 ∧ f3 = 1#3 then check (.vsscanMin b d) else
      if c = 0#1 ∧ m = 1#1 ∧ a = 0#5 ∧ f3 = 2#3 then check (.vsscanMax b d) else
      if c = 0#1 ∧ m = 1#1 ∧ a = 0#5 ∧ f3 = 3#3 then check (.vsscanOr b d) else
      .error .reserved
  | 30#5 =>
      if c = 0#1 ∧ f3 = 0#3 then check (.vtopk m b a d) else
      if c = 0#1 ∧ f3 = 1#3 then check (.vinter m b a d) else
      if c = 0#1 ∧ b = 0#5 ∧ f3 = 2#3 then check (.vsortk m a d) else
      .error .reserved
  | 31#5 =>
      if m = 1#1 ∧ b.extractLsb' 3 2 = 0#2 ∧ a.extractLsb' 3 2 = 0#2 ∧ f3 = 0#3 ∧ d.extractLsb' 3 2 = 0#2 then check (.pand c (b.extractLsb' 0 3) (a.extractLsb' 0 3) (d.extractLsb' 0 3)) else
      if m = 1#1 ∧ b.extractLsb' 3 2 = 0#2 ∧ a.extractLsb' 3 2 = 0#2 ∧ f3 = 1#3 ∧ d.extractLsb' 3 2 = 0#2 then check (.por c (b.extractLsb' 0 3) (a.extractLsb' 0 3) (d.extractLsb' 0 3)) else
      if m = 1#1 ∧ b.extractLsb' 3 2 = 0#2 ∧ a.extractLsb' 3 2 = 0#2 ∧ f3 = 2#3 ∧ d.extractLsb' 3 2 = 0#2 then check (.pxor c (b.extractLsb' 0 3) (a.extractLsb' 0 3) (d.extractLsb' 0 3)) else
      if m = 1#1 ∧ b = 0#5 ∧ a.extractLsb' 3 2 = 0#2 ∧ f3 = 3#3 ∧ d.extractLsb' 3 2 = 0#2 then check (.pnot c (a.extractLsb' 0 3) (d.extractLsb' 0 3)) else
      if m = 1#1 ∧ b = 0#5 ∧ a.extractLsb' 3 2 = 0#2 ∧ f3 = 4#3 ∧ d.extractLsb' 3 2 = 0#2 then check (.pmov c (a.extractLsb' 0 3) (d.extractLsb' 0 3)) else
      if m = 1#1 ∧ b = 0#5 ∧ a.extractLsb' 3 2 = 0#2 ∧ f3 = 5#3 then check (.pcnt c (a.extractLsb' 0 3) d) else
      if m = 1#1 ∧ b = 0#5 ∧ a.extractLsb' 3 2 = 0#2 ∧ f3 = 6#3 then check (.pfirst c (a.extractLsb' 0 3) d) else
      .error .reserved
  | _ => .error .reserved

/-- VM words (R240, R241). -/
noncomputable def decodeVm (f5 : BitVec 5) (c m : BitVec 1) (b a : BitVec 5) (f3 : BitVec 3) (d : BitVec 5) : Except Reject Instr :=
  match f5 with
  | 0#5 =>
      if b = 0#5 ∧ f3 = 0#3 then check (.vldUnit c m a d) else
      if f3 = 1#3 then check (.vldStrided c m b a d) else
      if c = 0#1 ∧ f3 = 2#3 then check (.vldIndexed m b a d) else
      .error .reserved
  | 1#5 =>
      if b = 0#5 ∧ f3 = 0#3 then check (.vldffUnit c m a d) else
      if f3 = 1#3 then check (.vldffStrided c m b a d) else
      if c = 0#1 ∧ f3 = 2#3 then check (.vldffIndexed m b a d) else
      .error .reserved
  | 2#5 =>
      if b = 0#5 ∧ f3 = 0#3 then check (.vstUnit c m a d) else
      if f3 = 1#3 then check (.vstStrided c m b a d) else
      if c = 0#1 ∧ f3 = 2#3 then check (.vstIndexed m b a d) else
      .error .reserved
  | 3#5 =>
      if f3 = 0#3 then check (.vstn c m b a d) else
      .error .reserved
  | 4#5 =>
      if b = 0#5 ∧ f3 = 0#3 then check (.vrsAddUnit c m a d) else
      if f3 = 2#3 then check (.vrsAddIndexed c m b a d) else
      .error .reserved
  | 5#5 =>
      if b = 0#5 ∧ f3 = 0#3 then check (.vrsMinUnit c m a d) else
      if f3 = 2#3 then check (.vrsMinIndexed c m b a d) else
      .error .reserved
  | 6#5 =>
      if b = 0#5 ∧ f3 = 0#3 then check (.vrsMaxUnit c m a d) else
      if f3 = 2#3 then check (.vrsMaxIndexed c m b a d) else
      .error .reserved
  | 7#5 =>
      if b = 0#5 ∧ f3 = 0#3 then check (.vrsOrUnit c m a d) else
      if f3 = 2#3 then check (.vrsOrIndexed c m b a d) else
      .error .reserved
  | 8#5 =>
      if c = 0#1 ∧ m = 1#1 ∧ b = 0#5 ∧ f3 = 0#3 then check (.vspill a d) else
      .error .reserved
  | 9#5 =>
      if c = 0#1 ∧ m = 1#1 ∧ b = 0#5 ∧ f3 = 0#3 then check (.vfill a d) else
      .error .reserved
  | 10#5 =>
      if c = 0#1 ∧ m = 1#1 ∧ f3 = 0#3 then check (.vprep b a d) else
      .error .reserved
  | 11#5 =>
      if c = 0#1 ∧ m = 1#1 ∧ f3 = 0#3 then check (.vtrimh b a d) else
      .error .reserved
  | 12#5 =>
      if c = 0#1 ∧ m = 1#1 ∧ f3 = 0#3 then check (.vtrimt b a d) else
      .error .reserved
  | 13#5 =>
      if c = 0#1 ∧ m = 1#1 ∧ f3 = 0#3 then check (.vsplit b a d) else
      .error .reserved
  | 14#5 =>
      if c = 0#1 ∧ m = 1#1 ∧ f3 = 0#3 then check (.vjoin b a d) else
      .error .reserved
  | 15#5 =>
      if c = 0#1 ∧ m = 1#1 ∧ b = 0#5 ∧ f3 = 0#3 then check (.vshare a d) else
      .error .reserved
  | 16#5 =>
      if c = 0#1 ∧ m = 1#1 ∧ f3 = 0#3 then check (.vretype b a d) else
      .error .reserved
  | 17#5 =>
      if c = 0#1 ∧ m = 1#1 ∧ b = 0#5 ∧ f3 = 0#3 then check (.vlen a d) else
      .error .reserved
  | 18#5 =>
      if c = 0#1 ∧ m = 1#1 ∧ b = 0#5 ∧ a = 0#5 ∧ f3 = 0#3 then check (.vfree d) else
      .error .reserved
  | 19#5 =>
      if c = 0#1 ∧ m = 1#1 ∧ b = 0#5 ∧ f3 = 0#3 then check (.vnorm a d) else
      .error .reserved
  | 20#5 =>
      if c = 0#1 ∧ m = 1#1 ∧ f3 = 0#3 then check (.fclaim b a d) else
      .error .reserved
  | 21#5 =>
      if c = 0#1 ∧ m = 1#1 ∧ b = 0#5 ∧ a = 0#5 ∧ f3 = 0#3 ∧ d = 0#5 then check (.frel) else
      .error .reserved
  | 22#5 =>
      if c = 0#1 ∧ f3 = 0#3 ∧ d.extractLsb' 3 2 = 0#2 ∧ d.extractLsb' 0 1 = 0#1 then check (.fins m b a (d.extractLsb' 1 2)) else
      .error .reserved
  | 23#5 =>
      if c = 0#1 ∧ f3.extractLsb' 2 1 = 0#1 then check (.fprobe m b a (f3.extractLsb' 0 2) d) else
      .error .reserved
  | 24#5 =>
      if c = 0#1 ∧ b = 0#5 ∧ f3 = 0#3 ∧ d.extractLsb' 3 2 = 0#2 ∧ d.extractLsb' 0 1 = 0#1 then check (.fdel m a (d.extractLsb' 1 2)) else
      .error .reserved
  | 25#5 =>
      if c = 0#1 ∧ b.extractLsb' 3 2 = 0#2 ∧ b.extractLsb' 0 1 = 0#1 ∧ f3 = 0#3 then check (.faccAdd m (b.extractLsb' 1 2) a d) else
      if c = 0#1 ∧ b.extractLsb' 3 2 = 0#2 ∧ b.extractLsb' 0 1 = 0#1 ∧ f3 = 1#3 then check (.faccMin m (b.extractLsb' 1 2) a d) else
      if c = 0#1 ∧ b.extractLsb' 3 2 = 0#2 ∧ b.extractLsb' 0 1 = 0#1 ∧ f3 = 2#3 then check (.faccMax m (b.extractLsb' 1 2) a d) else
      if c = 0#1 ∧ b.extractLsb' 3 2 = 0#2 ∧ b.extractLsb' 0 1 = 0#1 ∧ f3 = 3#3 then check (.faccOr m (b.extractLsb' 1 2) a d) else
      if c = 0#1 ∧ b.extractLsb' 3 2 = 0#2 ∧ b.extractLsb' 0 1 = 0#1 ∧ f3 = 4#3 then check (.faccCount m (b.extractLsb' 1 2) a d) else
      .error .reserved
  | 26#5 =>
      if c = 0#1 ∧ m = 1#1 ∧ a = 0#5 ∧ f3 = 0#3 then check (.fdrain b d) else
      .error .reserved
  | _ => .error .reserved

/-- MT words (R242). -/
noncomputable def decodeMt (f4 : BitVec 4) (z : BitVec 3) (b a : BitVec 5) (f3 : BitVec 3) (d : BitVec 5) : Except Reject Instr :=
  match f4 with
  | 0#4 =>
      if z = 0#3 ∧ d.extractLsb' 3 2 = 0#2 then check (.mset b a f3 (d.extractLsb' 0 3)) else
      .error .reserved
  | 1#4 =>
      if z = 0#3 ∧ f3 = 0#3 ∧ d.extractLsb' 3 2 = 0#2 then check (.mld b a (d.extractLsb' 0 3)) else
      .error .reserved
  | 2#4 =>
      if z = 0#3 ∧ f3 = 0#3 ∧ d.extractLsb' 3 2 = 0#2 then check (.mldff b a (d.extractLsb' 0 3)) else
      .error .reserved
  | 3#4 =>
      if z = 0#3 ∧ f3 = 0#3 ∧ d.extractLsb' 3 2 = 0#2 then check (.mst b a (d.extractLsb' 0 3)) else
      .error .reserved
  | 4#4 =>
      if z = 0#3 ∧ b = 0#5 ∧ a = 0#5 ∧ f3 = 0#3 then check (.mzero d) else
      .error .reserved
  | 5#4 =>
      if b.extractLsb' 3 2 = 0#2 ∧ a.extractLsb' 3 2 = 0#2 ∧ d = 0#5 then check (.mop z (b.extractLsb' 0 3) (a.extractLsb' 0 3) f3) else
      .error .reserved
  | 6#4 =>
      if f3 = 0#3 ∧ d = 0#5 then check (.msca z b a) else
      .error .reserved
  | 7#4 =>
      if z = 0#3 ∧ d.extractLsb' 3 2 = 0#2 then check (.mrowIn b a f3 (d.extractLsb' 0 3)) else
      if z = 1#3 ∧ a.extractLsb' 3 2 = 0#2 then check (.mrowOut b (a.extractLsb' 0 3) f3 d) else
      .error .reserved
  | 8#4 =>
      if z.extractLsb' 1 2 = 0#2 then check (.maccOut (z.extractLsb' 0 1) b a f3 d) else
      .error .reserved
  | 9#4 =>
      if z = 0#3 ∧ b = 0#5 ∧ f3 = 0#3 then check (.mgang a d) else
      .error .reserved
  | 10#4 =>
      if z = 0#3 ∧ a.extractLsb' 3 2 = 0#2 ∧ f3 = 0#3 ∧ d = 0#5 then check (.mbcast b (a.extractLsb' 0 3)) else
      .error .reserved
  | _ => .error .reserved

/-- SY words (R243, R244, R246). -/
noncomputable def decodeSy (f7 : BitVec 7) (b a : BitVec 5) (f3 : BitVec 3) (d : BitVec 5) : Except Reject Instr :=
  match f3 with
  | 0#3 =>
      if a.extractLsb' 4 1 = 0#1 then check (.vsmine (f7 ++ b : BitVec 12) (a.extractLsb' 0 4) d) else
      .error .reserved
  | 1#3 =>
      if f7 = 0#7 then check (.vsetl b a d) else
      if f7 = 1#7 ∧ b = 0#5 then check (.vcollapse a d) else
      if f7 = 2#7 ∧ b.extractLsb' 2 3 = 0#3 ∧ a = 0#5 ∧ d = 0#5 then check (.fenceSv (b.extractLsb' 0 2)) else
      if f7 = 3#7 ∧ b.extractLsb' 2 3 = 0#3 ∧ a = 0#5 ∧ d = 0#5 then check (.fenceVs (b.extractLsb' 0 2)) else
      if f7 = 4#7 ∧ b.extractLsb' 2 3 = 0#3 ∧ a = 0#5 ∧ d = 0#5 then check (.fenceVv (b.extractLsb' 0 2)) else
      if f7 = 5#7 ∧ b.extractLsb' 2 3 = 0#3 ∧ a = 0#5 ∧ d = 0#5 then check (.rel (b.extractLsb' 0 2)) else
      if f7 = 6#7 ∧ b.extractLsb' 2 3 = 0#3 ∧ a = 0#5 ∧ d = 0#5 then check (.acq (b.extractLsb' 0 2)) else
      .error .reserved
  | 2#3 =>
      if f7 = 0#7 then check (.ccopy b a d) else
      if f7 = 1#7 then check (.cwait b a d) else
      if f7 = 2#7 then check (.ctest b a d) else
      .error .reserved
  | 3#3 =>
      if f7 = 0#7 then check (.rayOpen b a d) else
      if f7 = 1#7 ∧ b = 0#5 ∧ d = 0#5 then check (.rayClose a) else
      if f7 = 2#7 ∧ d = 0#5 then check (.rayGrant b a) else
      if f7 = 3#7 ∧ d = 0#5 then check (.vsend b a) else
      if f7 = 4#7 ∧ b = 0#5 then check (.rayRecv a d) else
      if f7 = 5#7 then check (.vroute b a d) else
      .error .reserved
  | 4#3 =>
      if f7 = 0#7 then check (.barInit b a d) else
      if f7 = 1#7 ∧ b = 0#5 ∧ d = 0#5 then check (.barArrive a) else
      if f7 = 2#7 ∧ b = 0#5 then check (.barWait a d) else
      if f7 = 4#7 then check (.collAdd b a d) else
      if f7 = 5#7 then check (.collMin b a d) else
      if f7 = 6#7 then check (.collMax b a d) else
      if f7 = 7#7 then check (.collOr b a d) else
      .error .reserved
  | 5#3 =>
      if f7 = 0#7 ∧ b = 0#5 then check (.tsub a d) else
      if f7 = 1#7 ∧ b = 0#5 ∧ a = 0#5 ∧ d = 0#5 then check (.tdone) else
      if f7 = 2#7 ∧ b = 0#5 ∧ a = 0#5 ∧ d = 0#5 then check (.tyield) else
      if f7 = 3#7 then check (.twait b a d) else
      if f7 = 4#7 ∧ b = 0#5 then check (.tkill a d) else
      .error .reserved
  | 6#3 =>
      if f7 = 0#7 ∧ b = 0#5 then check (.qseg a d) else
      if f7 = 1#7 ∧ b = 0#5 then check (.qctx a d) else
      if f7 = 2#7 ∧ d = 0#5 then check (.tlbdrop b a) else
      if f7 = 3#7 ∧ d = 0#5 then check (.cflush b a) else
      if f7 = 4#7 ∧ b = 0#5 ∧ d = 0#5 then check (.evfrz a) else
      if f7.extractLsb' 6 1 = 1#1 ∧ d = 0#5 then check (.syHint (f7.extractLsb' 0 6) b a) else
      .error .reserved
  | 7#3 =>
      if f7.extractLsb' 0 2 = 0#2 then check (.bfx (f7.extractLsb' 2 5) b a d) else
      if f7.extractLsb' 0 2 = 1#2 then check (.bfxs (f7.extractLsb' 2 5) b a d) else
      if f7.extractLsb' 0 2 = 2#2 then check (.bfi (f7.extractLsb' 2 5) b a d) else
      .error .reserved

/-- Atomics (R245, R264, R265). -/
noncomputable def decodeAmo (f5 : BitVec 5) (c m : BitVec 1) (b a : BitVec 5) (f3 : BitVec 3) (d : BitVec 5) : Except Reject Instr :=
  match f5 with
  | 0#5 =>
      if f3.extractLsb' 1 2 = 1#2 then check (.amoadd c m b a (f3.extractLsb' 0 1) d) else
      .error .reserved
  | 1#5 =>
      if f3.extractLsb' 1 2 = 1#2 then check (.amoswap c m b a (f3.extractLsb' 0 1) d) else
      .error .reserved
  | 2#5 =>
      if b = 0#5 ∧ f3.extractLsb' 1 2 = 1#2 then check (.lr c m a (f3.extractLsb' 0 1) d) else
      .error .reserved
  | 3#5 =>
      if f3.extractLsb' 1 2 = 1#2 then check (.sc c m b a (f3.extractLsb' 0 1) d) else
      .error .reserved
  | 4#5 =>
      if f3.extractLsb' 1 2 = 1#2 then check (.amoxor c m b a (f3.extractLsb' 0 1) d) else
      .error .reserved
  | 8#5 =>
      if f3.extractLsb' 1 2 = 1#2 then check (.amoor c m b a (f3.extractLsb' 0 1) d) else
      .error .reserved
  | 12#5 =>
      if f3.extractLsb' 1 2 = 1#2 then check (.amoand c m b a (f3.extractLsb' 0 1) d) else
      .error .reserved
  | 16#5 =>
      if f3.extractLsb' 1 2 = 1#2 then check (.amomin c m b a (f3.extractLsb' 0 1) d) else
      .error .reserved
  | 20#5 =>
      if f3.extractLsb' 1 2 = 1#2 then check (.amomax c m b a (f3.extractLsb' 0 1) d) else
      .error .reserved
  | 24#5 =>
      if f3.extractLsb' 1 2 = 1#2 then check (.amominu c m b a (f3.extractLsb' 0 1) d) else
      .error .reserved
  | 28#5 =>
      if f3.extractLsb' 1 2 = 1#2 then check (.amomaxu c m b a (f3.extractLsb' 0 1) d) else
      .error .reserved
  | _ => .error .reserved

/-- `lui`. -/
noncomputable def decodeLui (f7 : BitVec 7) (b a : BitVec 5) (f3 : BitVec 3) (d : BitVec 5) : Except Reject Instr :=
  check (.lui (f7 ++ b ++ a ++ f3 : BitVec 20) d)

/-- `auipc`. -/
noncomputable def decodeAuipc (f7 : BitVec 7) (b a : BitVec 5) (f3 : BitVec 3) (d : BitVec 5) : Except Reject Instr :=
  check (.auipc (f7 ++ b ++ a ++ f3 : BitVec 20) d)

/-- `jal`. -/
noncomputable def decodeJal (f7 : BitVec 7) (b a : BitVec 5) (f3 : BitVec 3) (d : BitVec 5) : Except Reject Instr :=
  check (.jal (f7 ++ b ++ a ++ f3 : BitVec 20) d)

/-- `jalr`. -/
noncomputable def decodeJalr (f7 : BitVec 7) (b a : BitVec 5) (f3 : BitVec 3) (d : BitVec 5) : Except Reject Instr :=
  match f3 with
  | 0#3 => check (.jalr (f7 ++ b : BitVec 12) a d)
  | _ => .error .reserved

/-- Branches. -/
noncomputable def decodeBranch (f7 : BitVec 7) (b a : BitVec 5) (f3 : BitVec 3) (d : BitVec 5) : Except Reject Instr :=
  match f3 with
  | 0#3 => check (.beq f7 b a d)
  | 1#3 => check (.bne f7 b a d)
  | 4#3 => check (.blt f7 b a d)
  | 5#3 => check (.bge f7 b a d)
  | 6#3 => check (.bltu f7 b a d)
  | 7#3 => check (.bgeu f7 b a d)
  | _ => .error .reserved

/-- Scalar loads. -/
noncomputable def decodeLoad (f7 : BitVec 7) (b a : BitVec 5) (f3 : BitVec 3) (d : BitVec 5) : Except Reject Instr :=
  match f3 with
  | 0#3 => check (.lb (f7 ++ b : BitVec 12) a d)
  | 1#3 => check (.lh (f7 ++ b : BitVec 12) a d)
  | 2#3 => check (.lw (f7 ++ b : BitVec 12) a d)
  | 3#3 => check (.ld (f7 ++ b : BitVec 12) a d)
  | 4#3 => check (.lbu (f7 ++ b : BitVec 12) a d)
  | 5#3 => check (.lhu (f7 ++ b : BitVec 12) a d)
  | 6#3 => check (.lwu (f7 ++ b : BitVec 12) a d)
  | _ => .error .reserved

/-- Scalar stores. -/
noncomputable def decodeStore (f7 : BitVec 7) (b a : BitVec 5) (f3 : BitVec 3) (d : BitVec 5) : Except Reject Instr :=
  match f3 with
  | 0#3 => check (.sb f7 b a d)
  | 1#3 => check (.sh f7 b a d)
  | 2#3 => check (.sw f7 b a d)
  | 3#3 => check (.sd f7 b a d)
  | _ => .error .reserved

/-- OP-IMM words. -/
noncomputable def decodeOpImm (f7 : BitVec 7) (b a : BitVec 5) (f3 : BitVec 3) (d : BitVec 5) : Except Reject Instr :=
  match f3 with
  | 0#3 => check (.addi (f7 ++ b : BitVec 12) a d)
  | 1#3 =>
      if f7.extractLsb' 1 6 = 0#6 then check (.slli ((f7.extractLsb' 0 1) ++ b : BitVec 6) a d) else
      .error .reserved
  | 2#3 => check (.slti (f7 ++ b : BitVec 12) a d)
  | 3#3 => check (.sltiu (f7 ++ b : BitVec 12) a d)
  | 4#3 => check (.xori (f7 ++ b : BitVec 12) a d)
  | 5#3 =>
      if f7.extractLsb' 1 6 = 0#6 then check (.srli ((f7.extractLsb' 0 1) ++ b : BitVec 6) a d) else
      if f7.extractLsb' 1 6 = 16#6 then check (.srai ((f7.extractLsb' 0 1) ++ b : BitVec 6) a d) else
      .error .reserved
  | 6#3 => check (.ori (f7 ++ b : BitVec 12) a d)
  | 7#3 => check (.andi (f7 ++ b : BitVec 12) a d)

/-- OP words. -/
noncomputable def decodeOp (f7 : BitVec 7) (b a : BitVec 5) (f3 : BitVec 3) (d : BitVec 5) : Except Reject Instr :=
  match f3 with
  | 0#3 =>
      if f7 = 0#7 then check (.add b a d) else
      if f7 = 32#7 then check (.sub b a d) else
      if f7 = 1#7 then check (.mul b a d) else
      .error .reserved
  | 1#3 =>
      if f7 = 0#7 then check (.sll b a d) else
      if f7 = 1#7 then check (.mulh b a d) else
      .error .reserved
  | 2#3 =>
      if f7 = 0#7 then check (.slt b a d) else
      if f7 = 1#7 then check (.mulhsu b a d) else
      .error .reserved
  | 3#3 =>
      if f7 = 0#7 then check (.sltu b a d) else
      if f7 = 1#7 then check (.mulhu b a d) else
      .error .reserved
  | 4#3 =>
      if f7 = 0#7 then check (.xor b a d) else
      if f7 = 1#7 then check (.div b a d) else
      .error .reserved
  | 5#3 =>
      if f7 = 0#7 then check (.srl b a d) else
      if f7 = 32#7 then check (.sra b a d) else
      if f7 = 1#7 then check (.divu b a d) else
      .error .reserved
  | 6#3 =>
      if f7 = 0#7 then check (.or b a d) else
      if f7 = 1#7 then check (.rem b a d) else
      .error .reserved
  | 7#3 =>
      if f7 = 0#7 then check (.and b a d) else
      if f7 = 1#7 then check (.remu b a d) else
      .error .reserved

/-- OP-IMM-32 words. -/
noncomputable def decodeOpImm32 (f7 : BitVec 7) (b a : BitVec 5) (f3 : BitVec 3) (d : BitVec 5) : Except Reject Instr :=
  match f3 with
  | 0#3 => check (.addiw (f7 ++ b : BitVec 12) a d)
  | 1#3 =>
      if f7 = 0#7 then check (.slliw b a d) else
      .error .reserved
  | 5#3 =>
      if f7 = 0#7 then check (.srliw b a d) else
      if f7 = 32#7 then check (.sraiw b a d) else
      .error .reserved
  | _ => .error .reserved

/-- OP-32 words. -/
noncomputable def decodeOp32 (f7 : BitVec 7) (b a : BitVec 5) (f3 : BitVec 3) (d : BitVec 5) : Except Reject Instr :=
  match f3 with
  | 0#3 =>
      if f7 = 0#7 then check (.addw b a d) else
      if f7 = 32#7 then check (.subw b a d) else
      if f7 = 1#7 then check (.mulw b a d) else
      .error .reserved
  | 1#3 =>
      if f7 = 0#7 then check (.sllw b a d) else
      .error .reserved
  | 4#3 =>
      if f7 = 1#7 then check (.divw b a d) else
      .error .reserved
  | 5#3 =>
      if f7 = 0#7 then check (.srlw b a d) else
      if f7 = 32#7 then check (.sraw b a d) else
      if f7 = 1#7 then check (.divuw b a d) else
      .error .reserved
  | 6#3 =>
      if f7 = 1#7 then check (.remw b a d) else
      .error .reserved
  | 7#3 =>
      if f7 = 1#7 then check (.remuw b a d) else
      .error .reserved
  | _ => .error .reserved

/-- `fence` and `fence.i`. -/
noncomputable def decodeMiscMem (f7 : BitVec 7) (b a : BitVec 5) (f3 : BitVec 3) (d : BitVec 5) : Except Reject Instr :=
  match f3 with
  | 0#3 => check (.fence (f7 ++ b : BitVec 12) a d)
  | 1#3 => check (.fenceI (f7 ++ b : BitVec 12) a d)
  | _ => .error .reserved

/-- `ecall`, `ebreak`, `sret`, `wfi` and the CSR words. -/
noncomputable def decodeSystem (f7 : BitVec 7) (b a : BitVec 5) (f3 : BitVec 3) (d : BitVec 5) : Except Reject Instr :=
  match f3 with
  | 0#3 =>
      if f7 = 0#7 ∧ b = 0#5 ∧ a = 0#5 ∧ d = 0#5 then check (.ecall) else
      if f7 = 0#7 ∧ b = 1#5 ∧ a = 0#5 ∧ d = 0#5 then check (.ebreak) else
      if f7 = 8#7 ∧ b = 2#5 ∧ a = 0#5 ∧ d = 0#5 then check (.sret) else
      if f7 = 8#7 ∧ b = 5#5 ∧ a = 0#5 ∧ d = 0#5 then check (.wfi) else
      .error .reserved
  | 1#3 => check (.csrrw (f7 ++ b : BitVec 12) a d)
  | 2#3 => check (.csrrs (f7 ++ b : BitVec 12) a d)
  | 3#3 => check (.csrrc (f7 ++ b : BitVec 12) a d)
  | 5#3 => check (.csrrwi (f7 ++ b : BitVec 12) a d)
  | 6#3 => check (.csrrsi (f7 ++ b : BitVec 12) a d)
  | 7#3 => check (.csrrci (f7 ++ b : BitVec 12) a d)
  | _ => .error .reserved

/-- A word by its parts: [31:25], [24:20], [19:15], [14:12], [11:7] and the major opcode (R234). -/
noncomputable def decodeParts (f7 : BitVec 7) (b a : BitVec 5) (f3 : BitVec 3) (d : BitVec 5) (op : BitVec 7) : Except Reject Instr :=
  match op with
  | 11#7 => decodeVx (f7.extractLsb' 2 5) (f7.extractLsb' 1 1) (f7.extractLsb' 0 1) b a f3 d
  | 43#7 => decodeVm (f7.extractLsb' 2 5) (f7.extractLsb' 1 1) (f7.extractLsb' 0 1) b a f3 d
  | 91#7 => decodeMt (f7.extractLsb' 3 4) (f7.extractLsb' 0 3) b a f3 d
  | 123#7 => decodeSy f7 b a f3 d
  | 47#7 => decodeAmo (f7.extractLsb' 2 5) (f7.extractLsb' 1 1) (f7.extractLsb' 0 1) b a f3 d
  | 55#7 => decodeLui f7 b a f3 d
  | 23#7 => decodeAuipc f7 b a f3 d
  | 111#7 => decodeJal f7 b a f3 d
  | 103#7 => decodeJalr f7 b a f3 d
  | 99#7 => decodeBranch f7 b a f3 d
  | 3#7 => decodeLoad f7 b a f3 d
  | 35#7 => decodeStore f7 b a f3 d
  | 19#7 => decodeOpImm f7 b a f3 d
  | 51#7 => decodeOp f7 b a f3 d
  | 27#7 => decodeOpImm32 f7 b a f3 d
  | 59#7 => decodeOp32 f7 b a f3 d
  | 15#7 => decodeMiscMem f7 b a f3 d
  | 115#7 => decodeSystem f7 b a f3 d
  | _ => .error .major

/-- The instruction a word encodes. -/
noncomputable def decode (w : Word32) : Except Reject Instr :=
  decodeParts (w.extractLsb' 25 7) (w.extractLsb' 20 5) (w.extractLsb' 15 5) (w.extractLsb' 12 3) (w.extractLsb' 7 5)
    (w.extractLsb' 0 7)

/-- Four bytes as a word, the first lowest (R185: little-endian). -/
def wordOfBytes (b0 b1 b2 b3 : Byte) : Word32 := b3 ++ b2 ++ b1 ++ b0

/-- The instruction at the head of a run of bytes, and the bytes after it. -/
noncomputable def decodeBytes : List Byte → Except Reject (Instr × List Byte)
  | b0 :: b1 :: b2 :: b3 :: rest =>
    match decode (wordOfBytes b0 b1 b2 b3) with
    | .ok i => .ok (i, rest)
    | .error r => .error r
  | _ => .error .short

/-! ## The encoder -/

/-- A word from its parts. -/
def pack (f7 : BitVec 7) (b a : BitVec 5) (f3 : BitVec 3) (d : BitVec 5) (op : BitVec 7) : Word32 :=
  f7 ++ b ++ a ++ f3 ++ d ++ op

/-- Fields of 1, 2 bits, the first highest. -/
def cat12 (x0 : BitVec 1) (x1 : BitVec 2) : BitVec 3 := x0 ++ x1

/-- Fields of 2, 1 bits, the first highest. -/
def cat21 (x0 : BitVec 2) (x1 : BitVec 1) : BitVec 3 := x0 ++ x1

/-- Fields of 1, 4 bits, the first highest. -/
def cat14 (x0 : BitVec 1) (x1 : BitVec 4) : BitVec 5 := x0 ++ x1

/-- Fields of 2, 2, 1 bits, the first highest. -/
def cat221 (x0 : BitVec 2) (x1 : BitVec 2) (x2 : BitVec 1) : BitVec 5 := x0 ++ x1 ++ x2

/-- Fields of 2, 3 bits, the first highest. -/
def cat23 (x0 : BitVec 2) (x1 : BitVec 3) : BitVec 5 := x0 ++ x1

/-- Fields of 3, 2 bits, the first highest. -/
def cat32 (x0 : BitVec 3) (x1 : BitVec 2) : BitVec 5 := x0 ++ x1

/-- Fields of 1, 6 bits, the first highest. -/
def cat16 (x0 : BitVec 1) (x1 : BitVec 6) : BitVec 7 := x0 ++ x1

/-- Fields of 4, 3 bits, the first highest. -/
def cat43 (x0 : BitVec 4) (x1 : BitVec 3) : BitVec 7 := x0 ++ x1

/-- Fields of 5, 1, 1 bits, the first highest. -/
def cat511 (x0 : BitVec 5) (x1 : BitVec 1) (x2 : BitVec 1) : BitVec 7 := x0 ++ x1 ++ x2

/-- Fields of 5, 2 bits, the first highest. -/
def cat52 (x0 : BitVec 5) (x1 : BitVec 2) : BitVec 7 := x0 ++ x1

/-- Fields of 6, 1 bits, the first highest. -/
def cat61 (x0 : BitVec 6) (x1 : BitVec 1) : BitVec 7 := x0 ++ x1

/-- The word of an instruction, from the encodings of R236 to R246; a step that is no word has none. -/
def encode : Instr → Option Word32
  | .powerOnReset .. => none
  | .bootlenWrite .. => none
  | .bootImageFetched .. => none
  | .firmwareBringup .. => none
  | .alarmTrip .. => none
  | .keyStoreEraseDone .. => none
  | .thermalPolicy .. => none
  | .identity .. => none
  | .attest .. => none
  | .status .. => none
  | .logRead .. => none
  | .counters .. => none
  | .firmware .. => none
  | .partition .. => none
  | .step .. => none
  | .alarm .. => none
  | .provision .. => none
  | .supplyRampDone .. => none
  | .relockEnd .. => none
  | .flitReceive .. => none
  | .linkRetrain .. => none
  | .linkDown .. => none
  | .fabricFrameReceive .. => none
  | .fabricReplayTimeout .. => none
  | .qctlEnSet .. => none
  | .qctlEnClear .. => none
  | .qctlResume .. => none
  | .qctlHold .. => none
  | .qctlDisc .. => none
  | .qdbellWrite .. => none
  | .qaconsWrite .. => none
  | .qwdogWrite .. => none
  | .queueRegisterWrite .. => none
  | .slotConsume .. => none
  | .answerEmit .. => none
  | .nop .. => none
  | .pcreate .. => none
  | .pdestroy .. => none
  | .qbind .. => none
  | .pdrain .. => none
  | .rcreate .. => none
  | .grun .. => none
  | .wdog .. => none
  | .cksave .. => none
  | .ckload .. => none
  | .fstep .. => none
  | .qfence .. => none
  | .rretire .. => none
  | .reservedOpcode .. => none
  | .checkpointQuiesced .. => none
  | .checkpointCopyComplete .. => none
  | .checkpointCxlError .. => none
  | .watchdogExpiry .. => none
  | .drainOperationsSettled .. => none
  | .regionRetire .. => none
  | .locusWaitingSubmissionEnter .. => none
  | .tenderPriorityRise .. => none
  | .tenderStart .. => none
  | .tenderArrival .. => none
  | .bidReceive .. => none
  | .bidWindowExpiry .. => none
  | .escalatedTenderReceive .. => none
  | .hubTenderResult .. => none
  | .awardArrival .. => none
  | .withdrawalReceive .. => none
  | .commitTimeout .. => none
  | .commitReceive .. => none
  | .preemptionStopTimeout .. => none
  | .convoyBoundaryStop .. => none
  | .saveOwedWritesDelivered .. => none
  | .saveImageWritten .. => none
  | .protectionExpiry .. => none
  | .retireComplete .. => none
  | .completionObjectUpdate .. => none
  | .predDecrement .. => none
  | .cancellingDecrement .. => none
  | .killEnd .. => none
  | .regionWatchdogExpiry .. => none
  | .poolEmptyRestart .. => none
  | .poolEmptyWaitExpiry .. => none
  | .rayPermitResume .. => none
  | .rayPermitWaitExpiry .. => none
  | .pageFetchComplete .. => none
  | .rangedInvalidationComplete .. => none
  | .planeAllocate .. => none
  | .planeFree .. => none
  | .pin .. => none
  | .unpin .. => none
  | .invalidate .. => none
  | .engineOperationComplete .. => none
  | .writeQueueApply .. => none
  | .releaseComplete .. => none
  | .lrReservationExpiry .. => none
  | .barrierResume .. => none
  | .tokenArrival .. => none
  | .illegalEncoding .. => none
  | .linkTrainingComplete .. => none
  | .dieTlbHoldEnd .. => none
  | .phaseCountersCleared .. => none
  | .debuggerResume .. => none
  | .bootSourceNoAnswer .. => none
  | .powerFail .. => none
  | .hostMemoryWrite .. => none
  | .memoryError .. => none
  | .vaddVv c m b a d => some (pack (cat511 0#5 c m) b a 0#3 d 11#7)
  | .vaddVx c m b a d => some (pack (cat511 0#5 c m) b a 1#3 d 11#7)
  | .vaddVi c m b i d => some (pack (cat511 0#5 c m) b i 2#3 d 11#7)
  | .vaddVs m b a d => some (pack (cat511 0#5 0#1 m) b a 4#3 d 11#7)
  | .vaddRay c m b a d => some (pack (cat511 0#5 c m) b a 7#3 d 11#7)
  | .vsubVv c m b a d => some (pack (cat511 1#5 c m) b a 0#3 d 11#7)
  | .vsubVx c m b a d => some (pack (cat511 1#5 c m) b a 1#3 d 11#7)
  | .vsubVi c m b i d => some (pack (cat511 1#5 c m) b i 2#3 d 11#7)
  | .vsubVs m b a d => some (pack (cat511 1#5 0#1 m) b a 4#3 d 11#7)
  | .vsubRay c m b a d => some (pack (cat511 1#5 c m) b a 7#3 d 11#7)
  | .vrsubVx c m b a d => some (pack (cat511 2#5 c m) b a 1#3 d 11#7)
  | .vrsubVi c m b i d => some (pack (cat511 2#5 c m) b i 2#3 d 11#7)
  | .vrsubVs m b a d => some (pack (cat511 2#5 0#1 m) b a 4#3 d 11#7)
  | .vrsubRay c m b a d => some (pack (cat511 2#5 c m) b a 7#3 d 11#7)
  | .vmulVv c m b a d => some (pack (cat511 3#5 c m) b a 0#3 d 11#7)
  | .vmulVx c m b a d => some (pack (cat511 3#5 c m) b a 1#3 d 11#7)
  | .vmulVs m b a d => some (pack (cat511 3#5 0#1 m) b a 4#3 d 11#7)
  | .vmulRay c m b a d => some (pack (cat511 3#5 c m) b a 7#3 d 11#7)
  | .vmulhVv c m b a d => some (pack (cat511 4#5 c m) b a 0#3 d 11#7)
  | .vmulhVx c m b a d => some (pack (cat511 4#5 c m) b a 1#3 d 11#7)
  | .vmulhVs m b a d => some (pack (cat511 4#5 0#1 m) b a 4#3 d 11#7)
  | .vmulhRay c m b a d => some (pack (cat511 4#5 c m) b a 7#3 d 11#7)
  | .vdivVv c m b a d => some (pack (cat511 5#5 c m) b a 0#3 d 11#7)
  | .vdivVx c m b a d => some (pack (cat511 5#5 c m) b a 1#3 d 11#7)
  | .vdivVs m b a d => some (pack (cat511 5#5 0#1 m) b a 4#3 d 11#7)
  | .vdivRay c m b a d => some (pack (cat511 5#5 c m) b a 7#3 d 11#7)
  | .vremVv c m b a d => some (pack (cat511 6#5 c m) b a 0#3 d 11#7)
  | .vremVx c m b a d => some (pack (cat511 6#5 c m) b a 1#3 d 11#7)
  | .vremVs m b a d => some (pack (cat511 6#5 0#1 m) b a 4#3 d 11#7)
  | .vremRay c m b a d => some (pack (cat511 6#5 c m) b a 7#3 d 11#7)
  | .vminVv c m b a d => some (pack (cat511 7#5 c m) b a 0#3 d 11#7)
  | .vminVx c m b a d => some (pack (cat511 7#5 c m) b a 1#3 d 11#7)
  | .vminVi c m b i d => some (pack (cat511 7#5 c m) b i 2#3 d 11#7)
  | .vminVs m b a d => some (pack (cat511 7#5 0#1 m) b a 4#3 d 11#7)
  | .vminRay c m b a d => some (pack (cat511 7#5 c m) b a 7#3 d 11#7)
  | .vmaxVv c m b a d => some (pack (cat511 8#5 c m) b a 0#3 d 11#7)
  | .vmaxVx c m b a d => some (pack (cat511 8#5 c m) b a 1#3 d 11#7)
  | .vmaxVi c m b i d => some (pack (cat511 8#5 c m) b i 2#3 d 11#7)
  | .vmaxVs m b a d => some (pack (cat511 8#5 0#1 m) b a 4#3 d 11#7)
  | .vmaxRay c m b a d => some (pack (cat511 8#5 c m) b a 7#3 d 11#7)
  | .vandVv c m b a d => some (pack (cat511 9#5 c m) b a 0#3 d 11#7)
  | .vandVx c m b a d => some (pack (cat511 9#5 c m) b a 1#3 d 11#7)
  | .vandVi c m b i d => some (pack (cat511 9#5 c m) b i 2#3 d 11#7)
  | .vandVs m b a d => some (pack (cat511 9#5 0#1 m) b a 4#3 d 11#7)
  | .vandRay c m b a d => some (pack (cat511 9#5 c m) b a 7#3 d 11#7)
  | .vorVv c m b a d => some (pack (cat511 10#5 c m) b a 0#3 d 11#7)
  | .vorVx c m b a d => some (pack (cat511 10#5 c m) b a 1#3 d 11#7)
  | .vorVi c m b i d => some (pack (cat511 10#5 c m) b i 2#3 d 11#7)
  | .vorVs m b a d => some (pack (cat511 10#5 0#1 m) b a 4#3 d 11#7)
  | .vorRay c m b a d => some (pack (cat511 10#5 c m) b a 7#3 d 11#7)
  | .vxorVv c m b a d => some (pack (cat511 11#5 c m) b a 0#3 d 11#7)
  | .vxorVx c m b a d => some (pack (cat511 11#5 c m) b a 1#3 d 11#7)
  | .vxorVi c m b i d => some (pack (cat511 11#5 c m) b i 2#3 d 11#7)
  | .vxorVs m b a d => some (pack (cat511 11#5 0#1 m) b a 4#3 d 11#7)
  | .vxorRay c m b a d => some (pack (cat511 11#5 c m) b a 7#3 d 11#7)
  | .vsllVv c m b a d => some (pack (cat511 12#5 c m) b a 0#3 d 11#7)
  | .vsllVx c m b a d => some (pack (cat511 12#5 c m) b a 1#3 d 11#7)
  | .vsllVi c m b i d => some (pack (cat511 12#5 c m) b i 2#3 d 11#7)
  | .vsllVs m b a d => some (pack (cat511 12#5 0#1 m) b a 4#3 d 11#7)
  | .vsllRay c m b a d => some (pack (cat511 12#5 c m) b a 7#3 d 11#7)
  | .vsrlVv c m b a d => some (pack (cat511 13#5 c m) b a 0#3 d 11#7)
  | .vsrlVx c m b a d => some (pack (cat511 13#5 c m) b a 1#3 d 11#7)
  | .vsrlVi c m b i d => some (pack (cat511 13#5 c m) b i 2#3 d 11#7)
  | .vsrlVs m b a d => some (pack (cat511 13#5 0#1 m) b a 4#3 d 11#7)
  | .vsrlRay c m b a d => some (pack (cat511 13#5 c m) b a 7#3 d 11#7)
  | .vsraVv c m b a d => some (pack (cat511 14#5 c m) b a 0#3 d 11#7)
  | .vsraVx c m b a d => some (pack (cat511 14#5 c m) b a 1#3 d 11#7)
  | .vsraVi c m b i d => some (pack (cat511 14#5 c m) b i 2#3 d 11#7)
  | .vsraVs m b a d => some (pack (cat511 14#5 0#1 m) b a 4#3 d 11#7)
  | .vsraRay c m b a d => some (pack (cat511 14#5 c m) b a 7#3 d 11#7)
  | .vfmaVv c m b a d => some (pack (cat511 15#5 c m) b a 0#3 d 11#7)
  | .vfmaVx c m b a d => some (pack (cat511 15#5 c m) b a 1#3 d 11#7)
  | .vfmaVs m b a d => some (pack (cat511 15#5 0#1 m) b a 4#3 d 11#7)
  | .vfmaRay c m b a d => some (pack (cat511 15#5 c m) b a 7#3 d 11#7)
  | .vfmsVv c m b a d => some (pack (cat511 16#5 c m) b a 0#3 d 11#7)
  | .vfmsVx c m b a d => some (pack (cat511 16#5 c m) b a 1#3 d 11#7)
  | .vfmsVs m b a d => some (pack (cat511 16#5 0#1 m) b a 4#3 d 11#7)
  | .vfmsRay c m b a d => some (pack (cat511 16#5 c m) b a 7#3 d 11#7)
  | .vfnmaVv c m b a d => some (pack (cat511 17#5 c m) b a 0#3 d 11#7)
  | .vfnmaVx c m b a d => some (pack (cat511 17#5 c m) b a 1#3 d 11#7)
  | .vfnmaVs m b a d => some (pack (cat511 17#5 0#1 m) b a 4#3 d 11#7)
  | .vfnmaRay c m b a d => some (pack (cat511 17#5 c m) b a 7#3 d 11#7)
  | .vsaddVv c m b a d => some (pack (cat511 18#5 c m) b a 0#3 d 11#7)
  | .vsaddVx c m b a d => some (pack (cat511 18#5 c m) b a 1#3 d 11#7)
  | .vsaddVi c m b i d => some (pack (cat511 18#5 c m) b i 2#3 d 11#7)
  | .vsaddVs m b a d => some (pack (cat511 18#5 0#1 m) b a 4#3 d 11#7)
  | .vsaddRay c m b a d => some (pack (cat511 18#5 c m) b a 7#3 d 11#7)
  | .vssubVv c m b a d => some (pack (cat511 19#5 c m) b a 0#3 d 11#7)
  | .vssubVx c m b a d => some (pack (cat511 19#5 c m) b a 1#3 d 11#7)
  | .vssubVi c m b i d => some (pack (cat511 19#5 c m) b i 2#3 d 11#7)
  | .vssubVs m b a d => some (pack (cat511 19#5 0#1 m) b a 4#3 d 11#7)
  | .vssubRay c m b a d => some (pack (cat511 19#5 c m) b a 7#3 d 11#7)
  | .vceq c m b a p => some (pack (cat511 20#5 c m) b a 3#3 (cat23 0#2 p) 11#7)
  | .vcne c m b a p => some (pack (cat511 20#5 c m) b a 3#3 (cat23 1#2 p) 11#7)
  | .vcequ c m b a p => some (pack (cat511 20#5 c m) b a 3#3 (cat23 2#2 p) 11#7)
  | .vcneu c m b a p => some (pack (cat511 20#5 c m) b a 3#3 (cat23 3#2 p) 11#7)
  | .vclt c m b a p => some (pack (cat511 21#5 c m) b a 3#3 (cat23 0#2 p) 11#7)
  | .vcnlt c m b a p => some (pack (cat511 21#5 c m) b a 3#3 (cat23 1#2 p) 11#7)
  | .vcltu c m b a p => some (pack (cat511 21#5 c m) b a 3#3 (cat23 2#2 p) 11#7)
  | .vcnltu c m b a p => some (pack (cat511 21#5 c m) b a 3#3 (cat23 3#2 p) 11#7)
  | .vcle c m b a p => some (pack (cat511 22#5 c m) b a 3#3 (cat23 0#2 p) 11#7)
  | .vcnle c m b a p => some (pack (cat511 22#5 c m) b a 3#3 (cat23 1#2 p) 11#7)
  | .vcleu c m b a p => some (pack (cat511 22#5 c m) b a 3#3 (cat23 2#2 p) 11#7)
  | .vcnleu c m b a p => some (pack (cat511 22#5 c m) b a 3#3 (cat23 3#2 p) 11#7)
  | .vcun c m b a p => some (pack (cat511 23#5 c m) b a 3#3 (cat23 0#2 p) 11#7)
  | .vcord c m b a p => some (pack (cat511 23#5 c m) b a 3#3 (cat23 1#2 p) 11#7)
  | .vcsn c m a p => some (pack (cat511 23#5 c m) 0#5 a 3#3 (cat23 2#2 p) 11#7)
  | .vcnsn c m a p => some (pack (cat511 23#5 c m) 0#5 a 3#3 (cat23 3#2 p) 11#7)
  | .vsel c b a d => some (pack (cat511 24#5 c 1#1) b a 0#3 d 11#7)
  | .vmvVx c m a d => some (pack (cat511 24#5 c m) 0#5 a 1#3 d 11#7)
  | .vmvVi c m i d => some (pack (cat511 24#5 c m) 0#5 i 2#3 d 11#7)
  | .vmvX a d => some (pack (cat511 24#5 0#1 1#1) 0#5 a 4#3 d 11#7)
  | .vmvVv c m a d => some (pack (cat511 24#5 c m) 0#5 a 6#3 d 11#7)
  | .vcvt c m t a d => some (pack (cat511 25#5 c m) (cat14 0#1 t) a 5#3 d 11#7)
  | .vcvts c m t a d => some (pack (cat511 25#5 c m) (cat14 1#1 t) a 5#3 d 11#7)
  | .vneg c m a d => some (pack (cat511 26#5 c m) 0#5 a 6#3 d 11#7)
  | .vabs c m a d => some (pack (cat511 26#5 c m) 1#5 a 6#3 d 11#7)
  | .vsqrt c m a d => some (pack (cat511 26#5 c m) 2#5 a 6#3 d 11#7)
  | .vrcpe c m a d => some (pack (cat511 26#5 c m) 3#5 a 6#3 d 11#7)
  | .vrsqe c m a d => some (pack (cat511 26#5 c m) 4#5 a 6#3 d 11#7)
  | .vexp2 c m a d => some (pack (cat511 26#5 c m) 5#5 a 6#3 d 11#7)
  | .vlog2 c m a d => some (pack (cat511 26#5 c m) 6#5 a 6#3 d 11#7)
  | .vclz c m a d => some (pack (cat511 26#5 c m) 7#5 a 6#3 d 11#7)
  | .vpopc c m a d => some (pack (cat511 26#5 c m) 8#5 a 6#3 d 11#7)
  | .vbrev c m a d => some (pack (cat511 26#5 c m) 9#5 a 6#3 d 11#7)
  | .vclass c m a d => some (pack (cat511 26#5 c m) 10#5 a 6#3 d 11#7)
  | .vredsum m b a d => some (pack (cat511 27#5 0#1 m) b a 0#3 d 11#7)
  | .vredosum m b a d => some (pack (cat511 27#5 0#1 m) b a 1#3 d 11#7)
  | .vredmin m b a d => some (pack (cat511 27#5 0#1 m) b a 2#3 d 11#7)
  | .vredmax m b a d => some (pack (cat511 27#5 0#1 m) b a 3#3 d 11#7)
  | .vredand m b a d => some (pack (cat511 27#5 0#1 m) b a 4#3 d 11#7)
  | .vredor m b a d => some (pack (cat511 27#5 0#1 m) b a 5#3 d 11#7)
  | .vredxor m b a d => some (pack (cat511 27#5 0#1 m) b a 6#3 d 11#7)
  | .vargmax m b d => some (pack (cat511 27#5 0#1 m) b 0#5 7#3 d 11#7)
  | .vcompress b d => some (pack (cat511 28#5 0#1 0#1) b 0#5 0#3 d 11#7)
  | .vexpand b d => some (pack (cat511 28#5 0#1 0#1) b 0#5 1#3 d 11#7)
  | .vpcnt m a d => some (pack (cat511 28#5 0#1 m) 0#5 (cat23 0#2 a) 2#3 d 11#7)
  | .vconfl m a d => some (pack (cat511 28#5 0#1 m) 0#5 a 3#3 d 11#7)
  | .vslideup m b a d => some (pack (cat511 28#5 0#1 m) b a 4#3 d 11#7)
  | .vslidedn m b a d => some (pack (cat511 28#5 0#1 m) b a 5#3 d 11#7)
  | .vperm m b a d => some (pack (cat511 28#5 0#1 m) b a 6#3 d 11#7)
  | .viota m a d => some (pack (cat511 28#5 0#1 m) 0#5 a 7#3 d 11#7)
  | .vsscanAdd b d => some (pack (cat511 29#5 0#1 1#1) b 0#5 0#3 d 11#7)
  | .vsscanMin b d => some (pack (cat511 29#5 0#1 1#1) b 0#5 1#3 d 11#7)
  | .vsscanMax b d => some (pack (cat511 29#5 0#1 1#1) b 0#5 2#3 d 11#7)
  | .vsscanOr b d => some (pack (cat511 29#5 0#1 1#1) b 0#5 3#3 d 11#7)
  | .vtopk m b a d => some (pack (cat511 30#5 0#1 m) b a 0#3 d 11#7)
  | .vinter m b a d => some (pack (cat511 30#5 0#1 m) b a 1#3 d 11#7)
  | .vsortk m a d => some (pack (cat511 30#5 0#1 m) 0#5 a 2#3 d 11#7)
  | .pand c b a d => some (pack (cat511 31#5 c 1#1) (cat23 0#2 b) (cat23 0#2 a) 0#3 (cat23 0#2 d) 11#7)
  | .por c b a d => some (pack (cat511 31#5 c 1#1) (cat23 0#2 b) (cat23 0#2 a) 1#3 (cat23 0#2 d) 11#7)
  | .pxor c b a d => some (pack (cat511 31#5 c 1#1) (cat23 0#2 b) (cat23 0#2 a) 2#3 (cat23 0#2 d) 11#7)
  | .pnot c a d => some (pack (cat511 31#5 c 1#1) 0#5 (cat23 0#2 a) 3#3 (cat23 0#2 d) 11#7)
  | .pmov c a d => some (pack (cat511 31#5 c 1#1) 0#5 (cat23 0#2 a) 4#3 (cat23 0#2 d) 11#7)
  | .pcnt c a d => some (pack (cat511 31#5 c 1#1) 0#5 (cat23 0#2 a) 5#3 d 11#7)
  | .pfirst c a d => some (pack (cat511 31#5 c 1#1) 0#5 (cat23 0#2 a) 6#3 d 11#7)
  | .vldUnit c m a d => some (pack (cat511 0#5 c m) 0#5 a 0#3 d 43#7)
  | .vldStrided c m b a d => some (pack (cat511 0#5 c m) b a 1#3 d 43#7)
  | .vldIndexed m b a d => some (pack (cat511 0#5 0#1 m) b a 2#3 d 43#7)
  | .vldffUnit c m a d => some (pack (cat511 1#5 c m) 0#5 a 0#3 d 43#7)
  | .vldffStrided c m b a d => some (pack (cat511 1#5 c m) b a 1#3 d 43#7)
  | .vldffIndexed m b a d => some (pack (cat511 1#5 0#1 m) b a 2#3 d 43#7)
  | .vstUnit c m a s => some (pack (cat511 2#5 c m) 0#5 a 0#3 s 43#7)
  | .vstStrided c m b a s => some (pack (cat511 2#5 c m) b a 1#3 s 43#7)
  | .vstIndexed m b a s => some (pack (cat511 2#5 0#1 m) b a 2#3 s 43#7)
  | .vstn c m b a s => some (pack (cat511 3#5 c m) b a 0#3 s 43#7)
  | .vrsAddUnit c m a s => some (pack (cat511 4#5 c m) 0#5 a 0#3 s 43#7)
  | .vrsAddIndexed c m b a s => some (pack (cat511 4#5 c m) b a 2#3 s 43#7)
  | .vrsMinUnit c m a s => some (pack (cat511 5#5 c m) 0#5 a 0#3 s 43#7)
  | .vrsMinIndexed c m b a s => some (pack (cat511 5#5 c m) b a 2#3 s 43#7)
  | .vrsMaxUnit c m a s => some (pack (cat511 6#5 c m) 0#5 a 0#3 s 43#7)
  | .vrsMaxIndexed c m b a s => some (pack (cat511 6#5 c m) b a 2#3 s 43#7)
  | .vrsOrUnit c m a s => some (pack (cat511 7#5 c m) 0#5 a 0#3 s 43#7)
  | .vrsOrIndexed c m b a s => some (pack (cat511 7#5 c m) b a 2#3 s 43#7)
  | .vspill a s => some (pack (cat511 8#5 0#1 1#1) 0#5 a 0#3 s 43#7)
  | .vfill a d => some (pack (cat511 9#5 0#1 1#1) 0#5 a 0#3 d 43#7)
  | .vprep b a d => some (pack (cat511 10#5 0#1 1#1) b a 0#3 d 43#7)
  | .vtrimh b a d => some (pack (cat511 11#5 0#1 1#1) b a 0#3 d 43#7)
  | .vtrimt b a d => some (pack (cat511 12#5 0#1 1#1) b a 0#3 d 43#7)
  | .vsplit b a d => some (pack (cat511 13#5 0#1 1#1) b a 0#3 d 43#7)
  | .vjoin b a d => some (pack (cat511 14#5 0#1 1#1) b a 0#3 d 43#7)
  | .vshare a d => some (pack (cat511 15#5 0#1 1#1) 0#5 a 0#3 d 43#7)
  | .vretype t a d => some (pack (cat511 16#5 0#1 1#1) t a 0#3 d 43#7)
  | .vlen a d => some (pack (cat511 17#5 0#1 1#1) 0#5 a 0#3 d 43#7)
  | .vfree d => some (pack (cat511 18#5 0#1 1#1) 0#5 0#5 0#3 d 43#7)
  | .vnorm a d => some (pack (cat511 19#5 0#1 1#1) 0#5 a 0#3 d 43#7)
  | .fclaim b a d => some (pack (cat511 20#5 0#1 1#1) b a 0#3 d 43#7)
  | .frel => some (pack (cat511 21#5 0#1 1#1) 0#5 0#5 0#3 0#5 43#7)
  | .fins m b a p => some (pack (cat511 22#5 0#1 m) b a 0#3 (cat221 0#2 p 0#1) 43#7)
  | .fprobe m b a p d => some (pack (cat511 23#5 0#1 m) b a (cat12 0#1 p) d 43#7)
  | .fdel m a p => some (pack (cat511 24#5 0#1 m) 0#5 a 0#3 (cat221 0#2 p 0#1) 43#7)
  | .faccAdd m p a d => some (pack (cat511 25#5 0#1 m) (cat221 0#2 p 0#1) a 0#3 d 43#7)
  | .faccMin m p a d => some (pack (cat511 25#5 0#1 m) (cat221 0#2 p 0#1) a 1#3 d 43#7)
  | .faccMax m p a d => some (pack (cat511 25#5 0#1 m) (cat221 0#2 p 0#1) a 2#3 d 43#7)
  | .faccOr m p a d => some (pack (cat511 25#5 0#1 m) (cat221 0#2 p 0#1) a 3#3 d 43#7)
  | .faccCount m p a d => some (pack (cat511 25#5 0#1 m) (cat221 0#2 p 0#1) a 4#3 d 43#7)
  | .fdrain b d => some (pack (cat511 26#5 0#1 1#1) b 0#5 0#3 d 43#7)
  | .mset b a f d => some (pack (cat43 0#4 0#3) b a f (cat23 0#2 d) 91#7)
  | .mld b a d => some (pack (cat43 1#4 0#3) b a 0#3 (cat23 0#2 d) 91#7)
  | .mldff b a d => some (pack (cat43 2#4 0#3) b a 0#3 (cat23 0#2 d) 91#7)
  | .mst b a d => some (pack (cat43 3#4 0#3) b a 0#3 (cat23 0#2 d) 91#7)
  | .mzero t => some (pack (cat43 4#4 0#3) 0#5 0#5 0#3 t 91#7)
  | .mop c b a f => some (pack (cat43 5#4 c) (cat23 0#2 b) (cat23 0#2 a) f 0#5 91#7)
  | .msca c b a => some (pack (cat43 6#4 c) b a 0#3 0#5 91#7)
  | .mrowIn b a f d => some (pack (cat43 7#4 0#3) b a f (cat23 0#2 d) 91#7)
  | .mrowOut b a f d => some (pack (cat43 7#4 1#3) b (cat23 0#2 a) f d 91#7)
  | .maccOut c b a f d => some (pack (cat43 8#4 (cat21 0#2 c)) b a f d 91#7)
  | .mgang a d => some (pack (cat43 9#4 0#3) 0#5 a 0#3 d 91#7)
  | .mbcast b a => some (pack (cat43 10#4 0#3) b (cat23 0#2 a) 0#3 0#5 91#7)
  | .vsmine o k n => some (pack (o.extractLsb' 5 7) (o.extractLsb' 0 5) (cat14 0#1 k) 0#3 n 123#7)
  | .vsetl t a d => some (pack 0#7 t a 1#3 d 123#7)
  | .vcollapse a d => some (pack 1#7 0#5 a 1#3 d 123#7)
  | .fenceSv s => some (pack 2#7 (cat32 0#3 s) 0#5 1#3 0#5 123#7)
  | .fenceVs s => some (pack 3#7 (cat32 0#3 s) 0#5 1#3 0#5 123#7)
  | .fenceVv s => some (pack 4#7 (cat32 0#3 s) 0#5 1#3 0#5 123#7)
  | .rel s => some (pack 5#7 (cat32 0#3 s) 0#5 1#3 0#5 123#7)
  | .acq s => some (pack 6#7 (cat32 0#3 s) 0#5 1#3 0#5 123#7)
  | .ccopy b a d => some (pack 0#7 b a 2#3 d 123#7)
  | .cwait b a d => some (pack 1#7 b a 2#3 d 123#7)
  | .ctest b a d => some (pack 2#7 b a 2#3 d 123#7)
  | .rayOpen b a d => some (pack 0#7 b a 3#3 d 123#7)
  | .rayClose a => some (pack 1#7 0#5 a 3#3 0#5 123#7)
  | .rayGrant b a => some (pack 2#7 b a 3#3 0#5 123#7)
  | .vsend b a => some (pack 3#7 b a 3#3 0#5 123#7)
  | .rayRecv a d => some (pack 4#7 0#5 a 3#3 d 123#7)
  | .vroute b a d => some (pack 5#7 b a 3#3 d 123#7)
  | .barInit b a d => some (pack 0#7 b a 4#3 d 123#7)
  | .barArrive a => some (pack 1#7 0#5 a 4#3 0#5 123#7)
  | .barWait a d => some (pack 2#7 0#5 a 4#3 d 123#7)
  | .collAdd b a d => some (pack 4#7 b a 4#3 d 123#7)
  | .collMin b a d => some (pack 5#7 b a 4#3 d 123#7)
  | .collMax b a d => some (pack 6#7 b a 4#3 d 123#7)
  | .collOr b a d => some (pack 7#7 b a 4#3 d 123#7)
  | .tsub a d => some (pack 0#7 0#5 a 5#3 d 123#7)
  | .tdone => some (pack 1#7 0#5 0#5 5#3 0#5 123#7)
  | .tyield => some (pack 2#7 0#5 0#5 5#3 0#5 123#7)
  | .twait b a d => some (pack 3#7 b a 5#3 d 123#7)
  | .tkill a d => some (pack 4#7 0#5 a 5#3 d 123#7)
  | .qseg a d => some (pack 0#7 0#5 a 6#3 d 123#7)
  | .qctx a d => some (pack 1#7 0#5 a 6#3 d 123#7)
  | .tlbdrop b a => some (pack 2#7 b a 6#3 0#5 123#7)
  | .cflush b a => some (pack 3#7 b a 6#3 0#5 123#7)
  | .evfrz a => some (pack 4#7 0#5 a 6#3 0#5 123#7)
  | .syHint h b a => some (pack (cat16 1#1 h) b a 6#3 0#5 123#7)
  | .bfx e b a d => some (pack (cat52 e 0#2) b a 7#3 d 123#7)
  | .bfxs e b a d => some (pack (cat52 e 1#2) b a 7#3 d 123#7)
  | .bfi e b a d => some (pack (cat52 e 2#2) b a 7#3 d 123#7)
  | .lui u d => some (pack (u.extractLsb' 13 7) (u.extractLsb' 8 5) (u.extractLsb' 3 5) (u.extractLsb' 0 3) d 55#7)
  | .auipc u d => some (pack (u.extractLsb' 13 7) (u.extractLsb' 8 5) (u.extractLsb' 3 5) (u.extractLsb' 0 3) d 23#7)
  | .jal j d => some (pack (j.extractLsb' 13 7) (j.extractLsb' 8 5) (j.extractLsb' 3 5) (j.extractLsb' 0 3) d 111#7)
  | .jalr i a d => some (pack (i.extractLsb' 5 7) (i.extractLsb' 0 5) a 0#3 d 103#7)
  | .beq h b a l => some (pack h b a 0#3 l 99#7)
  | .bne h b a l => some (pack h b a 1#3 l 99#7)
  | .blt h b a l => some (pack h b a 4#3 l 99#7)
  | .bge h b a l => some (pack h b a 5#3 l 99#7)
  | .bltu h b a l => some (pack h b a 6#3 l 99#7)
  | .bgeu h b a l => some (pack h b a 7#3 l 99#7)
  | .lb i a d => some (pack (i.extractLsb' 5 7) (i.extractLsb' 0 5) a 0#3 d 3#7)
  | .lh i a d => some (pack (i.extractLsb' 5 7) (i.extractLsb' 0 5) a 1#3 d 3#7)
  | .lw i a d => some (pack (i.extractLsb' 5 7) (i.extractLsb' 0 5) a 2#3 d 3#7)
  | .ld i a d => some (pack (i.extractLsb' 5 7) (i.extractLsb' 0 5) a 3#3 d 3#7)
  | .lbu i a d => some (pack (i.extractLsb' 5 7) (i.extractLsb' 0 5) a 4#3 d 3#7)
  | .lhu i a d => some (pack (i.extractLsb' 5 7) (i.extractLsb' 0 5) a 5#3 d 3#7)
  | .lwu i a d => some (pack (i.extractLsb' 5 7) (i.extractLsb' 0 5) a 6#3 d 3#7)
  | .sb h b a l => some (pack h b a 0#3 l 35#7)
  | .sh h b a l => some (pack h b a 1#3 l 35#7)
  | .sw h b a l => some (pack h b a 2#3 l 35#7)
  | .sd h b a l => some (pack h b a 3#3 l 35#7)
  | .addi i a d => some (pack (i.extractLsb' 5 7) (i.extractLsb' 0 5) a 0#3 d 19#7)
  | .slti i a d => some (pack (i.extractLsb' 5 7) (i.extractLsb' 0 5) a 2#3 d 19#7)
  | .sltiu i a d => some (pack (i.extractLsb' 5 7) (i.extractLsb' 0 5) a 3#3 d 19#7)
  | .xori i a d => some (pack (i.extractLsb' 5 7) (i.extractLsb' 0 5) a 4#3 d 19#7)
  | .ori i a d => some (pack (i.extractLsb' 5 7) (i.extractLsb' 0 5) a 6#3 d 19#7)
  | .andi i a d => some (pack (i.extractLsb' 5 7) (i.extractLsb' 0 5) a 7#3 d 19#7)
  | .slli h a d => some (pack (cat61 0#6 (h.extractLsb' 5 1)) (h.extractLsb' 0 5) a 1#3 d 19#7)
  | .srli h a d => some (pack (cat61 0#6 (h.extractLsb' 5 1)) (h.extractLsb' 0 5) a 5#3 d 19#7)
  | .srai h a d => some (pack (cat61 16#6 (h.extractLsb' 5 1)) (h.extractLsb' 0 5) a 5#3 d 19#7)
  | .add b a d => some (pack 0#7 b a 0#3 d 51#7)
  | .sub b a d => some (pack 32#7 b a 0#3 d 51#7)
  | .sll b a d => some (pack 0#7 b a 1#3 d 51#7)
  | .slt b a d => some (pack 0#7 b a 2#3 d 51#7)
  | .sltu b a d => some (pack 0#7 b a 3#3 d 51#7)
  | .xor b a d => some (pack 0#7 b a 4#3 d 51#7)
  | .srl b a d => some (pack 0#7 b a 5#3 d 51#7)
  | .sra b a d => some (pack 32#7 b a 5#3 d 51#7)
  | .or b a d => some (pack 0#7 b a 6#3 d 51#7)
  | .and b a d => some (pack 0#7 b a 7#3 d 51#7)
  | .mul b a d => some (pack 1#7 b a 0#3 d 51#7)
  | .mulh b a d => some (pack 1#7 b a 1#3 d 51#7)
  | .mulhsu b a d => some (pack 1#7 b a 2#3 d 51#7)
  | .mulhu b a d => some (pack 1#7 b a 3#3 d 51#7)
  | .div b a d => some (pack 1#7 b a 4#3 d 51#7)
  | .divu b a d => some (pack 1#7 b a 5#3 d 51#7)
  | .rem b a d => some (pack 1#7 b a 6#3 d 51#7)
  | .remu b a d => some (pack 1#7 b a 7#3 d 51#7)
  | .addiw i a d => some (pack (i.extractLsb' 5 7) (i.extractLsb' 0 5) a 0#3 d 27#7)
  | .slliw h a d => some (pack 0#7 h a 1#3 d 27#7)
  | .srliw h a d => some (pack 0#7 h a 5#3 d 27#7)
  | .sraiw h a d => some (pack 32#7 h a 5#3 d 27#7)
  | .addw b a d => some (pack 0#7 b a 0#3 d 59#7)
  | .subw b a d => some (pack 32#7 b a 0#3 d 59#7)
  | .sllw b a d => some (pack 0#7 b a 1#3 d 59#7)
  | .srlw b a d => some (pack 0#7 b a 5#3 d 59#7)
  | .sraw b a d => some (pack 32#7 b a 5#3 d 59#7)
  | .mulw b a d => some (pack 1#7 b a 0#3 d 59#7)
  | .divw b a d => some (pack 1#7 b a 4#3 d 59#7)
  | .divuw b a d => some (pack 1#7 b a 5#3 d 59#7)
  | .remw b a d => some (pack 1#7 b a 6#3 d 59#7)
  | .remuw b a d => some (pack 1#7 b a 7#3 d 59#7)
  | .fence i a d => some (pack (i.extractLsb' 5 7) (i.extractLsb' 0 5) a 0#3 d 15#7)
  | .fenceI i a d => some (pack (i.extractLsb' 5 7) (i.extractLsb' 0 5) a 1#3 d 15#7)
  | .lr q r a w d => some (pack (cat511 2#5 q r) 0#5 a (cat21 1#2 w) d 47#7)
  | .sc q r b a w d => some (pack (cat511 3#5 q r) b a (cat21 1#2 w) d 47#7)
  | .amoswap q r b a w d => some (pack (cat511 1#5 q r) b a (cat21 1#2 w) d 47#7)
  | .amoadd q r b a w d => some (pack (cat511 0#5 q r) b a (cat21 1#2 w) d 47#7)
  | .amoxor q r b a w d => some (pack (cat511 4#5 q r) b a (cat21 1#2 w) d 47#7)
  | .amoand q r b a w d => some (pack (cat511 12#5 q r) b a (cat21 1#2 w) d 47#7)
  | .amoor q r b a w d => some (pack (cat511 8#5 q r) b a (cat21 1#2 w) d 47#7)
  | .amomin q r b a w d => some (pack (cat511 16#5 q r) b a (cat21 1#2 w) d 47#7)
  | .amomax q r b a w d => some (pack (cat511 20#5 q r) b a (cat21 1#2 w) d 47#7)
  | .amominu q r b a w d => some (pack (cat511 24#5 q r) b a (cat21 1#2 w) d 47#7)
  | .amomaxu q r b a w d => some (pack (cat511 28#5 q r) b a (cat21 1#2 w) d 47#7)
  | .ecall => some (pack 0#7 0#5 0#5 0#3 0#5 115#7)
  | .ebreak => some (pack 0#7 1#5 0#5 0#3 0#5 115#7)
  | .sret => some (pack 8#7 2#5 0#5 0#3 0#5 115#7)
  | .wfi => some (pack 8#7 5#5 0#5 0#3 0#5 115#7)
  | .csrrw c a d => some (pack (c.extractLsb' 5 7) (c.extractLsb' 0 5) a 1#3 d 115#7)
  | .csrrs c a d => some (pack (c.extractLsb' 5 7) (c.extractLsb' 0 5) a 2#3 d 115#7)
  | .csrrc c a d => some (pack (c.extractLsb' 5 7) (c.extractLsb' 0 5) a 3#3 d 115#7)
  | .csrrwi c u d => some (pack (c.extractLsb' 5 7) (c.extractLsb' 0 5) u 5#3 d 115#7)
  | .csrrsi c u d => some (pack (c.extractLsb' 5 7) (c.extractLsb' 0 5) u 6#3 d 115#7)
  | .csrrci c u d => some (pack (c.extractLsb' 5 7) (c.extractLsb' 0 5) u 7#3 d 115#7)

/-! ## The host's layout -/

/-- The bytes of the table's bits: bit 0 is the least significant bit of the first byte, and every bit
above `nbits` is 0. Every instruction of this device is four bytes long. -/
def tableBytes (nbits w : Nat) : List Byte :=
  let v := w % 2 ^ nbits
  [BitVec.ofNat 8 v, BitVec.ofNat 8 (v / 2 ^ 8), BitVec.ofNat 8 (v / 2 ^ 16), BitVec.ofNat 8 (v / 2 ^ 24)]

/-- What the decoder reads from an instruction whose bits are `w`. -/
noncomputable def decodeTableWord (nbits w : Nat) : Option Instr :=
  match decodeBytes (tableBytes nbits w) with
  | .ok (i, _) => some i
  | .error _ => none

end Sys2Proof
end

