-- ==== Sys2Proof/Machine/Bits.lean ====
section
/-! DEFINITION. Plain helpers over numbers, bytes and lists keyed by number: fields of a word, sign
extension, byte order (R185: every record and register is little-endian), sorted key-value lists. -/

namespace Sys2Proof.Machine

/-- Bits [hi:lo] of a number. -/
def bits (w hi lo : Nat) : Nat := w / 2 ^ lo % 2 ^ (hi + 1 - lo)

/-- Bit i of a number. -/
def bit (w i : Nat) : Bool := w / 2 ^ i % 2 == 1

/-- A number below 2^w read as two's complement. -/
def toSigned (w n : Nat) : Int := if n % 2 ^ w < 2 ^ (w - 1) then (n % 2 ^ w : Nat) else (n % 2 ^ w : Nat) - (2 ^ w : Nat)

/-- An integer modulo 2^w. -/
def wrap (w : Nat) (i : Int) : Nat := (i % (2 ^ w : Nat)).toNat

/-- An integer held between two bounds. -/
def clampInt (lo hi i : Int) : Int := if i < lo then lo else if hi < i then hi else i

/-- The quotient rounded up. -/
def ceilDiv (a b : Nat) : Nat := (a + b - 1) / b

/-- The n low bytes of a number, the lowest first. -/
def bytesOf : Nat → Nat → List Byte
  | 0, _ => []
  | n + 1, w => BitVec.ofNat 8 w :: bytesOf n (w / 256)

/-- The number that bytes hold, the first lowest. -/
def natOf : List Byte → Nat
  | [] => 0
  | b :: t => b.toNat + 256 * natOf t

/-- A word from bytes. -/
def wordOf (bs : List Byte) : Word := BitVec.ofNat 64 (natOf bs)

/-- The number at byte offset `off`, `n` bytes long, of a record. -/
def recNat (r : List Byte) (off n : Nat) : Nat := natOf ((r.drop off).take n)

/-- Every byte of a stretch of a record is zero. -/
def recZero (r : List Byte) (off n : Nat) : Bool := ((r.drop off).take n).all (· == 0)

/-- The value under a key. -/
def lookupKey {α : Type} (k : Nat) : List (Nat × α) → Option α
  | [] => none
  | (a, v) :: t => if a = k then some v else if k < a then none else lookupKey k t

/-- Put a value under a key, keys rising. -/
def insertKey {α : Type} (k : Nat) (v : α) : List (Nat × α) → List (Nat × α)
  | [] => [(k, v)]
  | (a, w) :: t => if a = k then (k, v) :: t else if k < a then (k, v) :: (a, w) :: t else (a, w) :: insertKey k v t

/-- Remove a key. -/
def eraseKey {α : Type} (k : Nat) (l : List (Nat × α)) : List (Nat × α) := l.filter (fun p => p.1 != k)

/-- A list with the element at one place replaced; a place past the end changes nothing. -/
def setAt {α : Type} : List α → Nat → α → List α
  | [], _, _ => []
  | _ :: t, 0, v => v :: t
  | a :: t, n + 1, v => a :: setAt t n v

/-- 0, 1, …, n - 1. -/
def upTo (n : Nat) : List Nat := List.range n

/-- The first place where a test holds. -/
def firstIndex {α : Type} (p : α → Bool) : List α → Option Nat
  | [] => none
  | a :: t => if p a then some 0 else (firstIndex p t).map (· + 1)

/-- The number of one bits of a number below 2^n. -/
def popCount : Nat → Nat → Nat
  | 0, _ => 0
  | n + 1, w => w % 2 + popCount n (w / 2)

/-- Sequence a precedes or equals b, modulo 2^32 (R24). -/
def seqLe (a b : BitVec 32) : Bool := (b - a).toNat < 2 ^ 31

/-- An index with its rank, put behind every one that `before` keeps ahead of it. -/
def insertRanked (before : Int → Int → Bool) (x : Nat × Int) : List (Nat × Int) → List (Nat × Int)
  | [] => [x]
  | y :: t => if before x.2 y.2 then x :: y :: t else y :: insertRanked before x t

/-- A stable sort of indices by rank. -/
def sortRanked (before : Int → Int → Bool) (l : List (Nat × Int)) : List (Nat × Int) := l.foldl (fun acc x => insertRanked before x acc) []

end Sys2Proof.Machine
end

