-- ==== Sys2Proof/Config.lean ====
section
/-! DEFINITION. What an implementation fixes, and the free values: constants with no body, of
which nothing can be proved, so that a statement holds whatever they are. Each is named in a row
of the assumption log. -/

namespace Sys2Proof.Config

/-- FREE (log 4: DESIGN CHOICE, unsafe): which of the agents that could act next does so. Applied to the nonce. -/
opaque choose : Nat → Nat

/-- Parts of a reference tick in which the model reckons time: every number of cycles a tick may hold (R15: 6 to 18) divides it. -/
def tickParts : Nat := 12252240

/-- FREE (log 5: DESIGN CHOICE, safe): the time that passes in a step, in parts of a reference tick. Applied to the nonce. -/
opaque elapsed : Nat → Nat

/-- FREE (log 5: DESIGN CHOICE, safe): a time that the spec does not state, in reference ticks. Applied to the nonce. -/
opaque ticks : Nat → Nat

/-- FREE (log 61: DESIGN CHOICE, safe): where in a convoy a stop for pre-emption falls (R89, R103), or none: the element at which it
begins, or the number of elements for the cross-element member. Applied to the nonce. -/
opaque stopsAt : Nat → Option Nat

/-- FREE (log 63: DESIGN CHOICE, safe): how many convoys stand in the queue of a running context (R259). Applied to the nonce and the slot. -/
opaque queued : Nat → Nat → Nat

/-- FREE (log 6: DESIGN CHOICE, safe): which free segment number an allocation receives (R354). Applied to the nonce. -/
opaque segment : Nat → Nat

/-- FREE (log 7: DESIGN CHOICE, unsafe): how long, in steps, the scalar reads (0) or the vector reads (1) of a thread miss an unfenced write of its
own (R178). Applied to the nonce of the write, its first key and the class. -/
opaque lag : Nat → Nat → Nat → Nat

/-- FREE (log 7: DESIGN CHOICE, unsafe): whether the vector reads and the fetches of a thread, of which no order is given, may miss an unfenced write
and see it by turns. Applied to the nonce of the write and its first key. -/
opaque wavers : Nat → Nat → Bool

/-- FREE (log 7: DESIGN CHOICE, unsafe): whether a read that may miss a wavering write misses it. Applied to the nonce and the byte's key. -/
opaque misses : Nat → Nat → Bool

/-- FREE (log 7: DESIGN CHOICE, unsafe): whether a write is performed before an older write of its thread with which no fence orders it (R178).
Applied to the nonce and the byte's key. -/
opaque overtakes : Nat → Nat → Bool

/-- FREE (log 8: DESIGN CHOICE, safe): SHAKE256 with a 64-byte output (R43), an algorithm the spec names and does not state. -/
opaque shake256 : List Byte → List Byte

/-- FREE (log 8: DESIGN CHOICE, safe): verification of a Falcon-1024 signature (R43): public key, message, signature. -/
opaque falconVerify : List Byte → List Byte → List Byte → Bool

/-- FREE (log 8: DESIGN CHOICE, safe): Falcon-1024 signing (R45): private key, message. -/
opaque falconSign : List Byte → List Byte → List Byte

/-- FREE (log 8: DESIGN CHOICE, safe): the key pair (private, public) the hub die's entropy source yields (R44). Applied to the nonce. -/
opaque falconKeys : Nat → List Byte × List Byte

/-- FREE (log 9: DESIGN CHOICE, safe): whether a management request's signature is good (R52): operator key, service, arguments, counter, signature. -/
opaque requestSigned : List Byte → Nat → List Nat → Word → List Byte → Bool

/-- FREE (log 8: DESIGN CHOICE, safe): the bytes that MCFG of an attestation report is the digest of (R45): the alarm configuration, the fused minimum SVNs and
the partition records in force, whose order and form are not stated. -/
opaque configBytes : List Nat → List Byte

/-- FREE (log 10: DESIGN CHOICE, safe): the save frames the runtime supplies to a partition (R199), by partition id. -/
opaque saveFrames : Nat → List Nat

/-- FREE (log 10: DESIGN CHOICE, safe): the 64 KiB page frames the runtime keeps for a partition (R154). -/
opaque pageFrames : Nat → List Nat

/-- FREE (log 10: DESIGN CHOICE, safe): the backing table of a partition (R155): physical address and number of records. -/
opaque backing : Nat → Nat × Nat

/-- FREE (log 10: DESIGN CHOICE, safe): the part of the CXL tier given to a partition (R138): offset and length. -/
opaque tierPart : Nat → Nat × Nat

/-- FREE (log 11: DESIGN CHOICE, safe): the four key hashes in fuses (R43); a revoked one is none. -/
opaque fuseHashes : List (Option (List Byte))

/-- FREE (log 11: DESIGN CHOICE, safe): whether the fused order tries the host before the NVMe namespace (R42). -/
opaque hostFirst : Bool

/-- FREE (log 11: DESIGN CHOICE, safe): the fused minimum SVN of each KIND before any boot (R43). -/
opaque fuseSvn : Nat → Nat

/-- FREE (log 38: DESIGN CHOICE, unsafe): how many receive buffers a port of a link has (R10), less one, modulo 63. -/
opaque buffers : Nat

/-- FREE (log 12: DESIGN CHOICE, safe): where the firmware places a link's payload once delivered is not stated; the
value of a result the spec states no value for, by nonce. -/
opaque word : Nat → Word

/-- FREE (log 13: DESIGN CHOICE, safe): the fraction of a result whose rounding the interval arithmetic of `vexp2` and
`vlog2` left undecided at its last precision: whether the upper neighbour is taken. Applied to the
operand's bits. -/
opaque roundsUp : Nat → Bool

/-- FREE (log 15: DESIGN CHOICE, unsafe): SPACE of `sfinfo` for a check of the vector, matrix or Facet unit that is no memory
access (R193 states it for accesses). Applied to the nonce. -/
opaque openSpace : Nat → BitVec 3

/-- FREE (log 16: DESIGN CHOICE, safe): whether an entry of the die TLB has been replaced since its last use (R142: 8-way, the
choice of set is not stated). Applied to the nonce and the page's base. -/
opaque evicted : Nat → Nat → Bool

/-- FREE (log 5: DESIGN CHOICE, safe): events reckoned in time, or of units whose traffic the spec does not fix, that a counter
counts in a step. Applied to the nonce and the event code. -/
opaque counted : Nat → Nat → Nat

/-- FREE (log 18: DESIGN CHOICE, safe): whether the debugger holds a context that meets a breakpoint (R355, R367). Applied to the nonce and the slot. -/
opaque debuggerHolds : Nat → Nat → Bool

/-- The trap entry of the core runtime image (log 14: DESIGN CHOICE, unsafe): the spec gives no address. It lies in the
part of the address space where no fetch succeeds, so no program word stands there. -/
def runtimeEntry : Word := 0xFFFF_FF05_0000_0000#64

/-- HBM of one compute die, in bytes (R138). -/
def hbmPerDie : Nat := 0x18_0000_0000

/-- Where the CXL tier begins among physical addresses (R138). -/
def tierBase : Nat := 0x1000_0000_0000

/-- The tier's size: 4 TiB (R13, R138). -/
def tierSize : Nat := 0x400_0000_0000

end Sys2Proof.Config
end

