-- ==== Sys2Proof/Machine/State.lean ====
section
/-! DEFINITION. The state of the package as plain data: every piece of architectural state the
spec names, the model's own bookkeeping (agenda, timers, inputs, nonce), the reasons a step can
stop, and the state after reset. -/

namespace Sys2Proof.Machine

/-! ## Words of a convoy -/

/-- The forms of f5 0 to 26 (R236). -/
inductive VForm where
  | vv | vx | vi | vs | ray
  deriving DecidableEq, Repr

/-- Two-operand operations (R279, R280). -/
inductive ArithOp where
  | add | sub | rsub | mul | mulh | div | rem | min | max | and | or | xor | sll | srl | sra | sadd | ssub
  deriving DecidableEq, Repr

/-- Fused operations (R281). -/
inductive FusedOp where
  | fma | fms | fnma
  deriving DecidableEq, Repr

/-- Compares (R238, R282); `sn` is the variant of `vcun` that tests for a signalling NaN. -/
inductive CmpOp where
  | eq | lt | le | un | sn
  deriving DecidableEq, Repr

/-- Unary operations (R285). -/
inductive UnOp where
  | neg | abs | sqrt | rcpe | rsqe | exp2 | log2 | clz | popc | brev | class
  deriving DecidableEq, Repr

/-- Reductions (R288). -/
inductive RedOp where
  | sum | osum | min | max | and | or | xor
  deriving DecidableEq, Repr

/-- Operations of scans, reduce-stores, collectives and `facc` (R293, R313, R352, R170). -/
inductive CombOp where
  | add | min | max | or | count
  deriving DecidableEq, Repr

/-- Predicate operations (R298). -/
inductive PredOp where
  | and | or | xor | not | mov
  deriving DecidableEq, Repr

/-- How a vector memory word forms its addresses (R308). -/
inductive AddrKind where
  | unit | strided | indexed
  deriving DecidableEq, Repr

/-- What a VX or VM word does, apart from its register fields. -/
inductive VOp where
  | arith (op : ArithOp) (form : VForm)
  | fused (op : FusedOp) (form : VForm)
  | cmp (op : CmpOp) (variant negated : Bool)
  | sel | mvX | mvI | mvToX | mvV
  | cvt (target : BitVec 4) (sat : Bool)
  | unary (op : UnOp)
  | red (op : RedOp) | argmax
  | compress | expand | vpcnt | confl | slideUp | slideDn | perm | iota
  | scan (op : CombOp)
  | topk | inter | sortk
  | pred (op : PredOp) | pcnt | pfirst
  | ld (kind : AddrKind) (first : Bool)
  | st (kind : AddrKind) | stn
  | rs (op : CombOp) (indexed : Bool)
  | spill | fill
  | prep | trimh | trimt | split | join | share | retype (type : BitVec 4) | len | free | norm
  | fclaim | frel | fins | fprobe | fdel | facc (op : CombOp) | fdrain
  deriving DecidableEq, Repr

/-- A word that has entered a convoy, with its register numbers and the x operands it captured at
entry (R97, R274, R301). `d` is bits [11:7], `a` is s1, `b` is s2. -/
structure Member where
  word : Word32
  op : VOp
  masked : Bool
  d : Nat
  a : Nat
  b : Nat
  xa : Word
  xb : Word
  deriving DecidableEq, Repr

/-! ## Chains and the pool -/

/-- A run of bytes in one segment (R119). `seg` names the segment by the model's own identity; the
segment number the spec leaves open (R354) stands in the table entry. -/
structure Piece where
  seg : Nat
  first : Nat
  count : Nat
  deriving DecidableEq, Repr

/-- A descriptor (R119). LEN and NPIECE are computed from the pieces. -/
structure Chain where
  valid : Bool
  type : BitVec 4
  pieces : List Piece
  deriving DecidableEq, Repr

/-- A segment in use (R114, R115): its number, its COUNT, its owner context, its 256 bytes, and
whether its data or its table entry holds an uncorrectable error (R132, R197). -/
structure Seg where
  num : Nat
  count : Nat
  tag : Nat
  data : List Byte
  badData : Bool
  badEntry : Bool
  deriving DecidableEq, Repr

/-! ## Contexts -/

/-- U or S (R199). -/
inductive Priv where
  | u | s
  deriving DecidableEq, Repr

/-- The four scopes (R177). -/
inductive Scope where
  | core | die | pkg | sys
  deriving DecidableEq, Repr

/-- What a context waits for (R76, R81, R112, R130, R367); a `faulted` one has had its fault delivered to another region's domain and
waits for that to end it. -/
inductive Wait where
  | twait (rd : BitVec 5) (object target : Word)
  | barrier (rd : BitVec 5) (handle phase : Nat)
  | collective (rd : BitVec 5) (handle phase : Nat)
  | rayRecv (vd handle : Nat)
  | rayForm (handle : Nat)
  | page (part page : Nat)
  | poolEmpty
  | rayPermit (handle : Nat)
  | locus (rd : BitVec 5) (node : Word)
  | retiring
  | invalidation (req : Nat)
  | debugger
  | faulted
  deriving DecidableEq, Repr

/-- Why a context is saved (R199, image word 4). -/
inductive SaveReason where
  | preempt | wait | page | runtime
  deriving DecidableEq, Repr

/-- The state of a context slot (R259). -/
inductive SlotState where
  | free
  | running
  | waiting (w : Wait)
  | saving (reason : SaveReason) (w : Option Wait) (frame : Nat)
  deriving DecidableEq, Repr

/-- A declared operand of a task node (R63). -/
structure Operand where
  base : Word
  mode : Nat
  loff : Nat
  size : Nat
  deriving DecidableEq, Repr

/-- The task a context runs (R62, R65, R89). `thread` is the model's own name for the thread, which
a save and restore keeps. -/
structure Task where
  thread : Nat
  node : Word
  tseq : BitVec 32
  part : Nat
  region : Nat
  comp : Word
  operands : List Operand
  stack : Option Nat
  deriving DecidableEq, Repr

/-- FMT, ROWS and COLS of one operand tile (R272). -/
structure Mshape where
  fmt : BitVec 3
  rows : Nat
  cols : Nat
  deriving DecidableEq, Repr

/-- An own write that a later access of the thread may still miss (R178): the step that made it, the key of its first byte and the
address used, what its bytes held before (none where another's write has followed, R182), the class that wrote it, which later accesses no fence orders
behind it, whether a later write may still be performed before it, and whether the word that made it is still at work. -/
structure Stale where
  born : Nat
  key : Nat
  addr : Nat
  old : List (Option Byte)
  byVector : Bool
  toScalar : Bool
  toVector : Bool
  toFetch : Bool
  yields : Bool
  fresh : Bool
  deriving DecidableEq, Repr

/-- A context: the architectural registers of R199's image, and what the slot holds beside them. -/
structure Ctx where
  state : SlotState
  task : Option Task
  priv : Priv
  pc : Word
  x : Vector Word 32
  vl : Nat
  vtype : BitVec 4
  vstart : Nat
  vcvx : BitVec 2
  vmt : BitVec 3
  vpstep : BitVec 32
  vouter : BitVec 62
  vflags : BitVec 4
  frm : BitVec 3
  fflags : BitVec 5
  mshape : Vector Mshape 8
  pres : Nat
  spp : Bool
  stvec : Word
  sscratch : Word
  sepc : Word
  scause : Word
  stval : Word
  sfinfo : BitVec 9
  validMode : Bool
  v : Vector Chain 32
  p : Vector (BitVec 4096) 8
  pValid : BitVec 8
  mValid : BitVec 8
  tiles : List Host.Cell
  convoy : List Member
  convoyPc : Word
  resv : Option Nat
  release : Option Scope
  phase : BitVec 2
  uncleared : BitVec 4
  stale : List Stale
  isProtected : Bool
  lastArrival : List (Nat × Nat)
  waitSince : Nat
  expiredRay : List Nat
  stepping : Bool
  deriving DecidableEq, Repr

/-- The empty chain of length-zero mode (R121). -/
def Chain.empty : Chain := { valid := true, type := 0, pieces := [] }

/-- The released register of valid-bit mode (R121). -/
def Chain.invalid : Chain := { valid := false, type := 0, pieces := [] }

/-- A context slot after core reset: free, every register at its reset value (R202, R268 to R273;
where the spec gives none, the value of log 2). -/
def Ctx.reset : Ctx :=
  { state := .free, task := none, priv := .u, pc := 0, x := Vector.replicate 32 0,
    vl := 0, vtype := 0, vstart := 0, vcvx := 0, vmt := 0, vpstep := 0, vouter := 0, vflags := 0,
    frm := 0, fflags := 0, mshape := Vector.replicate 8 { fmt := 0, rows := 0, cols := 0 },
    pres := 0, spp := false, stvec := Config.runtimeEntry, sscratch := 0, sepc := 0, scause := 0,
    stval := 0, sfinfo := 0, validMode := false, v := Vector.replicate 32 Chain.empty,
    p := Vector.replicate 8 0, pValid := 0, mValid := 0, tiles := [], convoy := [], convoyPc := 0,
    resv := none, release := none, phase := 0, uncleared := 0, stale := [], isProtected := false, lastArrival := [], waitSince := 0, expiredRay := [], stepping := false }

/-! ## Cores -/

/-- A translation held in a TLB (R142, R144): its partition, the virtual page, the leaf's fields. -/
structure TlbEntry where
  part : Nat
  vbase : Nat
  size : Nat
  frame : Nat
  r : Bool
  w : Bool
  x : Bool
  u : Bool
  pinned : Option Nat
  revoked : Bool
  deriving DecidableEq, Repr

/-- The Facet claim of a core (R159 to R161). -/
structure Claim where
  part : Nat
  region : Nat
  log2 : Nat
  wide : Bool
  seed : BitVec 32
  spill : Word
  head : Nat
  count : Nat
  deriving DecidableEq, Repr

/-- A range scoreboard entry (R152): the engine operation that holds it, the local range rounded out
to 64 bytes, and whether the engine writes it. -/
structure Scored where
  op : Nat
  base : Nat
  len : Nat
  writes : Bool
  deriving DecidableEq, Repr

/-- An entry of the residency table (R83). -/
structure Resident where
  base : Word
  size : Nat
  loff : Nat
  deriving DecidableEq, Repr

/-- One event-counter pair (R49). -/
structure Counter where
  sel : Word
  cnt : Word
  deriving DecidableEq, Repr

/-- An award that a core has taken and not yet dispatched (R87, R89): the Locus entry, the task, the slot it named, and what was
set aside for it. `swap` tells that the slot it named was a waiting context, `committed` is set once the Locus has received the commit. -/
structure Award where
  locus : Nat
  entry : Nat
  slot : Nat
  node : Word
  tseq : BitVec 32
  part : Nat
  region : Nat
  resume : Option Nat
  rsv : Nat
  stack : Option Nat
  frame : Option Nat
  swap : Bool
  committed : Bool
  deriving DecidableEq, Repr

/-- A core (R95): the pool, the tables and counters its contexts share. Its scratchpad lies in
`State.mem`. `used` holds the segment numbers that have been
in use since the reset (R115), `withdrawals` how many tenders ago each recent withdrawal was (R88). -/
structure Core where
  segs : List (Nat × Seg)
  nextSeg : Nat
  used : List Nat
  lost : List Nat
  lsplit : Option Nat
  resident : List Resident
  withdrawals : List Nat
  excluded : List (Nat × Nat)
  awards : List Award
  tlb : List TlbEntry
  scored : List Scored
  claim : Option Claim
  counters : Vector Counter 16
  deriving DecidableEq, Repr

/-- A core after reset (R114, R202) (log 2: DESIGN CHOICE, unsafe). -/
def Core.reset : Core :=
  { segs := [], nextSeg := 0, used := [], lost := [], lsplit := none, resident := [], withdrawals := [],
    excluded := [], awards := [], tlb := [], scored := [], claim := none,
    counters := Vector.replicate 16 { sel := 0, cnt := 0 } }

/-! ## Rays, barriers, gangs, engines -/

/-- A message on a ray (R128, R341): pieces in the receiving core's pool and the chain's TYPE. -/
structure Msg where
  type : BitVec 4
  pieces : List Piece
  deriving DecidableEq, Repr

/-- One end of a ray (R339): the thread that opened it and its handle. -/
structure RayEnd where
  thread : Nat
  handle : Nat
  mode : Nat
  target : Nat
  deriving DecidableEq, Repr

/-- A ray of a die (R339 to R343, R201): its two ends, the row cursor, the permits ever granted and the segments ever
sent, of which the difference is what the sender holds, and the segments still set aside for cross-core copies. -/
structure Ray where
  part : Nat
  key : Word
  send : Option RayEnd
  recv : Option RayEnd
  cursor : Nat
  granted : Nat
  arrived : Nat
  aside : Nat
  queue : List Msg
  deriving DecidableEq, Repr

/-- A contribution to a collective (R352). -/
structure Contribution where
  thread : Nat
  core : Nat
  slot : Nat
  op : CombOp
  vl : Nat
  vtype : BitVec 4
  bytes : List Byte
  deriving DecidableEq, Repr

/-- The result a unit holds for a contributor until it takes it (R353). -/
structure CollResult where
  thread : Nat
  phase : Nat
  status : Nat
  bytes : List Byte
  deriving DecidableEq, Repr

/-- A barrier (R347 to R350): of one die, or of the package when `die` is none. -/
structure Barrier where
  handle : Nat
  die : Option Nat
  part : Nat
  region : Nat
  expected : Nat
  phase : Nat
  arrivals : Nat
  arrived : List Nat
  registered : List Nat
  contribs : List Contribution
  plain : Bool
  results : List CollResult
  broken : Bool
  deriving DecidableEq, Repr

/-- A gang (R332). -/
structure Gang where
  num : Nat
  part : Nat
  region : Nat
  die : Nat
  rows : Nat
  cols : Nat
  cores : List Nat
  deriving DecidableEq, Repr

/-- One stretch of a row of a tile transfer (R323): the row, the address and key of its first byte, its place in the slot's tile file, its length, for a
store the tile's bytes, and for a load the zero bytes that fill the row after it. -/
structure TilePart where
  row : Nat
  addr : Word
  key : Nat
  off : Nat
  len : Nat
  data : List Byte
  fill : Nat
  deriving DecidableEq, Repr

/-- What an engine operation moves (R63, R323, R336): a copy command's far end is a stretch or the elements of a shape record, in
the space it names; a declared operand's is a stretch of global virtual memory; a tile transfer's is its rows in the space of `vmt`, up to one whose tile
bytes are in error, and the tiles it loads. -/
inductive EngineKind where
  | copy (toFar : Bool) (space : Nat) (far : Word) (loff len : Nat) (size : Nat) (dims : List (Nat × Int))
  | operand (toFar : Bool) (base : Word) (loff len : Nat)
  | tile (toFar : Bool) (space : Nat) (tiles : List Nat) (parts : List TilePart) (bad : Option Word)
  deriving DecidableEq, Repr

/-- A fault whose delivery is told by its cause, core, slot, node and address (R74). -/
structure FaultInfo where
  cause : Nat
  core : Nat
  slot : Nat
  node : Word
  detail : Word
  deriving DecidableEq, Repr

/-- An engine operation (R176): its number, issuing slot and mode, thread, node, partition and region, and its completion object
(0 for none). `stale` holds the thread's own writes that the operation's reads may miss as a later access of the issuing word's class may. `failed` is set when it has ended with a fault that no wait of its task has reported yet (R198). -/
structure EngineOp where
  num : Nat
  key : Nat
  priv : Priv
  thread : Nat
  node : Word
  part : Nat
  region : Nat
  object : Word
  kind : EngineKind
  stale : List Stale
  failed : Option FaultInfo
  deriving DecidableEq, Repr

/-- A failure still to be delivered to a region's POLICY (R72, R368). -/
structure Owed where
  part : Nat
  region : Nat
  fault : FaultInfo
  deriving DecidableEq, Repr

/-- Who issued a reduce-store or a token: partition, region, thread, core and context, node, and a number of the word's own (0 for a token). -/
structure Issuer where
  part : Nat
  region : Nat
  thread : Nat
  key : Nat
  node : Word
  word : Nat
  deriving DecidableEq, Repr

/-- An element of a write queue's entry: its key, its value, and the rounding mode captured with the last reduce-store to it (R207). -/
structure QueueElem where
  key : Nat
  value : Nat
  frm : BitVec 3
  deriving DecidableEq, Repr

/-- A line entry of a write queue (R151): the line's first key, the operation and element type of the reduce-stores
in it, their elements, and every issuer. -/
structure Pending where
  num : Nat
  line : Nat
  op : CombOp
  type : BitVec 4
  elems : List QueueElem
  issuers : List Issuer
  deriving DecidableEq, Repr

/-- A routed token on its way to an ingress unit (R345, R346): its destination die, who sent it, the expert group with its
queue capacity, the plane offsets of the group's queues and the token's scores there. -/
structure Token where
  num : Nat
  die : Nat
  issuer : Issuer
  handle : Nat
  group : Nat
  cap : Nat
  queues : List Nat
  scores : List Nat
  deriving DecidableEq, Repr

/-! ## The Locus -/

/-- The states of a Locus entry (R84); an entry that leaves is dropped from the list. An escalated entry that the hub has dispatched
waits for the news. -/
inductive EntryState where
  | waiting | tendering | awarded (core : Nat) | escalated | dispatched | held
  deriving DecidableEq, Repr

/-- A Locus entry (R78, R79, R84). A resume entry names the saved context it restores. `entered` is the
cycle of the Locus at which its age was 0, `order` its place among those of one cycle, `rises` the aging steps it has taken, `round` the tender window it is in. -/
structure Entry where
  num : Nat
  tseq : BitVec 32
  node : Word
  part : Nat
  region : Nat
  resume : Option Nat
  cls : Nat
  only : Option Nat
  submitter : Option Nat
  entered : Int
  order : Nat
  rises : Nat
  state : EntryState
  due : Bool
  round : Nat
  asked : List Nat
  answers : List (Nat × Option Int)
  leftOut : List Nat
  awardedNow : List Nat
  escalated : Option Word
  origin : Option (Nat × Nat)
  deriving DecidableEq, Repr

/-- A submission, or a context ready to resume, that waits because its Locus is full (R78); `grun` names the GRUN command that submits it,
`restart` the fault whose restart does (R69). -/
structure HeldSubmission where
  part : Nat
  region : Nat
  node : Word
  submitter : Option Nat
  resume : Option Nat
  grun : Option (Nat × BitVec 32)
  restart : Option FaultInfo
  deriving DecidableEq, Repr

/-- A Locus (R78). -/
structure Locus where
  entries : List Entry
  nextTseq : BitVec 32
  nextEntry : Nat
  heldSubs : List HeldSubmission
  deriving DecidableEq, Repr

/-! ## Dies -/

/-- A clock step in progress (R16). -/
inductive StepStage where
  | raising | relocking | lowering
  deriving DecidableEq, Repr

/-- A requested step: the target ratio, and the queue and HSEQ of every FSTEP that counts a die as done once it is carried out. -/
structure StepReq where
  ratio : Nat
  askers : List (Nat × BitVec 32)
  deriving DecidableEq, Repr

/-- The clock of a die (R15 to R21). -/
structure Clock where
  ratio : Nat
  supply : Nat
  stage : Option StepStage
  current : Option StepReq
  held : Option StepReq
  cstep : Word
  kstep : Word
  nstep : BitVec 8
  relk : Nat
  newr : Nat
  oldr : Nat
  cAtRelock : Word
  kAtRelock : Word
  oldAtRelock : Nat
  temp : Nat
  thermalSteps : Nat
  deriving DecidableEq, Repr

/-- A link port (R8 to R12, R17): E, W, V and H of a compute die; port d of the hub leads to die d. `credits` are those it may send on, `owed`
those it has to return; `acks` holds the acknowledgements owed to the partner, `waiting` the flits not yet sent, `outbox` those sent and not
acknowledged, `buffer` those received in a relock; `failures` tells when retrains failed. -/
structure Port where
  up : Bool
  down : Bool
  replays : Nat
  failures : List Nat
  seqIn : Nat
  seqOut : Nat
  credits : Nat
  owed : Nat
  acks : List (Nat × Nat)
  waiting : List (BitVec 64 × BitVec 512)
  outbox : List (BitVec 64 × BitVec 512)
  buffer : List (BitVec 64 × BitVec 512)
  inbox : List (BitVec 64 × BitVec 512)
  deriving DecidableEq, Repr

/-- An entry of an error log (R51). -/
structure LogEntry where
  refk : Word
  count : Nat
  cls : Nat
  core : Nat
  die : Nat
  seq : BitVec 32
  addr : Word
  detail : Word
  deriving DecidableEq, Repr

/-- A compute die, or the hub with only the parts it has. A die that cannot reach the hub is `held`: its cores are in reset (R12). -/
structure Die where
  released : Bool
  held : Bool
  cycle : Word
  refk : Word
  clock : Clock
  ports : Vector Port 8
  tlb : List TlbEntry
  tlbHeld : List Nat
  plane : List (Nat × (Nat × Nat))
  relClock : Vector (BitVec 32) 8
  appClock : Vector (BitVec 32) 8
  locus : Locus
  rays : List Ray
  barriers : List Barrier
  counters : List (Nat × Counter)
  log : List LogEntry
  logSeq : BitVec 32
  deriving DecidableEq, Repr

/-- A Locus with no entry; TSEQ numbers start at 1 (22: "numbers its entries TSEQ 1 upward"). -/
def Locus.reset : Locus := { entries := [], nextTseq := 1, nextEntry := 0, heldSubs := [] }

/-- A port before training (R42 step 4). -/
def Port.reset : Port :=
  { up := false, down := false, replays := 0, failures := [], seqIn := 0, seqOut := 0, credits := 0, owed := 0, acks := [],
    waiting := [], outbox := [], buffer := [], inbox := [] }

/-- A die held in reset: 1.0 GHz and 350 mV (R15), the step record of R19, counters 0 (log 2: DESIGN CHOICE, unsafe). -/
def Die.reset : Die :=
  { released := false, held := false, cycle := 0, refk := 0,
    clock := { ratio := 10, supply := 350, stage := none, current := none, held := none,
               cstep := 0, kstep := 0, nstep := 0, relk := 0, newr := 10, oldr := 10,
               cAtRelock := 0, kAtRelock := 0, oldAtRelock := 10, temp := 0, thermalSteps := 0 },
    ports := Vector.replicate 8 Port.reset, tlb := [], tlbHeld := [], plane := [],
    relClock := Vector.replicate 8 0, appClock := Vector.replicate 8 0, locus := Locus.reset,
    rays := [], barriers := [], counters := [], log := [], logSeq := 0 }

/-! ## Host queues -/

/-- QCTL.STATE (R25). -/
inductive QState where
  | disabled | running | held | stopped | draining | halted
  deriving DecidableEq, Repr

/-- A command the device has copied (R27, R30): where its QFLT entry stands, its sequence number, opcode, flags and
arguments; whether it has begun, what is left of it (FSTEP: the dies still to answer for and those replaced), and for
GRUN the partition, object and target it waits for. -/
structure Cmd where
  slot : Nat
  hseq : BitVec 32
  opc : BitVec 8
  flags : BitVec 8
  args : List Word
  begun : Bool
  left : BitVec 8
  replaced : BitVec 8
  onObject : Option (Nat × Word × Word)
  deriving DecidableEq, Repr

/-- An answer that has fallen due and is not yet emitted (R28, R31, R32). An event answer has OPC 0xFF
and names no command. -/
structure Answer where
  hseq : BitVec 32
  opc : BitVec 8
  status : BitVec 8
  r0 : Word
  r1 : Word
  event : Bool
  deriving DecidableEq, Repr

/-- A host queue's window (R24) and its commands. `holdBit` is QCTL.HOLD. -/
structure Queue where
  home : Nat
  alog2 : Nat
  slog2 : Nat
  state : QState
  holdBit : Bool
  sbase : Word
  abase : Word
  dbell : BitVec 32
  slot : BitVec 32
  acons : BitVec 32
  hseq : BitVec 32
  dseq : BitVec 32
  wdog : BitVec 32
  wleft : BitVec 32
  err : Nat
  part : Option Nat
  cmds : List Cmd
  due : List Answer
  deriving DecidableEq, Repr

/-- A queue window after reset (R24, R25). -/
def Queue.reset : Queue :=
  { home := 0, alog2 := 0, slog2 := 0, state := .disabled, holdBit := false, sbase := 0, abase := 0,
    dbell := 0, slot := 0, acons := 0, hseq := 0, dseq := 0, wdog := 0, wleft := 0, err := 0,
    part := none, cmds := [], due := [] }

/-! ## Partitions and regions -/

/-- What a drain of a partition still has to do (R38, R202). -/
inductive DrainStage where
  | operations | invalidating | answering
  deriving DecidableEq, Repr

/-- A partition (R35), with what the runtime and the Axis complex keep for it. `destroy` holds the PDESTROY commands that wait for its
drain (64 is the management port), `portDrains` how many PDRAINs of that port do; `announced` is set once the answer to its PCREATE is out (R45). -/
structure Part where
  id : Nat
  root : Word
  hbase : Nat
  hlen : Nat
  stkBase : Word
  stkN : Nat
  stkSize : Nat
  cores : List Nat
  stackSlots : List Nat
  frames : List Nat
  pages : List Nat
  backing : Nat × Nat
  tier : Nat × Nat
  drain : Option DrainStage
  expired : List Nat
  quiesced : Bool
  destroy : List (Nat × BitVec 32)
  portDrains : Nat
  announced : Bool
  deriving DecidableEq, Repr

/-- The fields of a region control block that inherit (R53, R56). -/
structure RegionFields where
  cores : Nat
  ctxs : Nat
  segs : Nat
  rsv : Nat
  facet : Nat
  plane : Nat
  prio : Nat
  policy : Nat
  wdi : Nat
  lsplit : Nat
  start : Bool
  bwin : Nat
  w : List Int
  rnode : Word
  rlim : Nat
  deriving DecidableEq, Repr

/-- A region's STATE (R53). -/
inductive RegionState where
  | active | killing | retired | retiring
  deriving DecidableEq, Repr

/-- A region (R53 to R58): effective fields, the ring it owns if it has one, and the device-owned words; `written` counts the records written to
the ring in all. -/
structure Region where
  part : Nat
  idx : Nat
  block : Word
  parent : Option Nat
  parentBlock : Word
  eff : RegionFields
  ring : Option (Word × Nat)
  state : RegionState
  rcount : Nat
  live : Nat
  outs : Nat
  segUse : Nat
  ctxUse : Nat
  coreUse : List (Nat × Nat)
  planeUse : Nat
  facetUse : Nat
  written : Nat
  elost : BitVec 32
  ehead : BitVec 32
  gerr : BitVec 32
  retirers : List (Nat × BitVec 32)
  deriving DecidableEq, Repr

/-- A context saved out to a frame (R199, R200): the parts its image does not hold, and its identity. `refilled` counts the segments that its reserve has gained
since the save, `granted` holds the permits ever granted to its send ends as the save found them, by handle. -/
structure Saved where
  num : Nat
  frame : Nat
  core : Nat
  slot : Nat
  task : Task
  reason : SaveReason
  wait : Option Wait
  ready : Bool
  chains : Vector Chain 32
  pres : Nat
  refilled : Nat
  granted : List (Nat × Nat)
  lastArrival : List (Nat × Nat)
  expiredRay : List Nat
  isProtected : Bool
  stepping : Bool
  result : Option (BitVec 5 × Word)
  deriving DecidableEq, Repr

/-- A ranged invalidation in progress (R143). -/
structure Inval where
  num : Nat
  part : Nat
  base : Nat
  len : Nat
  forced : Bool
  asker : Option Nat
  drain : Bool
  done : Bool
  deriving DecidableEq, Repr

/-- A checkpoint in progress (R40). -/
structure Checkpoint where
  q : Nat
  hseq : BitVec 32
  load : Bool
  tierOff : Nat
  parts : List Nat
  all : Bool
  copying : Bool
  deriving DecidableEq, Repr

/-- A drain that waits for a checkpoint's copy phase (R40). -/
structure WaitingDrain where
  part : Nat
  deriving DecidableEq, Repr

/-! ## The Axis complex -/

/-- BOOTST.STAGE (R42). -/
inductive BootStage where
  | rom | verifying | bringup | ready | halted
  deriving DecidableEq, Repr

/-- The key store (R44, R48): the enrolled operator keys, each with its last accepted counter, and those of keys enrolled once (R52). -/
structure KeyStore where
  keys : Option (List Byte × List Byte)
  erasing : Bool
  erasedAt : Option Word
  boots : Nat
  operators : List (List Byte × Word)
  past : List (List Byte × Word)
  deriving DecidableEq, Repr

/-- The alarm configuration and state (R46 to R48). -/
structure Alarm where
  levels : Vector (BitVec 2) 5
  locked : Bool
  tripped : BitVec 5
  deriving DecidableEq, Repr

/-- An answer sent on the management port (R52). -/
inductive MgmtAnswer where
  | refused
  | noIdentity
  | key (bytes : List Byte)
  | report (bytes : List Byte)
  | status (bootst : Word) (tripped : BitVec 5) (erasedAt : Option Word)
  | log (entries : List LogEntry)
  | counter (sel cnt : Word)
  | firmware (staged : Bool)
  | partition (status : Nat) (r0 : Word)
  | step (accepted : Bool)
  | alarm (levels : BitVec 10) (locked : Bool)
  | provisioned (accepted : Bool)
  deriving DecidableEq, Repr

/-- The Axis complex and the boot registers (R42 to R52). `windows` is set once the firmware has enabled the queue windows, `tried`
counts boot sources that failed, `answered` is set when one of them gave an image. `staged` and `stagedRuntime` wait for the next power-on reset,
`bootRuntime` is the core runtime that the reset has taken (R43). -/
structure Axis where
  stage : BootStage
  windows : Bool
  fail : Nat
  dies : BitVec 8
  bootLen : Nat
  tried : Nat
  answered : Bool
  fusedFail : Nat
  minSvn : List (Nat × Nat)
  firmware : List Byte
  staged : Option (List Byte)
  stagedRuntime : Option (List Byte)
  bootRuntime : Option (List Byte)
  runtime : List Byte
  store : KeyStore
  alarm : Alarm
  powered : Bool
  mgmt : List MgmtAnswer
  deriving DecidableEq, Repr

/-! ## The whole machine -/

/-- A bound that runs (R76, R79, R84, R89, R91, R130, R265): in the ticks or the cycles of a die, and the
step of the table that its expiry is. -/
structure Timer where
  die : Nat
  inCycles : Bool
  left : Nat
  event : Instr
  deriving DecidableEq, Repr

/-- The scale-out ports (R14): the SEQ that each expects (0 for one not listed), frames sent and not acknowledged, frames sent in all, frames' flits delivered. -/
structure Fabric where
  seqIn : List (Nat × Nat)
  unacked : List (Nat × List (BitVec 64 × BitVec 512))
  sent : List (Nat × List (BitVec 64 × BitVec 512))
  delivered : List (Nat × BitVec 16 × BitVec 64 × BitVec 512)
  deriving DecidableEq, Repr

/-- The state of the package. `agenda` holds the steps that have fallen due, each list in its order and the lists in
none. `cur` is the context whose words the next instruction step runs, `curKey`
names its slot (global core x 4 + context); the other slots stand in `parked`, and a slot not listed is
`Ctx.reset`. `cores` lists cores that are not `Core.reset`. `wall` is the time passed, in parts of a reference tick. Every byte of memory that is not zero stands in
`mem` (log 1: DESIGN CHOICE, unsafe). -/
structure State where
  cur : Ctx
  curKey : Nat
  parked : List (Nat × Ctx)
  cores : List (Nat × Core)
  dies : Vector Die 8
  hub : Die
  mem : List Host.Cell
  queues : Vector Queue 64
  parts : List Part
  regions : List Region
  saved : List Saved
  gangs : List Gang
  engines : List EngineOp
  pending : List Pending
  tokens : List Token
  invals : List Inval
  fetches : List (Nat × Nat)
  checkpoints : List Checkpoint
  waitingDrains : List WaitingDrain
  axis : Axis
  fabric : Fabric
  badCells : List (Nat × Nat)
  owed : List Owed
  nextId : Nat
  agenda : List (List Instr)
  timers : List Timer
  inputs : List Instr
  wall : Nat
  nonce : Nat
  deriving DecidableEq, Repr

/-- The machine right after power-on reset (R42): Axis core 0 in the boot ROM, every compute die held in
reset, every register at its reset value, memory with nothing listed (log 2: DESIGN CHOICE, unsafe; log 14: DESIGN CHOICE, unsafe). -/
def State.reset : State :=
  { cur := Ctx.reset, curKey := 0, parked := [], cores := [], dies := Vector.replicate 8 Die.reset,
    hub := Die.reset, mem := [], queues := Vector.replicate 64 Queue.reset, parts := [], regions := [],
    saved := [], gangs := [], engines := [], pending := [], tokens := [], invals := [], fetches := [],
    checkpoints := [], waitingDrains := [],
    axis := { stage := .rom, windows := false, fail := 0, dies := 0, bootLen := 0, tried := 0, answered := false, fusedFail := 0,
              minSvn := [], firmware := [], staged := none, stagedRuntime := none, bootRuntime := none, runtime := [],
              store := { keys := none, erasing := false, erasedAt := none, boots := 0, operators := [], past := [] },
              alarm := { levels := #v[2, 2, 2, 1, 2], locked := false, tripped := 0 },
              powered := true, mgmt := [] },
    fabric := { seqIn := [], unacked := [], sent := [], delivered := [] },
    badCells := [], owed := [], nextId := 1, agenda := [], timers := [], inputs := [], wall := 0, nonce := 0 }

/-! ## Reasons a step stops -/

/-- Why the machine stops without a next state. -/
inductive Fault where
  /-- Raised by HOST_MEMORY_WRITE when the host writes an address that the spec gives the host port
  no memory at (R13, R42). Safe: no statement about a next state covers it. -/
  | hostAddress (addr : Nat)
  deriving DecidableEq, Repr

/-- Why the model has no meaning for an instruction. -/
inductive Refusal where
  /-- Raised by `exec` for an instruction not modelled yet. Safe: nothing is claimed of it. -/
  | notModelled (mnemonic : String)
  deriving DecidableEq, Repr

/-- The outcome of a step of this machine. -/
abbrev Result := Host.Outcome State Fault Refusal

end Sys2Proof.Machine
end

