-- ==== Sys2Proof/Machine/Ops.lean ====
section
/-! DEFINITION. The named operations over the state: memory, registers, contexts, cores and dies, timers
and the agenda, event counters and logs, and taking a trap (R192 to R194) with the return from it. -/

namespace Sys2Proof.Machine

/-! ## Memory -/

/-- Memory: the bytes that differ from what an unlisted byte reads as, at strictly rising keys (log 1: DESIGN CHOICE, unsafe). -/
abbrev Memory := List Host.Cell

/-- What a byte that nothing has written reads as (log 1: DESIGN CHOICE, unsafe). -/
def unlisted : Byte := 0

/-- The canonical form: keys strictly rising from `lo`, no entry equal to an unlisted byte. -/
def wfFrom : Nat → Memory → Bool
  | _, [] => true
  | lo, (a, b) :: t => decide (lo ≤ a) && b != unlisted && wfFrom (a + 1) t

/-- The canonical form of memory (log 1: DESIGN CHOICE, unsafe). -/
def Memory.wf (m : Memory) : Bool := wfFrom 0 m

/-- One byte (log 1: DESIGN CHOICE, unsafe). -/
def getByte (k : Nat) : Memory → Byte
  | [] => unlisted
  | (a, b) :: t => if a = k then b else if k < a then unlisted else getByte k t

/-- Memory with one byte written (log 1: DESIGN CHOICE, unsafe). -/
def setByte (k : Nat) (v : Byte) : Memory → Memory
  | [] => if v = unlisted then [] else [(k, v)]
  | (a, b) :: t =>
    if a = k then (if v = unlisted then t else (k, v) :: t)
    else if k < a then (if v = unlisted then (a, b) :: t else (k, v) :: (a, b) :: t)
    else (a, b) :: setByte k v t

/-- n bytes from a key up. -/
def getBytes (k : Nat) : Nat → Memory → List Byte
  | 0, _ => []
  | n + 1, m => getByte k m :: getBytes (k + 1) n m

/-- Memory with bytes written from a key up. -/
def setBytes (k : Nat) : List Byte → Memory → Memory
  | [], m => m
  | b :: t, m => setBytes (k + 1) t (setByte k b m)

/-- Memory with a stretch set to zero. -/
def clearBytes (k n : Nat) (m : Memory) : Memory := m.filter (fun c => c.1 < k || k + n ≤ c.1)

/-- Listed bytes of a stretch, by offset from its start. -/
def sliceBytes (k n : Nat) (m : Memory) : Memory :=
  (m.filter (fun c => k ≤ c.1 && c.1 < k + n)).map (fun c => (c.1 - k, c.2))

/-! ## Where each kind of memory stands among the keys (R135, R138) -/

/-- The die of a global core number (R5). -/
def dieOf (core : Nat) : Nat := core / 48

/-- The number of a core within its die (R5). -/
def coreInDie (core : Nat) : Nat := core % 48

/-- Cores 0 to 39 of a die are D-cores (R5). -/
def isDCore (core : Nat) : Bool := decide (core % 48 < 40)

/-- 2 MiB on a D-core, 4 MiB on an S-core (R95). -/
def scratchSize (core : Nat) : Nat := if isDCore core then 0x20_0000 else 0x40_0000

/-- The key of a physical address: itself. -/
def physKey (pa : Nat) : Nat := pa

/-- The key of a byte of a die's plane memory. -/
def planeKey (die off : Nat) : Nat := 2 ^ 48 + die * 2 ^ 26 + off

/-- The key of a byte of a core's scratchpad. -/
def scratchKey (core off : Nat) : Nat := 2 ^ 49 + core * 2 ^ 22 + off

/-- The key under which an error of a slot's tile file stands in `badCells`. -/
def tileKey (slot off : Nat) : Nat := 2 ^ 51 + slot * 2 ^ 18 + off

/-- The key of a byte of the boot window (R42). -/
def bootKey (off : Nat) : Nat := 2 ^ 50 + off

/-- The key of a byte of a flash namespace (R155), 4 KiB a block. -/
def flashKey (ctrl nsid lba off : Nat) : Nat := 2 ^ 60 + ((ctrl * 2 ^ 32 + nsid) * 2 ^ 64 + lba) * 4096 + off

/-- A physical address in HBM (R138). -/
def inHbm (pa : Nat) : Bool := decide (pa < 8 * Config.hbmPerDie)

/-- A physical address in the CXL tier (R138). -/
def inTier (pa : Nat) : Bool := decide (Config.tierBase ≤ pa) && decide (pa < Config.tierBase + Config.tierSize)

/-! ## The hardware contexts, cores and dies -/

/-- The core of the focus. -/
def State.core (s : State) : Nat := s.curKey / 4

/-- The die of the focus. -/
def State.die (s : State) : Nat := dieOf s.core

/-- A context slot, by global core × 4 + context. -/
def ctxAt (s : State) (key : Nat) : Ctx :=
  if key = s.curKey then s.cur else (lookupKey key s.parked).getD Ctx.reset

/-- The state with a context slot replaced. -/
def setCtx (s : State) (key : Nat) (c : Ctx) : State :=
  if key = s.curKey then { s with cur := c } else { s with parked := insertKey key c s.parked }

/-- The state with a context slot changed. -/
def updCtx (s : State) (key : Nat) (f : Ctx → Ctx) : State := setCtx s key (f (ctxAt s key))

/-- The focus moved to a slot. -/
def focus (s : State) (key : Nat) : State :=
  if key = s.curKey then s
  else { s with cur := ctxAt s key, curKey := key, parked := eraseKey key (insertKey s.curKey s.cur s.parked) }

/-- Every context slot that the model has an entry for. -/
def ctxKeys (s : State) : List Nat := s.curKey :: s.parked.map (·.1)

/-- Every context changed. -/
def mapCtx (f : Nat → Ctx → Ctx) (s : State) : State :=
  { s with cur := f s.curKey s.cur, parked := s.parked.map (fun p => (p.1, f p.1 p.2)) }

/-- A core. -/
def coreAt (s : State) (g : Nat) : Core := (lookupKey g s.cores).getD Core.reset

/-- The state with a core replaced. -/
def setCore (s : State) (g : Nat) (c : Core) : State := { s with cores := insertKey g c s.cores }

/-- The state with a core changed. -/
def updCore (s : State) (g : Nat) (f : Core → Core) : State := setCore s g (f (coreAt s g))

/-- A die; 8 and above name the hub. -/
def dieAt (s : State) (d : Nat) : Die := if h : d < 8 then s.dies[d] else s.hub

/-- The state with a die replaced. -/
def setDie (s : State) (d : Nat) (x : Die) : State :=
  if h : d < 8 then { s with dies := s.dies.set d x } else { s with hub := x }

/-- The state with a die changed. -/
def updDie (s : State) (d : Nat) (f : Die → Die) : State := setDie s d (f (dieAt s d))

/-- A queue; a number past 63 reads as a queue after reset. -/
def queueAt (s : State) (q : Nat) : Queue := if h : q < 64 then s.queues[q] else Queue.reset

/-- The state with a queue replaced. -/
def setQueue (s : State) (q : Nat) (x : Queue) : State :=
  if h : q < 64 then { s with queues := s.queues.set q x } else s

/-- The state with a queue changed. -/
def updQueue (s : State) (q : Nat) (f : Queue → Queue) : State := setQueue s q (f (queueAt s q))

/-- A partition. -/
def partAt (s : State) (id : Nat) : Option Part := s.parts.find? (·.id == id)

/-- The state with a partition changed. -/
def updPart (s : State) (id : Nat) (f : Part → Part) : State :=
  { s with parts := s.parts.map (fun p => if p.id == id then f p else p) }

/-- A region of a partition. -/
def regionAt (s : State) (part idx : Nat) : Option Region := s.regions.find? (fun r => r.part == part && r.idx == idx)

/-- The state with a region changed. -/
def updRegion (s : State) (part idx : Nat) (f : Region → Region) : State :=
  { s with regions := s.regions.map (fun r => if r.part == part && r.idx == idx then f r else r) }

/-! ## Steps that fall due, and bounds that run -/

/-- A step of the device that has fallen due. -/
def post (e : Instr) (s : State) : State := { s with agenda := s.agenda ++ [[e]] }

/-- Steps that have fallen due one after another. -/
def postInOrder (es : List Instr) (s : State) : State := if es.isEmpty then s else { s with agenda := s.agenda ++ [es] }

/-- A step stands among those that have fallen due. -/
def isDue (s : State) (e : Instr) : Bool := s.agenda.any (·.contains e)

/-- A step falls due unless it stands there already. -/
def postOnce (e : Instr) (s : State) : State := if isDue s e then s else post e s

/-- Steps no longer due. -/
def retract (p : Instr → Bool) (s : State) : State :=
  { s with agenda := (s.agenda.map (·.filter (fun e => !p e))).filter (fun l => !l.isEmpty) }

/-- A bound that stops; its expiry, if it has fallen due, is called off. -/
def stopTimer (e : Instr) (s : State) : State := retract (· == e) { s with timers := s.timers.filter (fun t => t.event != e) }

/-- A bound that starts to run; an earlier one of the same step is replaced (log 23: DESIGN CHOICE, safe). -/
def startTimer (die : Nat) (inCycles : Bool) (ticks : Nat) (e : Instr) (s : State) : State :=
  let s := stopTimer e s
  { s with timers := s.timers ++ [{ die := die, inCycles := inCycles, left := ticks, event := e }] }

/-- A bound, and its expiry if that has fallen due, go on under the name of another step. -/
def renameTimer (e f : Instr) (s : State) : State :=
  { s with timers := s.timers.map (fun t => if t.event == e then { t with event := f } else t),
           agenda := s.agenda.map (·.map (fun x => if x == e then f else x)) }

/-- A number of the model's own that nothing else bears. -/
def freshId (s : State) : Nat × State := (s.nextId, { s with nextId := s.nextId + 1 })

/-- A free value's argument: the nonce with an index within the step (log 6: DESIGN CHOICE, safe). -/
def freeIndex (s : State) (i : Nat) : Nat := s.nonce * 2 ^ 32 + i

/-! ## Event counters and error logs (R49 to R51) -/

/-- A counter that selects the event advances by n, and OVF is set when it wraps. -/
def countIn (n : Nat) (c : Counter) : Counter :=
  let t := c.cnt.toNat + n
  { sel := if t < 2 ^ 64 then c.sel else c.sel ||| (1#64 <<< 63), cnt := BitVec.ofNat 64 t }

/-- A counter counts an event of a context: EN, EVENT, and MODE and CTXM (R49). -/
def countsCtx (code slot : Nat) (priv : Priv) (c : Counter) : Bool :=
  let e := c.sel.toNat
  bit e 62 && bits e 11 0 == code && bit e (56 + slot) &&
    (match bits e 61 60, priv with
     | 0, _ => true
     | 1, .u => true
     | 2, .s => true
     | _, _ => false)

/-- n events of a context are counted on its core; where no counter counts them nothing changes. -/
def countEvent (code n key : Nat) (s : State) : State :=
  let c := ctxAt s key
  if !(coreAt s (key / 4)).counters.toList.any (countsCtx code (key % 4) c.priv) then s else
  updCore s (key / 4) (fun k => { k with counters := k.counters.map (fun x => if countsCtx code (key % 4) c.priv x then countIn n x else x) })

/-- n events that belong to no context are counted on a core: CTXM and MODE are not consulted. -/
def countCore (code n g : Nat) (s : State) : State :=
  updCore s g (fun k => { k with counters := k.counters.map (fun x =>
    if bit x.sel.toNat 62 && bits x.sel.toNat 11 0 == code then countIn n x else x) })

/-- n events of a die, hub included, are counted in its own pairs. -/
def countDie (code n d : Nat) (s : State) : State :=
  updDie s d (fun x => { x with counters := x.counters.map (fun p =>
    if bit p.2.sel.toNat 62 && bits p.2.sel.toNat 11 0 == code then (p.1, countIn n p.2) else p) })

/-- CORE of a log entry: the number within the die, or 0xFF for the die. -/
def logCore (core : Option Nat) : Nat := match core with | some g => coreInDie g | none => 0xFF

/-- A field of a log entry that the spec gives no value (log 12: DESIGN CHOICE, safe): an ADDR, a syndrome. -/
def openField (s : State) : Word := Config.word (freeIndex s 9)

/-- A new entry of a die's error log; the ring keeps the newest 4,096 (R51). -/
def logError (d cls : Nat) (core : Option Nat) (addr detail : Word) (s : State) : State :=
  updDie s d (fun x =>
    let e : LogEntry := { refk := x.refk, count := 1, cls := cls, core := logCore core, die := d, seq := x.logSeq, addr := addr, detail := detail }
    { x with log := (x.log ++ [e]).drop (x.log.length + 1 - 4096), logSeq := x.logSeq + 1 })

/-- A corrected error is merged into the newest entry of the same die, core, class and 64 KiB that is less
than 100,000 ticks old (R51). -/
def logCorrected (d : Nat) (core : Option Nat) (addr detail : Word) (s : State) : State :=
  let x := dieAt s d
  let same (e : LogEntry) : Bool := e.cls == 2 && e.core == logCore core && e.die == d && e.addr.toNat / 65536 == addr.toNat / 65536
  match (x.log.reverse.find? same) with
  | none => logError d 2 core addr detail s
  | some e =>
    if x.refk.toNat - e.refk.toNat < 100000 then
      setDie s d { x with log := x.log.map (fun f => if f.seq == e.seq then { f with count := min 255 (f.count + 1) } else f) }
    else logError d 2 core addr detail s

/-! ## Registers of a context -/

/-- A scalar register; x0 reads 0 (R245). -/
def getX (c : Ctx) (r : BitVec 5) : Word := if r = 0 then 0 else c.x[r.toNat]'(r.isLt)

/-- A write of a scalar register; x0 keeps 0. -/
def setX (r : BitVec 5) (v : Word) (c : Ctx) : Ctx := if r = 0 then c else { c with x := c.x.set r.toNat v r.isLt }

/-- A scalar register of the focus. -/
def rx (s : State) (r : BitVec 5) : Word := getX s.cur r

/-- A write of a scalar register of the focus. -/
def wx (r : BitVec 5) (v : Word) (s : State) : State := { s with cur := setX r v s.cur }

/-- A scalar word of the focus retires (event 0x002), and the focus goes on to the next word. -/
def next4 (s : State) : State :=
  let s := countEvent 0x002 1 s.curKey s
  { s with cur := { s.cur with pc := s.cur.pc + 4 } }

/-- A scalar word of the focus retires, and the focus goes on at an address. -/
def jumpTo (a : Word) (s : State) : State :=
  let s := countEvent 0x002 1 s.curKey s
  { s with cur := { s.cur with pc := a } }

/-- Flags of `fflags` raised; they are sticky (R207). -/
def raiseFlags (f : BitVec 5) (c : Ctx) : Ctx := { c with fflags := c.fflags ||| f }

/-- Flags of `vflags` raised (R271). -/
def raiseVFlags (f : BitVec 4) (c : Ctx) : Ctx := { c with vflags := c.vflags ||| f }

/-- SHORT, COMP, SAT and SPEC of `vflags` (R271) (log 42: DEDUCED, unsafe). -/
def vShort : BitVec 4 := 1#4
def vComp : BitVec 4 := 2#4
def vSat : BitVec 4 := 4#4
def vSpec : BitVec 4 := 8#4

/-! ## Traps (R192 to R194) -/

/-- What an access does, as ACCESS of `sfinfo` numbers it (R193). -/
inductive Access where
  | fetch | load | store | atomic | reduce | alloc | data | decode
  deriving DecidableEq, Repr

/-- The number of an access kind. -/
def accessCode : Access → Nat
  | .fetch => 0 | .load => 1 | .store => 2 | .atomic => 3 | .reduce => 4 | .alloc => 5 | .data => 6 | .decode => 7

/-- `sfinfo` from its fields: UNIT 0 scalar, 1 vector, 2 matrix, 3 Facet; SPACE 7 for a scalar access (log 15: DESIGN CHOICE, unsafe). -/
def sfinfoOf (ff : Bool) (unit space : Nat) (a : Access) : BitVec 9 :=
  BitVec.ofNat 9 ((if ff then 256 else 0) + unit * 64 + space * 8 + accessCode a)

/-- A trap about to be taken: its class, `stval` and `sfinfo`. -/
structure Trap where
  code : Nat
  tval : Word
  info : BitVec 9
  deriving DecidableEq, Repr

/-- Taking a trap: `sepc`, `scause`, `stval` and `sfinfo` are written, SPP keeps the mode, the context enters S mode
at its `stvec`, and the words of an open convoy are discarded (R194, R98) (log 14: DESIGN CHOICE, unsafe). -/
def enterTrap (t : Trap) (epc : Word) (c : Ctx) : Ctx :=
  { c with sepc := epc &&& ~~~3#64, scause := BitVec.ofNat 64 t.code, stval := t.tval, sfinfo := t.info,
           spp := (match c.priv with | .s => true | .u => false), priv := .s, pc := c.stvec, convoy := [] }

/-- `sret`: the mode SPP names, SPP cleared, on at `sepc` (R194, R273). -/
def leaveTrap (c : Ctx) : Ctx :=
  { c with priv := (if c.spp then .s else .u), spp := false, pc := c.sepc }

/-- A context stands at the entry of the core runtime with a trap of a class (R367) (log 14: DESIGN CHOICE, unsafe). -/
def atRuntime (c : Ctx) (code : Nat) : Bool :=
  c.state == .running && c.priv == .s && c.pc == Config.runtimeEntry && c.scause == BitVec.ofNat 64 code

/-- The save frames a partition still has free (log 10: DESIGN CHOICE, safe). -/
def freeFrames (s : State) (part : Nat) : List Nat := match partAt s part with | some p => p.frames | none => []

/-- A save into a frame begins (R200): the context stops at its oldest convoy, and the save's steps fall due. -/
def saveInto (key : Nat) (reason : SaveReason) (w : Option Wait) (f : Nat) (s : State) : State :=
  let s := updCtx s key (fun c => { c with state := .saving reason w f, pc := (if c.convoy.isEmpty then c.pc else c.convoyPc), convoy := [] })
  post (.saveOwedWritesDelivered key) s

/-- A save begins with a frame of the partition's list; without a free frame nothing changes. -/
def beginSave (key : Nat) (reason : SaveReason) (w : Option Wait) (s : State) : State :=
  match (ctxAt s key).task with
  | none => s
  | some t =>
    match freeFrames s t.part with
    | [] => s
    | f :: _ => saveInto key reason w f (updPart s t.part (fun p => { p with frames := p.frames.drop 1 }))

/-- The page service takes a fault on a page (R154); faults on a page already being fetched join that fetch. -/
def fetchPage (part page : Nat) (s : State) : State :=
  if s.fetches.contains (part, page) then s
  else post (.pageFetchComplete part page true) { s with fetches := s.fetches ++ [(part, page)] }

/-- The cycle count of a slot's die. -/
def cycleOf (s : State) (key : Nat) : Nat := (dieAt s (dieOf (key / 4))).cycle.toNat

/-- A remote-page fault of a plain access does not enter `stvec`: `scause`, `stval` and `sfinfo` are recorded, the page service fetches
the page, and the context is swapped out, or waits in its slot when no save frame is free (R112, R154, R194). -/
def remotePage (t : Trap) (epc : Word) (key : Nat) (s : State) : State :=
  let part := match (ctxAt s key).task with | some k => k.part | none => 0
  let page := t.tval.toNat / 65536
  let s := countEvent 0x051 1 key s
  let s := updCtx s key (fun c => { c with scause := BitVec.ofNat 64 t.code, stval := t.tval, sfinfo := t.info, pc := epc, convoy := [], state := .waiting (.page part page), waitSince := cycleOf s key })
  beginSave key .page (some (.page part page)) (fetchPage part page s)

/-- The code of an access that must wait because it needs a die TLB which a ranged invalidation holds: it is no fault, and the word comes again (R143). -/
def heldCode : Nat := 64

/-- An access whose translation failed looked its page up in the core TLB first, and counts the miss (R142). -/
def countMiss (t : Trap) (s : State) : State :=
  let space := t.info.toNat / 8 % 8
  let part := match s.cur.task with | some k => k.part | none => 2 ^ 64
  if 26 ≤ t.code && t.code ≤ 29 && t.info.toNat % 8 < 5 && (space == 0 || space == 4 || space == 7) && t.tval.toNat < 2 ^ 47 &&
      !(coreAt s s.core).tlb.any (fun e => e.part == part && e.vbase ≤ t.tval.toNat && t.tval.toNat < e.vbase + e.size)
  then countEvent 0x050 1 s.curKey s else s

/-- A fault of the focus at a word: a trap, or the page service's for a remote page; an access that must wait changes nothing (R143). -/
def raiseAt (t : Trap) (epc : Word) (s : State) : State :=
  if t.code = heldCode then s else
  let s := countMiss t s
  if t.code = 27 then remotePage t epc s.curKey s else { s with cur := enterTrap t epc s.cur }

/-- A fault of the word at the pc (log 15: DESIGN CHOICE, unsafe). -/
def raise (t : Trap) (s : State) : State := raiseAt t s.cur.pc s

/-- SPACE of a check that is no memory access: 7 on the scalar unit, open elsewhere (log 15: DESIGN CHOICE, unsafe). -/
def checkSpace (s : State) (unit : Nat) : Nat := if unit = 0 then 7 else (Config.openSpace s.nonce).toNat

/-- A trap of a check that is no memory access (log 15: DESIGN CHOICE, unsafe). -/
def checkTrap (s : State) (code : Nat) (tval : Word) (unit : Nat) (a : Access) : Trap :=
  { code := code, tval := tval, info := sfinfoOf false unit (checkSpace s unit) a }

/-- The trap of `ecall` and of `ebreak`, whose ACCESS R193 does not state (log 15: DESIGN CHOICE, unsafe). -/
def callTrap (s : State) (code : Nat) (tval : Word) : Trap :=
  { code := code, tval := tval, info := sfinfoOf false 0 7 .fetch ||| ((openField s).extractLsb' 0 3).setWidth 9 }

/-- An illegal encoding of the word at the pc, found at decode (R195, R234). -/
def illegal (word : Word32) (unit : Nat) (s : State) : State := raise (checkTrap s 2 (word.setWidth 64) unit .decode) s

/-- A word whose unit the core has not (R96) (log 58: DESIGN CHOICE, unsafe). -/
def unavailable (word : Word32) (unit : Nat) (s : State) : State := raise (checkTrap s 25 (word.setWidth 64) unit .decode) s

/-! ## Writes and what they end -/

/-- A write reaches the 64-byte blocks of its bytes: every reservation there ends, but for the writer's own scalar
writes (R265). -/
def breakReservations (own : Option Nat) (key n : Nat) (s : State) : State :=
  mapCtx (fun k c => match c.resv with
    | some b => if some k != own && key / 64 ≤ b && b ≤ (key + n - 1) / 64 then { c with resv := none } else c
    | none => c) s

/-- What an own write's bytes held before is past where another's write has followed it (R182 rules 2 and 3). -/
def scrubEntry (key n : Nat) (e : Stale) : Stale :=
  if key < e.key + e.old.length && e.key < key + n then
    { e with old := e.old.mapIdx (fun i b => if key ≤ e.key + i && e.key + i < key + n then none else b) }
  else e

/-- A write has followed, in coherence order, every own write that a context or an engine operation may still miss; the writer's own are left out. -/
def scrubStale (own : Option Nat) (key n : Nat) (s : State) : State :=
  let s := mapCtx (fun k c => if c.stale.isEmpty || some k == own then c else { c with stale := c.stale.map (scrubEntry key n) }) s
  { s with engines := s.engines.map (fun o => { o with stale := o.stale.map (scrubEntry key n) }) }

/-- Bytes written to memory by an agent other than a context's scalar unit (log 22: DESIGN CHOICE, unsafe). -/
def writeMem (key : Nat) (bs : List Byte) (s : State) : State :=
  breakReservations none key bs.length (scrubStale none key bs.length { s with mem := setBytes key bs s.mem })

/-- An uncorrectable error stands in a stretch (R197). -/
def hasError (key n : Nat) (s : State) : Bool := s.badCells.any (fun b => b.1 < key + n && key < b.1 + b.2)

/-! ## Release clocks (R184) -/

/-- The release clock of a die steps (log 50: DEDUCED, unsafe). -/
def stepClock (d : Nat) (s : State) : State :=
  updDie s d (fun x => { x with relClock := x.relClock.mapIdx (fun i v => if i = d then v + 1 else v) })

/-- A die has applied every write that the release clocks cover. -/
def joinClocks (d : Nat) (s : State) : State :=
  updDie s d (fun x => { x with appClock := x.appClock.mapIdx (fun i _ => (dieAt s i).relClock.toList.getD i 0) })

end Sys2Proof.Machine
end

