-- ==== Sys2Proof/Machine/Translate.lean ====
section
/-! DEFINITION. Where an access goes (R135 to R144): the spaces of `vmt`, the scalar windows, the page
walk, the TLBs with pins and revoked markers, and the faults each can raise. -/

namespace Sys2Proof.Machine

/-- Who makes an access: its slot, the partition and region of its task, its mode. -/
structure Who where
  key : Nat
  part : Nat
  region : Nat
  priv : Priv
  deriving DecidableEq, Repr

/-- Who a context is; a context without a task belongs to no partition. -/
def whoAt (s : State) (key : Nat) : Who :=
  let c := ctxAt s key
  match c.task with
  | some t => { key := key, part := t.part, region := t.region, priv := c.priv }
  | none => { key := key, part := 2 ^ 64, region := 0, priv := c.priv }

/-- Who the focus is. -/
def who (s : State) : Who := whoAt s s.curKey

/-- A region and its ancestors, nearest first. -/
def lineage (s : State) (part : Nat) : Nat → Nat → List Nat
  | 0, _ => []
  | fuel + 1, idx =>
    match regionAt s part idx with
    | none => [idx]
    | some r => match r.parent with
      | none => [idx]
      | some p => idx :: lineage s part fuel p

/-- A region with its ancestors. -/
def ancestry (s : State) (part idx : Nat) : List Nat := lineage s part (s.regions.length + 1) idx

/-! ## The page walk (R139, R140) -/

/-- An 8-byte table entry. -/
def readEntry (s : State) (pa : Nat) : Nat := natOf (getBytes (physKey pa) 8 s.mem)

/-- A reserved field of an entry is nonzero, or SIZE is 3, or W without R, or V is 0 (R140). -/
def badEntry (e : Nat) : Bool :=
  !bit e 0 || bits e 63 60 != 0 || bits e 57 48 != 0 || bits e 15 9 != 0 || bit e 7 || bit e 1 ||
    bits e 59 58 == 3 || (bit e 4 && !bit e 3)

/-- FRAME as a physical address. -/
def frameOf (e : Nat) : Nat := bits e 47 16 * 65536

/-- What a walk finds: a leaf with its page's size and first virtual address, or no leaf. -/
inductive Walk where
  | missing
  | leaf (entry size vbase : Nat)
  deriving DecidableEq, Repr

/-- The walk of a virtual address below 2^47 (R139, R140). -/
def walk (s : State) (hbase va : Nat) : Walk :=
  let e1 := readEntry s (hbase + bits va 47 42 * 8)
  if badEntry e1 || bit e1 2 then .missing else
  let t2 := frameOf e1
  let i2 := bits va 41 29
  let e2 := readEntry s (t2 + i2 * 8)
  if badEntry e2 then .missing else
  if bit e2 2 then
    let a := readEntry s (t2 + i2 / 2 * 2 * 8)
    let b := readEntry s (t2 + (i2 / 2 * 2 + 1) * 8)
    if bits e2 59 58 == 2 && a == e2 && b == e2 && frameOf e2 % 2 ^ 30 == 0 && !bit e2 8 then .leaf e2 (2 ^ 30) (va / 2 ^ 30 * 2 ^ 30)
    else .missing
  else
    let t3 := frameOf e2
    let i3 := bits va 28 16
    let e3 := readEntry s (t3 + i3 * 8)
    if badEntry e3 || !bit e3 2 then .missing else
    match bits e3 59 58 with
    | 0 => .leaf e3 65536 (va / 65536 * 65536)
    | 1 =>
      let run := (upTo 32).map (fun j => readEntry s (t3 + (i3 / 32 * 32 + j) * 8))
      if run.all (· == e3) && frameOf e3 % 2 ^ 21 == 0 && !bit e3 8 then .leaf e3 (2 ^ 21) (va / 2 ^ 21 * 2 ^ 21) else .missing
    | _ => .missing

/-- A physical range lies in the partition's share of HBM or its part of the tier (R138). -/
def inShare (p : Part) (pa size : Nat) : Bool :=
  (decide (p.hbase ≤ pa) && decide (pa + size ≤ p.hbase + p.hlen)) ||
    (decide (Config.tierBase + p.tier.1 ≤ pa) && decide (pa + size ≤ Config.tierBase + p.tier.1 + p.tier.2))

/-- The translation that a walk yields, or the class of its fault: missing, remote page, permission (R138, R140). -/
def walkEntry (s : State) (p : Part) (va : Nat) : Except Nat TlbEntry :=
  match walk s p.hbase va with
  | .missing => .error 26
  | .leaf e size vbase =>
    if bit e 8 then .error 27
    else if !(inHbm (frameOf e) || inTier (frameOf e)) then .error 26
    else if !inShare p (frameOf e) size then .error 29
    else .ok { part := p.id, vbase := vbase, size := size, frame := frameOf e, r := bit e 3, w := bit e 4, x := bit e 5, u := bit e 6, pinned := none, revoked := false }

/-! ## TLBs (R141 to R144) -/

/-- An entry covers a virtual address of a partition. -/
def covers (part va : Nat) (t : TlbEntry) : Bool := t.part == part && decide (t.vbase ≤ va) && decide (va < t.vbase + t.size)

/-- An entry overlaps a range of a partition. -/
def overlapsRange (part base len : Nat) (t : TlbEntry) : Bool :=
  t.part == part && decide (t.vbase < base + len) && decide (base < t.vbase + t.size)

/-- What the mode and the kind of access ask of an entry (R140). -/
def permits (priv : Priv) (a : Access) (t : TlbEntry) : Bool :=
  (match priv with | .u => t.u | .s => true) &&
  (match a with
   | .fetch => t.x
   | .load => t.r
   | .store => t.w
   | .atomic | .reduce => t.r && t.w
   | _ => true)

/-- Where a translation came from: the core TLB, or behind it. -/
inductive Source where
  | core | behind
  deriving DecidableEq, Repr

/-- The entry that translates an address for a core: its TLB, the die TLB (a revoked marker faults with class 28; while an invalidation
holds it, the access waits), the walk (R142, R143) (log 16: DESIGN CHOICE, safe). -/
def translation (s : State) (core part va : Nat) : Except Nat (TlbEntry × Source) :=
  if 2 ^ 47 ≤ va then .error 26 else
  match (coreAt s core).tlb.find? (covers part va) with
  | some t => .ok (t, .core)
  | none =>
    if !(dieAt s (dieOf core)).tlbHeld.isEmpty then .error heldCode else
    match partAt s part with
    | none => .error 26
    | some p =>
      let walked : Except Nat (TlbEntry × Source) := match walkEntry s p va with | .ok t => .ok (t, .behind) | .error f => .error f
      match (dieAt s (dieOf core)).tlb.find? (covers part va) with
      | none => walked
      | some t =>
        if t.revoked then .error 28
        else if t.pinned.isSome then .ok ({ t with pinned := none }, .behind)
        else if Config.evicted s.nonce t.vbase then walked
        else .ok (t, .behind)

/-- Room in a die TLB of 16,384 entries: the oldest that is neither pinned nor a marker goes from a full one (log 16: DESIGN CHOICE, safe). -/
def dropOldest (l : List TlbEntry) : List TlbEntry :=
  if l.length < 16384 then l else l.eraseP (fun t => t.pinned.isNone && !t.revoked)

/-- A use of a translation: most recent first in the core TLB, 256 entries; a miss counts event 0x050 and fills the
die TLB too (R141, R142) (log 16: DESIGN CHOICE, safe). -/
def useEntry (key : Nat) (t : TlbEntry) (src : Source) (s : State) : State :=
  let g := key / 4
  let s := updCore s g (fun c => { c with tlb := (t :: c.tlb.filter (fun u => !(u.part == t.part && u.vbase == t.vbase))).take 256 })
  match src with
  | .core => s
  | .behind =>
    let s := countEvent 0x050 1 key s
    updDie s (dieOf g) (fun d => if d.tlb.any (fun u => u.part == t.part && u.vbase == t.vbase) then d else { d with tlb := dropOldest d.tlb ++ [t] })

/-! ## Local ranges (R136) -/

/-- The claimed Facet area of a core: its offset and length (R159). -/
def facetArea (s : State) (core : Nat) : Option (Nat × Nat) :=
  (coreAt s core).claim.map (fun c => (scratchSize core - 2 ^ c.log2, 2 ^ c.log2))

/-- An offset lies within the claimed Facet area of a core (R136, R160). -/
def inFacet (s : State) (core off : Nat) : Bool :=
  match facetArea s core with
  | some (b, n) => decide (b ≤ off) && decide (off < b + n)
  | none => false

/-- An offset in the own die's plane memory: its key, or missing, or permission (R135, R136, R150). -/
def planePlace (s : State) (w : Who) (off : Nat) : Except Nat Nat :=
  let d := dieOf (w.key / 4)
  if 2 ^ 26 ≤ off then .error 26 else
  match lookupKey (off / 65536) (dieAt s d).plane with
  | some (p, r) => if p == w.part && (ancestry s w.part w.region).contains r then .ok (planeKey d off) else .error 29
  | none => .error 29

/-- An offset in the own scratchpad (R135, R136) (log 26: DEDUCED, unsafe). -/
def scratchPlace (s : State) (core off : Nat) : Except Nat Nat :=
  if scratchSize core ≤ off then .error 26 else if inFacet s core off then .error 29 else .ok (scratchKey core off)

/-- An offset in the scratchpad of a core of the own die (R135, R136) (log 26: DEDUCED, unsafe). -/
def remotePlace (s : State) (w : Who) (off : Nat) : Except Nat Nat :=
  let g := w.key / 4
  let k := bits off 31 26
  if 2 ^ 32 ≤ off || bits off 25 22 != 0 || 48 ≤ k then .error 26 else
  let t := dieOf g * 48 + k
  if scratchSize t ≤ bits off 21 0 then .error 26
  else if !(match partAt s w.part with | some p => p.cores.contains t | none => false) then .error 29
  else scratchPlace s t (bits off 21 0)

/-! ## Where an access goes -/

/-- What an address names. -/
inductive Place where
  | mem (key : Nat)
  | queueReg (q off : Nat)
  | stub
  deriving DecidableEq, Repr

/-- A virtual access through the page tables, with the entry it used. `tier` asks for the CXL tier (R135, `vmt` 4);
atomics and reduce-stores may not reach the tier (R264, R313) (log 57: DEDUCED, unsafe). -/
def virtualPlace (s : State) (w : Who) (a : Access) (tier : Bool) (va : Nat) : Except Nat (Nat × TlbEntry × Source) :=
  match translation s (w.key / 4) w.part va with
  | .error f => .error f
  | .ok (t, src) =>
    let pa := t.frame + (va - t.vbase)
    if !permits w.priv a t then .error 29
    else if tier && !inTier pa then .error 29
    else if (a == .atomic || a == .reduce) && inTier pa then .error 29
    else .ok (physKey pa, t, src)

/-- Where a scalar access goes (R137): a window of the upper half, or the page tables (log 57: DEDUCED, unsafe). -/
def scalarPlace (s : State) (w : Who) (a : Access) (va : Nat) : Except Nat (Place × Option (TlbEntry × Source)) :=
  let off := va % 2 ^ 32
  let local' (r : Except Nat Nat) : Except Nat (Place × Option (TlbEntry × Source)) :=
    if a == .fetch then .error 26 else match r with | .ok k => .ok (.mem k, none) | .error f => .error f
  match va / 2 ^ 32 with
  | 0xFFFFFF00 => local' (planePlace s w off)
  | 0xFFFFFF01 => local' (scratchPlace s (w.key / 4) off)
  | 0xFFFFFF02 => local' (remotePlace s w off)
  | 0xFFFFFF03 =>
    if a == .fetch || off < 0x10_0000 || 0x14_0000 ≤ off then .error 26
    else if a == .atomic then .error 29
    else
      let q := (off - 0x10_0000) / 0x1000
      if q != 0 && (queueAt s q).part == some w.part then .ok (.queueReg q (off % 0x1000), none) else .error 29
  | 0xFFFFFF04 => if a != .fetch then .error 29 else if off < 4 then .ok (.stub, none) else .error 26
  | _ => match virtualPlace s w a false va with | .ok (k, t, src) => .ok (.mem k, some (t, src)) | .error f => .error f

/-- Where a vector, matrix or engine access goes in a space of `vmt` (R135, R136) (log 26: DEDUCED, unsafe). -/
def spacePlace (s : State) (w : Who) (vmt : Nat) (a : Access) (addr : Nat) : Except Nat (Nat × Option (TlbEntry × Source)) :=
  let plain (r : Except Nat Nat) : Except Nat (Nat × Option (TlbEntry × Source)) := match r with | .ok k => .ok (k, none) | .error f => .error f
  match vmt with
  | 1 => plain (planePlace s w addr)
  | 2 => plain (scratchPlace s (w.key / 4) addr)
  | 3 => plain (remotePlace s w addr)
  | v => match virtualPlace s w a (v == 4) addr with | .ok (k, t, src) => .ok (k, some (t, src)) | .error f => .error f

/-- The translations a word used, entered into the TLBs. -/
def useEntries (key : Nat) (l : List (TlbEntry × Source)) (s : State) : State :=
  l.foldl (fun s p => useEntry key p.1 p.2 s) s

/-! ## The range scoreboard and scopes -/

/-- An access of a scratchpad stalls while it overlaps an entry and one of the two writes (R152). -/
def scoreboardStalls (s : State) (key n : Nat) (writes : Bool) : Bool :=
  decide (2 ^ 49 ≤ key) && decide (key < 2 ^ 50) &&
    (let g := (key - 2 ^ 49) / 2 ^ 22
     let off := (key - 2 ^ 49) % 2 ^ 22
     (coreAt s g).scored.any (fun e => (writes || e.writes) && decide (e.base < off + n) && decide (off < e.base + e.len)))

/-- A key lies in a space that a fence of the scope orders, for a core (R177). -/
def inScope (sc : Scope) (core key : Nat) : Bool :=
  let own := decide (scratchKey core 0 ≤ key) && decide (key < scratchKey (core + 1) 0)
  let d := dieOf core
  let dieSpaces := (decide (planeKey d 0 ≤ key) && decide (key < planeKey (d + 1) 0)) ||
    (decide (scratchKey (d * 48) 0 ≤ key) && decide (key < scratchKey (d * 48 + 48) 0))
  match sc with
  | .core => own
  | .die => dieSpaces
  | .pkg => dieSpaces || inHbm key
  | .sys => true

/-! ## Reads and writes of one thread (R178) -/

/-- What reads a byte: the scalar unit, a vector or matrix word, or instruction fetch. -/
inductive Reader where
  | scalar | vector | fetch
  deriving DecidableEq, Repr

/-- An own write has been performed for a class of reads, whatever fences there were: reads of the class may have returned it (log 7: DESIGN CHOICE, unsafe). -/
def returned (nonce : Nat) (r : Reader) (e : Stale) : Bool :=
  match r with
  | .scalar => decide (e.born + Config.lag e.born e.key 0 ≤ nonce)
  | .vector | .fetch => Config.wavers e.born e.key || decide (e.born + Config.lag e.born e.key 1 ≤ nonce)

/-- An own write that a reader may still miss: no fence orders it before the class (log 7: DESIGN CHOICE, unsafe). -/
def missable (r : Reader) (e : Stale) : Bool :=
  match r with | .scalar => e.toScalar | .vector => e.toVector | .fetch => e.toFetch

/-- Reads of a class return an own write, or may have returned it (log 7: DESIGN CHOICE, unsafe). -/
def seenBy (nonce : Nat) (r : Reader) (e : Stale) : Bool := !missable r e || returned nonce r e

/-- A read misses an own write: a scalar one until the write is performed for the class, and never again (R182 rule 3); a vector read or a fetch, of which no
order is given, perhaps by turns (log 7: DESIGN CHOICE, unsafe). -/
def missesNow (s : State) (r : Reader) (key depth : Nat) (e : Stale) : Bool :=
  missable r e && (!returned s.nonce r e || (r != .scalar && Config.wavers e.born e.key && Config.misses (freeIndex s depth) key))

/-- What a byte held before an own write, where that can still be read. -/
def oldByte (e : Stale) (key : Nat) : Option Byte := if key < e.key then none else (e.old[key - e.key]?).join

/-- A byte as a reader sees it: of the own writes to it, newest first, those that it misses are passed over, down to the first
that it does not (log 7: DESIGN CHOICE, unsafe). `cur` is what the byte holds after the write at hand. -/
def seeFrom (s : State) (r : Reader) (key : Nat) : List Stale → Nat → Byte → Byte
  | [], _, cur => cur
  | e :: t, depth, cur =>
    match oldByte e key with
    | some o => if missesNow s r key depth e then seeFrom s r key t (depth + 1) o else cur
    | none => seeFrom s r key t depth cur

/-- n bytes as a reader sees them beside a list of own writes (log 7: DESIGN CHOICE, unsafe). -/
def seeBeside (s : State) (l : List Stale) (r : Reader) (key n : Nat) : List Byte :=
  if l.isEmpty then getBytes key n s.mem else (upTo n).map (fun i => seeFrom s r (key + i) l 0 (getByte (key + i) s.mem))

/-- A core's scratchpad: local ranges, whose order with the engines the range scoreboard keeps (R152). -/
def isScratch (key : Nat) : Bool := decide (2 ^ 49 ≤ key) && decide (key < 2 ^ 50)

/-- n bytes as a reader of the focus sees them (log 7: DESIGN CHOICE, unsafe). -/
def seeBytes (s : State) (r : Reader) (key n : Nat) : List Byte := seeBeside s s.cur.stale r key n

/-- An older write of the thread that no fence orders before a write of a class, and that no scalar read has returned before a scalar write (R178). -/
def mayYield (s : State) (vec : Bool) (e : Stale) : Bool :=
  e.yields && !(e.fresh && e.born == s.nonce) && (if vec then e.toVector else !seenBy s.nonce .scalar e)

/-- A byte of a write performed before an older write of its thread: it stands where that write's old byte stood. None where it is performed after all of
them (log 7: DESIGN CHOICE, unsafe). -/
def slipByte (s : State) (vec : Bool) (first key : Nat) (b : Byte) : List Stale → Nat → Option (List Stale)
  | [], _ => none
  | e :: t, depth =>
    match oldByte e key with
    | none => (slipByte s vec first key b t depth).map (e :: ·)
    | some _ =>
      if mayYield s vec e && Config.overtakes (freeIndex s depth) first then
        match slipByte s vec first key b t (depth + 1) with
        | some t' => some (e :: t')
        | none => some ({ e with old := setAt e.old (key - e.key) (some b) } :: t)
      else none

/-- The bytes of a write of the focus, from a key up: memory and the own writes after it, and what each byte held before, or none where the write went
behind an older one (log 7: DESIGN CHOICE, unsafe). -/
def landBytes (s : State) (vec : Bool) (first : Nat) : Nat → List Byte → Memory × List Stale → Memory × List Stale × List (Option Byte)
  | _, [], (m, l) => (m, l, [])
  | key, b :: t, (m, l) =>
    match slipByte s vec first key b l 0 with
    | some l' => let r := landBytes s vec first (key + 1) t (m, l'); (r.1, r.2.1, none :: r.2.2)
    | none => let r := landBytes s vec first (key + 1) t (setByte key b m, l); (r.1, r.2.1, some (getByte key m) :: r.2.2)

/-- A store of the focus: bytes written, reservations ended, and what later accesses of the thread may miss until a fence
or a release (R178) (log 7: DESIGN CHOICE, unsafe). -/
def storeOwn (vec : Bool) (addr key : Nat) (bs : List Byte) (s : State) : State :=
  let r := landBytes s vec key key bs (s.mem, s.cur.stale)
  let s := breakReservations (if vec then none else some s.curKey) key bs.length (scrubStale (some s.curKey) key bs.length { s with mem := r.1 })
  let e : Stale := { born := s.nonce, key := key, addr := addr, old := r.2.2, byVector := vec, toScalar := vec, toVector := true, toFetch := true, yields := true, fresh := true }
  { s with cur := { s.cur with stale := e :: r.2.1 } }

/-- The word that made the newest own writes has made them all: a later one of the same convoy may be performed before them. -/
def settleFresh (s : State) : State :=
  if s.cur.stale.any (·.fresh) then { s with cur := { s.cur with stale := s.cur.stale.map (fun e => { e with fresh := false }) } } else s

/-- A scalar access has read memory itself: it has returned the own writes there (R182 rule 3). -/
def observeOwn (key n : Nat) (s : State) : State :=
  if s.cur.stale.isEmpty then s else
  { s with cur := { s.cur with stale := s.cur.stale.map (fun e => if key < e.key + e.old.length && e.key < key + n then { e with toScalar := false } else e) } }

/-- A combination has read own writes: it is performed after them (log 7: DESIGN CHOICE, unsafe). -/
def followOwn (key n : Nat) (s : State) : State :=
  if s.cur.stale.isEmpty then s else
  { s with cur := { s.cur with stale := s.cur.stale.map (fun e => if key < e.key + e.old.length && e.key < key + n then { e with yields := false } else e) } }

/-! ## Uncorrectable errors (R197) -/

/-- An address as the log and `stval` give it: physical for HBM and the tier; for SRAM the unit code and the offset. -/
def errorAddr (key : Nat) : Word :=
  if key < 2 ^ 48 then BitVec.ofNat 64 key
  else if key < 2 ^ 49 then BitVec.ofNat 64 (2 ^ 56 + (key - 2 ^ 48) % 2 ^ 26)
  else if 2 ^ 51 ≤ key then BitVec.ofNat 64 (2 ^ 57 + (key - 2 ^ 51) % 2 ^ 18)
  else BitVec.ofNat 64 ((key - 2 ^ 49) % 2 ^ 22)

/-- A write that covers only part of a stretch in error (log 56: DESIGN CHOICE, unsafe). -/
def partialOnError (key n : Nat) (s : State) : Bool :=
  s.badCells.any (fun b => b.1 < key + n && key < b.1 + b.2 && !(key ≤ b.1 && b.1 + b.2 ≤ key + n))

/-- A write of a whole protected word replaces data and check bits: the error is gone (log 56: DESIGN CHOICE, unsafe). -/
def clearErrors (key n : Nat) (s : State) : State :=
  { s with badCells := s.badCells.filter (fun b => !(key ≤ b.1 && b.1 + b.2 ≤ key + n)) }

end Sys2Proof.Machine
end

