-- ==== Sys2Proof/Machine/Queue.lean ====
section
/-! DEFINITION. Host queues (R23 to R33, R37): their registers, consuming a slot, answers and event answers.
What each command does stands in Commands. -/

namespace Sys2Proof.Machine

/-! ## Physical memory as the device reads and writes it -/

/-- A physical address exists (R138) (log 10: DESIGN CHOICE, safe). -/
def physExists (pa : Nat) : Bool := inHbm pa || inTier pa

/-- n bytes at a physical address; where no memory is, zero. -/
def physRead (s : State) (pa n : Nat) : List Byte :=
  if physExists pa && physExists (pa + n - 1) then getBytes (physKey pa) n s.mem else List.replicate n 0

/-- Bytes written at a physical address; where no memory is, nothing. -/
def physWrite (pa : Nat) (bs : List Byte) (s : State) : State :=
  if physExists pa && physExists (pa + bs.length - 1) then writeMem (physKey pa) bs s else s

/-! ## Fields of a queue window -/

/-- QINFL. -/
def inFlight (q : Queue) : Nat := q.cmds.length

/-- QCTL.STATE as a number (R25). -/
def qstateCode : QState → Nat
  | .disabled => 0 | .running => 1 | .held => 2 | .stopped => 3 | .draining => 4 | .halted => 5

/-- Answers emitted and not acknowledged. -/
def unread (q : Queue) : Nat := (q.dseq - q.acons).toNat

/-- The queue may consume the slot numbered QSLOT (R30). -/
def canConsume (q : Queue) : Bool :=
  q.state == .running && q.slot != q.dbell && decide (inFlight q < 256) && decide (unread q + inFlight q + 1 < 2 ^ q.alog2)

/-- The answer that is next to be emitted may be: an event needs a free entry (R32). -/
def canEmit (q : Queue) : Bool :=
  match q.due with
  | [] => false
  | a :: _ => !a.event || decide (unread q + inFlight q < 2 ^ q.alog2)

/-- Queues consume and answer: the device has booted and is not halted (R42, R48). -/
def serving (s : State) : Bool := s.axis.stage == .ready

/-- The steps a queue's state makes possible fall due. -/
def kickQueue (q : Nat) (s : State) : State :=
  if !serving s then s else
  let k := queueAt s q
  let s := if canConsume k then postOnce (.slotConsume q) s else s
  if canEmit k then postOnce (.answerEmit q) s else s

/-- The watchdog counts and reloads only in RUNNING, HELD and STOPPED (R37). -/
def watchdogLive (q : Queue) : Bool := q.state == .running || q.state == .held || q.state == .stopped

/-- The watchdog reloads. -/
def reload (q : Queue) : Queue := if watchdogLive q then { q with wleft := q.wdog } else q

/-- The state RUNNING means while HOLD stands or not (R25). -/
def runState (hold : Bool) : QState := if hold then .held else .running

/-- Two ranges overlap. -/
def overlap (a n b m : Nat) : Bool := decide (a < b + m) && decide (b < a + n)

/-- The bytes of a queue's two rings. -/
def rings (q : Queue) : List (Nat × Nat) := [(q.sbase.toNat, 2 ^ q.slog2 * 64), (q.abase.toNat, 2 ^ q.alog2 * 32)]

/-- EN may be set: sizes 6 to 16, aligned rings that overlap no partition's share (R25). A ring outside HBM passes: the device then reads it from the tier, or as
zeros where no memory is (log 34: DESIGN CHOICE, unsafe). -/
def configOk (s : State) (q : Queue) : Bool :=
  decide (6 ≤ q.alog2) && decide (q.alog2 ≤ 16) && decide (6 ≤ q.slog2) && decide (q.slog2 ≤ 16) &&
    q.sbase.toNat % 4096 == 0 && q.abase.toNat % 4096 == 0 &&
    (rings q).all (fun r => s.parts.all (fun p => !overlap r.1 r.2 p.hbase p.hlen))

/-! ## Register reads and writes (R23 to R25) -/

/-- QCTL as it reads. -/
def readQctl (q : Queue) : Word :=
  BitVec.ofNat 64 (q.home * 2 ^ 24 + q.alog2 * 2 ^ 19 + q.slog2 * 2 ^ 14 + qstateCode q.state * 2 ^ 11 +
    (if q.holdBit then 4 else 0) + (if q.state == .disabled then 0 else 1))

/-- QFLTn: valid, opcode, host sequence number. -/
def readQflt (q : Queue) (n : Nat) : Word :=
  match q.cmds.find? (·.slot == n) with
  | some c => (1#64 <<< 63) ||| (c.opc.setWidth 64 <<< 40) ||| c.hseq.setWidth 64
  | none => 0

/-- A register of a queue window; an access that is not an aligned 64-bit one, or that comes before the windows are enabled, reads zero (R23, R24, R42). -/
def readQueueReg (s : State) (q off size : Nat) : Word :=
  let k := queueAt s q
  if size ≠ 8 || off % 8 ≠ 0 || !s.axis.windows then 0 else
  match off with
  | 0x000 => readQctl k
  | 0x008 => k.sbase
  | 0x010 => k.abase
  | 0x018 => k.dbell.setWidth 64
  | 0x020 => k.slot.setWidth 64
  | 0x028 => k.acons.setWidth 64
  | 0x030 => k.hseq.setWidth 64
  | 0x038 => k.dseq.setWidth 64
  | 0x040 => k.wdog.setWidth 64
  | 0x048 => k.wleft.setWidth 64
  | 0x050 => BitVec.ofNat 64 k.err
  | 0x058 => BitVec.ofNat 64 (match k.part with | some p => p | none => 0xFF)
  | 0x060 => BitVec.ofNat 64 (inFlight k)
  | _ => if 0x800 ≤ off then readQflt k ((off - 0x800) / 8) else 0

/-- A write of QCTL (R25): sizes and home while DISABLED, HOLD, then EN; a write that enters DISABLED drops RESUME and DISC (log 54: DESIGN CHOICE, unsafe). -/
def writeQctl (q : Nat) (v : Word) (s : State) : State :=
  let k := queueAt s q
  let n := v.toNat
  let en := bit n 0
  let k := if k.state == .disabled then { k with home := bits n 26 24, alog2 := bits n 23 19, slog2 := bits n 18 14 } else k
  let k := { k with holdBit := bit n 2 }
  let k := match k.state with | .running | .held => { k with state := runState k.holdBit } | _ => k
  if en && k.state == .disabled then
    let k := if configOk s k then { k with state := runState k.holdBit } else { k with err := 5 }
    let k := if bit n 1 then { k with slot := k.dbell } else k
    kickQueue q (setQueue s q k)
  else if !en && k.state != .disabled && k.state != .draining && inFlight k == 0 then
    setQueue s q { k with state := .disabled }
  else
    let k := if bit n 3 && (k.state == .stopped || k.state == .halted) then { k with state := runState k.holdBit, wleft := k.wdog } else k
    let k := if bit n 1 then { k with slot := k.dbell } else k
    kickQueue q (setQueue s q k)

/-- A write of QDBELL (R33). -/
def writeQdbell (q : Nat) (v : Word) (s : State) : State :=
  kickQueue q (updQueue s q (fun k => { k with dbell := v.setWidth 32 }))

/-- A write of QACONS: ignored unless the value precedes or equals QDSEQ (R33). -/
def writeQacons (q : Nat) (v : Word) (s : State) : State :=
  kickQueue q (updQueue s q (fun k => if seqLe (v.setWidth 32) k.dseq then { k with acons := v.setWidth 32 } else k))

/-- A write of QWDOG: the watchdog reloads, except in DRAINING and HALTED (R37). -/
def writeQwdog (q : Nat) (v : Word) (s : State) : State :=
  updQueue s q (fun k => reload { k with wdog := v.setWidth 32 })

/-- A write to a queue window: ignored unless the windows are enabled and it is an aligned 64-bit one, and where the register is read-only in the
current state (R23, R24). -/
def writeQueueReg (q off size : Nat) (v : Word) (s : State) : State :=
  let whenDisabled (f : Queue → Queue) : State := updQueue s q (fun k => if k.state == .disabled then f k else k)
  if size ≠ 8 || off % 8 ≠ 0 || !s.axis.windows then s else
  match off with
  | 0x000 => writeQctl q v s
  | 0x008 => whenDisabled (fun k => { k with sbase := v })
  | 0x010 => whenDisabled (fun k => { k with abase := v })
  | 0x018 => writeQdbell q v s
  | 0x028 => writeQacons q v s
  | 0x030 => whenDisabled (fun k => { k with hseq := v.setWidth 32 })
  | 0x038 => whenDisabled (fun k => { k with dseq := v.setWidth 32 })
  | 0x040 => writeQwdog q v s
  | _ => s

/-! ## Answers (R28, R31, R32) -/

/-- An answer falls due; event answers change STATE and QERR at once and keep their place. -/
def answer (q : Nat) (a : Answer) (s : State) : State :=
  kickQueue q (updQueue s q (fun k => { k with due := k.due ++ [a] }))

/-- A command in flight, by its host sequence number. -/
def cmdAt (s : State) (q : Nat) (hseq : BitVec 32) : Option Cmd := (queueAt s q).cmds.find? (·.hseq == hseq)

/-- A command in flight changed. -/
def updCmd (q : Nat) (hseq : BitVec 32) (f : Cmd → Cmd) (s : State) : State :=
  updQueue s q (fun k => { k with cmds := k.cmds.map (fun c => if c.hseq == hseq then f c else c) })

/-- The answer to a command in flight falls due; a command already answered, or whose answer is due, has no other. -/
def finish (q : Nat) (hseq : BitVec 32) (status : Nat) (r0 r1 : Word) (s : State) : State :=
  match cmdAt s q hseq with
  | none => s
  | some c =>
    if (queueAt s q).due.any (fun a => !a.event && a.hseq == hseq) then s
    else answer q { hseq := hseq, opc := c.opc, status := BitVec.ofNat 8 status, r0 := r0, r1 := r1, event := false } s

/-- An event answer: BADSEQ, BADCHK or WDOG. -/
def eventAnswer (q status : Nat) (s : State) : State :=
  answer q { hseq := 0, opc := 0xFF, status := BitVec.ofNat 8 status, r0 := 0, r1 := 0, event := true } s

/-- The 32 bytes of an answer entry (R28); an event answer holds QHSEQ as it is when emitted. -/
def answerBytes (d hseq : BitVec 32) (a : Answer) : List Byte :=
  bytesOf 4 d.toNat ++ bytesOf 4 hseq.toNat ++ [a.opc, a.status] ++ List.replicate 6 0 ++ bytesOf 8 a.r0.toNat ++ bytesOf 8 a.r1.toNat

/-- The answer to a PCREATE puts the partition's record in force (R45). -/
def announce (k : Queue) (a : Answer) (s : State) : State :=
  match k.cmds.find? (·.hseq == a.hseq) with
  | some c => if !a.event && c.opc == 1 && a.status == 0 then updPart s (c.args.getD 1 0).toNat (fun p => { p with announced := true }) else s
  | none => s

/-- ANSWER_EMIT (R31): entry d is written, then in one step QDSEQ, QFLT, QINFL and the watchdog change. -/
def emitAnswer (q : Nat) (s : State) : State :=
  let k := queueAt s q
  match k.due with
  | [] => s
  | a :: rest =>
    if !canEmit k || !serving s then s else
    let d := k.dseq + 1
    let h := if a.event then k.hseq else a.hseq
    let s := announce k a (physWrite (k.abase.toNat + d.toNat % 2 ^ k.alog2 * 32) (answerBytes d h a) s)
    let k' := { k with dseq := d, due := rest, cmds := if a.event then k.cmds else k.cmds.filter (fun c => c.hseq != a.hseq) }
    kickQueue q (setQueue s q (reload k'))

/-! ## Consuming a slot (R27, R30) -/

/-- One bit of CRC-16 with polynomial 0x1021. -/
def crcBit (c : Nat) : Nat := if 0x8000 ≤ c then (c * 2 % 65536) ^^^ 0x1021 else c * 2

/-- One byte of it. -/
def crcByte (c : Nat) (b : Byte) : Nat :=
  let c := c ^^^ (b.toNat * 256)
  crcBit (crcBit (crcBit (crcBit (crcBit (crcBit (crcBit (crcBit c)))))))

/-- CHK over a slot's 64 bytes with CHK taken as zero (R27). -/
def slotCheck (slot : List Byte) : Nat := (slot.take 6 ++ [0, 0] ++ slot.drop 8).foldl crcByte 0xFFFF

/-- The lowest-numbered free entry of the in-flight table (log 6: DESIGN CHOICE, safe). -/
def freeEntry (q : Queue) : Nat := ((upTo 256).find? (fun n => !q.cmds.any (·.slot == n))).getD 256

/-- The step that carries a command out, by its opcode (R34) (log 34: DESIGN CHOICE, unsafe). -/
def commandStep (q : Nat) (hseq : BitVec 32) (opc : Nat) : Instr :=
  match opc with
  | 0x00 => .nop q hseq
  | 0x01 => .pcreate q hseq
  | 0x02 => .pdestroy q hseq
  | 0x03 => .qbind q hseq
  | 0x04 => .pdrain q hseq
  | 0x05 => .rcreate q hseq
  | 0x06 => .grun q hseq
  | 0x07 => .wdog q hseq
  | 0x08 => .cksave q hseq
  | 0x09 => .ckload q hseq
  | 0x0A => .fstep q hseq
  | 0x0B => .qfence q hseq
  | 0x0C => .rretire q hseq
  | _ => .reservedOpcode q hseq

/-- Opcodes that only the administrative queue accepts (R34). -/
def adminOnly (opc : Nat) : Bool := opc == 1 || opc == 2 || opc == 3 || opc == 0x0A

/-- SLOT_CONSUME (R30): the slot is checked; a bad one stops the queue with an event, a good one is copied.
A slot with both a wrong CHK and a wrong HSEQ is reported as a bad CHK (log 34: DESIGN CHOICE, unsafe). -/
def consumeSlot (q : Nat) (s : State) : State :=
  let k := queueAt s q
  if !canConsume k || !serving s then s else
  let slot := physRead s (k.sbase.toNat + k.slot.toNat % 2 ^ k.slog2 * 64) 64
  let h : BitVec 32 := BitVec.ofNat 32 (recNat slot 0 4)
  if recNat slot 6 2 ≠ slotCheck slot then eventAnswer q 3 (setQueue s q { k with state := .stopped, err := 2 })
  else if h ≠ k.hseq + 1 then eventAnswer q 2 (setQueue s q { k with state := .stopped, err := 1 })
  else
    let opc := recNat slot 4 1
    let c : Cmd :=
      { slot := freeEntry k, hseq := h, opc := BitVec.ofNat 8 opc, flags := BitVec.ofNat 8 (recNat slot 5 1),
        args := (upTo 7).map (fun i => BitVec.ofNat 64 (recNat slot (8 + 8 * i) 8)), begun := false, left := 0, replaced := 0, onObject := none }
    let k' := { k with cmds := k.cmds ++ [c], hseq := h, slot := k.slot + 1 }
    let k' := if k.cmds.isEmpty then reload k' else k'
    let step := if adminOnly opc && q ≠ 0 then .reservedOpcode q h else commandStep q h opc
    kickQueue q (post step (setQueue s q k'))

/-- The earlier commands of a command are all answered (R27 ORDER, R34 QFENCE) (log 34: DESIGN CHOICE, unsafe). -/
def earliest (s : State) (q : Nat) (hseq : BitVec 32) : Bool :=
  match (queueAt s q).cmds with
  | [] => true
  | c :: _ => c.hseq == hseq

end Sys2Proof.Machine
end

