-- ==== Sys2Proof/Machine/Flits.lean ====
section
/-! DEFINITION. Flits and the ports they pass (R8 to R11, R17, R366): headers, sequence numbers, credits and acknowledgements, and what a port sends. -/

namespace Sys2Proof.Machine

/-! ## Ports and headers -/

/-- A port of a die. -/
def portAt (s : State) (d p : Nat) : Port := (dieAt s d).ports.toList.getD p Port.reset

/-- A port changed. -/
def updPort (d p : Nat) (f : Port → Port) (s : State) : State :=
  updDie s d (fun x => { x with ports := x.ports.mapIdx (fun i y => if i = p then f y else y) })

/-- The partner of a port: die and port (R8). -/
def partner (d p : Nat) : Nat × Nat :=
  if 8 ≤ d then (p, 3) else
  match p with
  | 0 => (d / 4 * 4 + (d % 4 + 1) % 4, 1)
  | 1 => (d / 4 * 4 + (d % 4 + 3) % 4, 0)
  | 2 => ((d + 4) % 8, 2)
  | _ => (8, d)

/-- A flit's bytes as its CRC covers them: header bits [47:0], the highest byte first, then the payload (R366). -/
def flitBytes (header : BitVec 64) (payload : BitVec 512) : List Byte :=
  ((bytesOf 6 header.toNat).reverse) ++ bytesOf 64 payload.toNat

/-- CRC over a flit. -/
def flitCrc (header : BitVec 64) (payload : BitVec 512) : Nat := (flitBytes header payload).foldl crcByte 0xFFFF

/-- Fields of a header (R10). -/
def flitSeq (h : BitVec 64) : Nat := bits h.toNat 47 38
def flitCredit (h : BitVec 64) : Nat := bits h.toNat 37 32
def flitSrc (h : BitVec 64) : Nat := bits h.toNat 31 28
def flitDst (h : BitVec 64) : Nat := bits h.toNat 27 24
def flitType (h : BitVec 64) : Nat := bits h.toNat 23 20
def flitVch (h : BitVec 64) : Nat := bits h.toNat 19 18
def flitAck (h : BitVec 64) : Nat := bits h.toNat 17 16
def flitTag (h : BitVec 64) : Nat := bits h.toNat 15 0

/-- The header of the given fields, SEQ, CREDIT, SRCD, DSTD, TYPE, VCH, ACK and TAG, with the CRC over it and the payload (R10). -/
def flitHeader (seq credit src dst type vch ack tag : Nat) (payload : BitVec 512) : BitVec 64 :=
  let low := BitVec.ofNat 64 (seq % 1024 * 2 ^ 38 + credit % 64 * 2 ^ 32 + src % 16 * 2 ^ 28 + dst % 16 * 2 ^ 24 + type % 16 * 2 ^ 20 + vch % 4 * 2 ^ 18 +
    ack % 4 * 2 ^ 16 + tag % 65536)
  low ||| (BitVec.ofNat 64 (flitCrc low payload) <<< 48)

/-- A header as it goes on over a link: source, destination, type, channel and tag stay; SEQ and CREDIT are the link's, and it acknowledges nothing (R10). -/
def relayed (h : BitVec 64) (seq credit : Nat) (payload : BitVec 512) : BitVec 64 :=
  flitHeader seq credit (flitSrc h) (flitDst h) (flitType h) (flitVch h) 0 (flitTag h) payload

/-- A flit that may not be delivered: a reserved TYPE or ACK, or no such die (R11). -/
def badFlit (h : BitVec 64) : Bool := decide (9 ≤ flitType h) || flitAck h == 3 || decide (8 < flitDst h)

/-- Sequence a is b or before it, modulo 1,024. -/
def seqUpTo (a b : Nat) : Bool := decide ((b + 1024 - a) % 1024 < 512)

/-- Receive buffers of a port: a number the spec does not state (log 38: DESIGN CHOICE, unsafe). -/
def linkBuffers : Nat := 1 + Config.buffers % 63

/-! ## What a port sends -/

/-- The core clock of a die is stopped for a relock (R16, R17). -/
def relocking (x : Die) : Bool := x.clock.stage == some .relocking

/-- Where among the steps that have fallen due the flits on the wire to a port stand. -/
def onWire (d p : Nat) (s : State) : Option Nat :=
  firstIndex (·.any (fun i => match i with | .flitReceive d' p' _ _ => d' == d && p' == p | _ => false)) s.agenda

/-- A flit on the wire from a port reaches its partner behind those sent before it (log 38: DESIGN CHOICE, unsafe). -/
def wire (d p : Nat) (f : BitVec 64 × BitVec 512) (s : State) : State :=
  let e := partner d p
  match onWire e.1 e.2 s with
  | some i => { s with agenda := setAt s.agenda i (s.agenda.getD i [] ++ [.flitReceive e.1 e.2 f.1 f.2]) }
  | none => post (.flitReceive e.1 e.2 f.1 f.2) s

/-- The credits that a port owes its partner, as many as CREDIT can return. -/
def owedCredits (x : Port) : Nat := min 63 x.owed

/-- An acknowledgement goes out as a link management flit; it uses no credit and takes no place in the sequence (log 38: DESIGN CHOICE, unsafe). -/
def sendAck (d p : Nat) (a : Nat × Nat) (s : State) : State :=
  let x := portAt s d p
  wire d p (flitHeader a.2 (owedCredits x) d (partner d p).1 8 3 a.1 0 0, 0)
    (updPort d p (fun x => { x with owed := x.owed - owedCredits x }) (countDie 0x103 1 d s))

/-- A flit goes out with the port's next SEQ and a credit, and stays for replay until it is acknowledged. -/
def sendNext (d p : Nat) (f : BitVec 64 × BitVec 512) (s : State) : State :=
  let x := portAt s d p
  let f := (relayed f.1 x.seqOut (owedCredits x) f.2, f.2)
  wire d p f (updPort d p (fun x => { x with credits := x.credits - 1, owed := x.owed - owedCredits x, seqOut := (x.seqOut + 1) % 1024, outbox := x.outbox ++ [f] })
    (countDie 0x103 1 d s))

/-- A port sends what it may: nothing while its link does not run or its die relocks; the acknowledgements owed, then as many
flits as it has credits (R10, R17). -/
def pump (d p : Nat) (s : State) : State :=
  let x := portAt s d p
  if !x.up || relocking (dieAt s d) then s else
  let s := x.acks.foldl (fun s a => sendAck d p a s) (updPort d p (fun y => { y with acks := [], waiting := y.waiting.drop y.credits }) s)
  (x.waiting.take x.credits).foldl (fun s f => sendNext d p f s) s

/-- A flit is given to a port to send. -/
def sendFlit (d p : Nat) (f : BitVec 64 × BitVec 512) (s : State) : State := pump d p (updPort d p (fun x => { x with waiting := x.waiting ++ [f] }) s)

/-- Flits of a port sent again, in their order, counted as replayed (R11). -/
def replayFlits (d p : Nat) (fs : List (BitVec 64 × BitVec 512)) (s : State) : State :=
  fs.foldl (fun s f => wire d p f s) (countDie 0x104 fs.length d s)

/-- The clock of a die runs again: what filled the receive buffers is received, and what the ports held goes out (R17). -/
def restartPorts (d : Nat) (s : State) : State :=
  (upTo 8).foldl (fun s p =>
    let filled := (portAt s d p).buffer.map (fun f => .flitReceive d p f.1 f.2)
    let s := updPort d p (fun x => { x with buffer := [] }) s
    pump d p (match onWire d p s with
      | some i => { s with agenda := setAt s.agenda i (filled ++ s.agenda.getD i []) }
      | none => postInOrder filled s)) s

end Sys2Proof.Machine
end

