-- ==== Sys2Proof/Machine/Clock.lean ====
section
/-! DEFINITION. Clock steps of a die (R15 to R21). -/

namespace Sys2Proof.Machine

/-- The minimum supply of a clock setting, in mV (R15). -/
def minSupply (ratio : Nat) : Nat :=
  match ratio with
  | 6 => 300 | 7 => 310 | 8 => 320 | 9 => 335 | 10 => 350 | 11 => 375 | 12 => 400 | 13 => 425 | 14 => 450 | 15 => 480 | 16 => 505
  | 17 => 530 | _ => 560

/-- The clock of a die changed. -/
def updClock (d : Nat) (f : Clock → Clock) (s : State) : State := updDie s d (fun x => { x with clock := f x.clock })

/-- The requested ratio of a die is carried out for an FSTEP: it is answered once every die of its mask is (R34). -/
def stepDone (d : Nat) (asker : Nat × BitVec 32) (s : State) : State :=
  let s := updCmd asker.1 asker.2 (fun c => { c with left := c.left &&& ~~~(1#8 <<< d) }) s
  match cmdAt s asker.1 asker.2 with
  | none => s
  | some c =>
    if c.left != 0 then s else
    let mask := (c.args.getD 0 0).toNat
    let r0 := (upTo 8).foldl (fun n i => if bit mask i then n + (dieAt s i).clock.ratio * 2 ^ (8 * i) else n) 0
    finish asker.1 asker.2 0 (BitVec.ofNat 64 r0) (c.replaced.setWidth 64) s

/-- A relock begins: the counters are noted for the record (R16, R19). -/
def beginRelock (d : Nat) (s : State) : State :=
  let x := dieAt s d
  startTimer d false 150 (.relockEnd d) (updClock d (fun k =>
    { k with stage := some .relocking, cAtRelock := x.cycle, kAtRelock := x.refk, oldAtRelock := k.ratio }) s)

/-- Reference ticks that a change of the supply takes at 10 mV/µs. -/
def rampTicks (a b : Nat) : Nat := (max a b - min a b) * 10

/-- A request is carried out: the supply rises first where the clock does; one for the present clock is complete at once. -/
def carryOut (d : Nat) (r : StepReq) (s : State) : State :=
  let k := (dieAt s d).clock
  if r.ratio = k.ratio then r.askers.foldl (fun s a => stepDone d a s) s
  else
    let s := updClock d (fun k => { k with current := some r }) s
    if k.ratio < r.ratio then
      startTimer d false (rampTicks k.supply (minSupply r.ratio)) (.supplyRampDone d) (updClock d (fun k => { k with stage := some .raising }) s)
    else beginRelock d s

/-- A step is requested; during a step it is held, and replaces a held one, whose askers are told and wait for it (log 35: DESIGN CHOICE, safe). -/
def requestStep (d : Nat) (r : StepReq) (s : State) : State :=
  let k := (dieAt s d).clock
  if k.stage.isNone then carryOut d r s else
  match k.held with
  | none => updClock d (fun k => { k with held := some r }) s
  | some h =>
    let s := h.askers.foldl (fun s a => updCmd a.1 a.2 (fun c => { c with replaced := c.replaced ||| (1#8 <<< d) }) s) s
    updClock d (fun k => { k with held := some { r with askers := r.askers ++ h.askers } }) s

/-- The record is updated and the step is over; a held request has its turn (R16 step 4, R19). -/
def endStep (d : Nat) (s : State) : State :=
  let k := (dieAt s d).clock
  let s := updClock d (fun k => { k with
    stage := none, current := none, held := none, cstep := k.cAtRelock, kstep := k.kAtRelock, nstep := k.nstep + 1, relk := 150, newr := k.ratio, oldr := k.oldAtRelock }) s
  let s := match k.current with | some r => r.askers.foldl (fun s a => stepDone d a s) s | none => s
  match k.held with | some r => carryOut d r s | none => s

/-- SUPPLY_RAMP_DONE. -/
def execSupplyRampDone (die : Nat) (s : State) : Result :=
  let k := (dieAt s die).clock
  .next (match k.stage, k.current with
    | some .raising, some r => beginRelock die (updClock die (fun k => { k with supply := minSupply r.ratio }) s)
    | some .lowering, some _ => endStep die (updClock die (fun k => { k with supply := minSupply k.ratio }) s)
    | _, _ => s)

/-- RELOCK_END: the clock restarts at the new ratio; a fall of the clock is followed by a fall of the supply. -/
def execRelockEnd (die : Nat) (s : State) : Result :=
  let k := (dieAt s die).clock
  .next (match k.stage, k.current with
    | some .relocking, some r =>
      let s := countDie 0x108 1 die (updClock die (fun k => { k with ratio := r.ratio, stage := none }) s)
      let s := restartPorts die s
      if r.ratio < k.ratio then
        startTimer die false (rampTicks k.supply (minSupply r.ratio)) (.supplyRampDone die) (updClock die (fun k => { k with stage := some .lowering }) s)
      else endStep die s
    | _, _ => s)

/-- The ratio that a die is on its way to (log 35: DESIGN CHOICE, safe). -/
def targetRatio (k : Clock) : Nat :=
  match k.held, k.current with
  | some r, _ => r.ratio
  | none, some r => r.ratio
  | none, none => k.ratio

/-- THERMAL_POLICY (R21): one step down at 100 °C and one for each further degree; below 95 °C one step of those back up (log 35: DESIGN CHOICE, safe). -/
def execThermalPolicy (die temp : Nat) (s : State) : Result :=
  let k := (dieAt s die).clock
  let base := targetRatio k
  let down := min (temp - 99 - k.thermalSteps) (base - 6)
  .next (if 8 ≤ die then s else
    let s := updClock die (fun k => { k with temp := temp }) s
    let s := if 110 ≤ temp then postOnce (.alarmTrip 4) s else s
    if 0 < down then
      requestStep die { ratio := base - down, askers := [] } (updClock die (fun k => { k with thermalSteps := k.thermalSteps + down }) s)
    else if temp < 95 ∧ 0 < k.thermalSteps then
      requestStep die { ratio := min 18 (base + 1), askers := [] } (updClock die (fun k => { k with thermalSteps := k.thermalSteps - 1 }) s)
    else s)

end Sys2Proof.Machine
end

