-- ==== Sys2Proof/Machine/Pool.lean ====
section
/-! DEFINITION. The segment pool (R114 to R121, R125, R129, R131, R132): references, allocation and
charging, descriptors and their bytes, result writing, chain edits on descriptors, and what the end of a context
releases. -/

namespace Sys2Proof.Machine

/-! ## Threads and who bears them -/

/-- The model's name of the thread a context runs; 0 for none. -/
def threadOf (c : Ctx) : Nat := match c.task with | some t => t.thread | none => 0

/-- The slot in which a thread stands. -/
def slotOfThread (s : State) (thread : Nat) : Option Nat :=
  (ctxKeys s).find? (fun k => threadOf (ctxAt s k) == thread && (ctxAt s k).task.isSome)

/-- The saved context of a thread. -/
def savedOfThread (s : State) (thread : Nat) : Option Saved := s.saved.find? (·.task.thread == thread)

/-- The task of a thread, live or saved. -/
def taskOfThread (s : State) (thread : Nat) : Option Task :=
  match slotOfThread s thread with
  | some k => (ctxAt s k).task
  | none => (savedOfThread s thread).map (·.task)

/-- The core on which a thread stands, live or saved. -/
def coreOfThread (s : State) (thread : Nat) : Nat :=
  match slotOfThread s thread with
  | some k => k / 4
  | none => match savedOfThread s thread with | some v => v.core | none => 0

/-- The context number a thread bears: its slot, or the one its image names (R199, R200). -/
def contextNumber (s : State) (thread : Nat) : Nat :=
  match slotOfThread s thread with
  | some k => k % 4
  | none => match savedOfThread s thread with | some v => v.slot % 4 | none => 0

/-! ## Charges (R57) -/

/-- A region and its ancestors changed. -/
def chargeLine (part region : Nat) (f : Region → Region) (s : State) : State :=
  let line := ancestry s part region
  { s with regions := s.regions.map (fun r => if r.part == part && line.contains r.idx then f r else r) }

/-- Segments that a region and every ancestor may still be charged. -/
def segBudget (s : State) (part region : Nat) : Nat :=
  (ancestry s part region).foldl (fun m i => match regionAt s part i with | some r => min m (r.eff.segs - r.segUse) | none => m) (2 ^ 44)

/-- Segments charged or given back. -/
def chargeSegs (part region n : Nat) : State → State := chargeLine part region (fun r => { r with segUse := r.segUse + n })
def refundSegs (part region n : Nat) : State → State := chargeLine part region (fun r => { r with segUse := r.segUse - n })

/-! ## Free segments and reserves (R114, R118) -/

/-- `pfree`: segments whose count is 0, withdrawn ones left out (R114, R132). -/
def pfree (s : State) (g : Nat) : Nat := 4096 - ((coreAt s g).segs.length + (coreAt s g).lost.length)

/-- Segments set aside on a core for messages from other cores (R340). -/
def setAside (s : State) (g : Nat) : Nat :=
  (dieAt s (dieOf g)).rays.foldl (fun n r => match r.recv with | some e => if coreOfThread s e.thread = g then n + r.aside else n | none => n) 0

/-- Every context's reserve on a core, saved contexts and awards included, and what is set aside. -/
def reserves (s : State) (g : Nat) : Nat :=
  ((ctxKeys s).filter (· / 4 == g)).foldl (fun n k => n + (ctxAt s k).pres) 0 +
    (s.saved.filter (·.core == g)).foldl (fun n v => n + v.pres) 0 + (coreAt s g).awards.foldl (fun n a => n + a.rsv) 0 + setAside s g

/-- How many segments a context could allocate now (R118, steps 1 and 2). -/
def allocatable (s : State) (key : Nat) : Nat :=
  let c := ctxAt s key
  let outside := pfree s (key / 4) - reserves s (key / 4)
  c.pres + (match c.task with | some t => min outside (segBudget s t.part t.region) | none => outside)

/-- Segment numbers in use or withdrawn. -/
def numbersTaken (c : Core) : List Nat := c.lost ++ c.segs.map (·.2.num)

/-- The first number not taken, from a start round the pool (log 6: DESIGN CHOICE, safe). -/
def probeNumber (taken : List Nat) : Nat → Nat → Nat
  | 0, n => n % 4096
  | fuel + 1, n => if taken.contains (n % 4096) then probeNumber taken fuel (n + 1) else n % 4096

/-- A free segment of a core comes into use; which free number it bears is open (R354, log 6). -/
def newSeg (g tag : Nat) (data : List Byte) (s : State) : Nat × State :=
  let k := coreAt s g
  let id := k.nextSeg
  let num := probeNumber (numbersTaken k) 4096 (Config.segment (freeIndex s id))
  let seg : Seg := { num := num, count := 1, tag := tag, data := data, badData := false, badEntry := false }
  (id, setCore s g { k with segs := insertKey id seg k.segs, nextSeg := id + 1, used := if k.used.contains num then k.used else num :: k.used })

/-- An allocation (R118): from the reserve, or outside every reserve and within the budgets (log 6: DESIGN CHOICE, safe). -/
def allocSeg (key : Nat) (data : List Byte) (s : State) : Option (Nat × State) :=
  if allocatable s key = 0 then none else
  let c := ctxAt s key
  let n := newSeg (key / 4) (threadOf c) data s
  let s := countEvent 0x020 1 key n.2
  if 0 < c.pres then some (n.1, updCtx s key (fun c => { c with pres := c.pres - 1 }))
  else some (n.1, match c.task with | some t => chargeSegs t.part t.region 1 s | none => s)

/-- A segment of a core. -/
def segAt (s : State) (g id : Nat) : Option Seg := lookupKey id (coreAt s g).segs

/-- A segment changed. -/
def updSeg (g id : Nat) (f : Seg → Seg) (s : State) : State :=
  match segAt s g id with
  | some x => updCore s g (fun k => { k with segs := insertKey id (f x) k.segs })
  | none => s

/-- The runtime restarts the convoys of a core that stand in the pool-empty fault when a segment returns (R130). -/
def wakePoolEmpty (g : Nat) (s : State) : State :=
  (ctxKeys s).foldl (fun s k => if k / 4 == g && ((ctxAt s k).state == .waiting .poolEmpty || atRuntime (ctxAt s k) 30) then postOnce (.poolEmptyRestart k) s else s) s

/-- A withdrawn segment does not return to the pool: it refills no reserve, and its charge falls (R118, R132). -/
def chargeFalls (thread : Nat) (s : State) : State :=
  match taskOfThread s thread with
  | none => s
  | some t => refundSegs t.part t.region 1 s

/-- A segment charged to a thread returns to the pool: the thread's reserve refills up to its region's RSV, and the
charge stays; otherwise the charge falls (R118). What the reserve of a saved context gains is added to its image's when it is restored (log 52: DESIGN CHOICE, unsafe). -/
def creditOwner (thread : Nat) (s : State) : State :=
  match taskOfThread s thread with
  | none => s
  | some t =>
    let rsv := match regionAt s t.part t.region with | some r => r.eff.rsv | none => 0
    match slotOfThread s thread with
    | some k =>
      if (ctxAt s k).pres < rsv then updCtx s k (fun c => { c with pres := c.pres + 1 }) else refundSegs t.part t.region 1 s
    | none =>
      match savedOfThread s thread with
      | some v =>
        if v.pres < rsv then
          { s with saved := s.saved.map (fun w => if w.num == v.num then { w with pres := w.pres + 1, refilled := w.refilled + 1 } else w) }
        else refundSegs t.part t.region 1 s
      | none => s

/-- A chain names a segment. -/
def namesSeg (c : Chain) (id : Nat) : Bool := c.pieces.any (·.seg == id)

/-- A segment that only ray messages still name takes the ray's receiver as its owner (R117). -/
def passToReceiver (g id : Nat) (s : State) : State :=
  if (ctxKeys s).any (fun k => k / 4 == g && (ctxAt s k).v.toList.any (namesSeg · id)) ||
      s.saved.any (fun v => v.core == g && v.chains.toList.any (namesSeg · id)) then s else
  match (dieAt s (dieOf g)).rays.findSome? (fun r => if r.queue.any (fun m => m.pieces.any (·.seg == id)) then r.recv else none), segAt s g id with
  | some e, some x =>
    if x.tag = e.thread then s else
    let s := match taskOfThread s x.tag with | some t => refundSegs t.part t.region 1 s | none => s
    let s := match taskOfThread s e.thread with | some t => chargeSegs t.part t.region 1 s | none => s
    updSeg g id (fun x => { x with tag := e.thread }) s
  | _, _ => s

/-- Segments that a register has ceased to name pass to a receiver where only messages still name them (R117). -/
def passTagsOn (g : Nat) (ps : List Piece) (s : State) : State := ps.foldl (fun s p => passToReceiver g p.seg s) s

/-- One reference less; at 0 the segment returns to the pool (R116, R121), a withdrawn entry is lost until reset (R132). -/
def dropRef (g : Nat) (p : Piece) (s : State) : State :=
  match segAt s g p.seg with
  | none => s
  | some x =>
    if 1 < x.count then passToReceiver g p.seg (updSeg g p.seg (fun x => { x with count := x.count - 1 }) s)
    else
      let s := updCore s g (fun k => { k with segs := eraseKey p.seg k.segs, lost := if x.badEntry then x.num :: k.lost else k.lost })
      if x.badEntry then chargeFalls x.tag s else wakePoolEmpty g (creditOwner x.tag s)

/-- References less. -/
def dropPieces (g : Nat) (ps : List Piece) (s : State) : State := ps.foldl (fun s p => dropRef g p s) s

/-- One reference more; at a count of 255 a copy is made and named instead, and COMP is set (R116). -/
def addRef (key : Nat) (p : Piece) (s : State) : Option (Piece × State) :=
  let g := key / 4
  match segAt s g p.seg with
  | none => some (p, s)
  | some x =>
    if x.count < 255 then some (p, updSeg g p.seg (fun x => { x with count := x.count + 1 }) s)
    else match allocSeg key x.data s with
      | none => none
      | some (id, s) => some ({ p with seg := id }, updCtx s key (raiseVFlags vComp))

/-- References more, all or nothing. -/
def addRefs (key : Nat) : List Piece → State → Option (List Piece × State)
  | [], s => some ([], s)
  | p :: t, s =>
    match addRef key p s with
    | none => none
    | some (q, s) => match addRefs key t s with
      | none => none
      | some (qs, s) => some (q :: qs, s)

/-! ## Chain bytes (R119, R120) -/

/-- LEN of a chain: the sum of its pieces' counts. -/
def chainLen (c : Chain) : Nat := c.pieces.foldl (fun n p => n + p.count) 0

/-- Bytes of one element; e2m1 counts half a byte and is handled apart (R228). -/
def typeSize (t : BitVec 4) : Nat :=
  match t.toNat with
  | 1 | 2 | 12 | 13 | 14 => 1
  | 3 | 4 | 10 | 11 => 2
  | 5 | 6 | 9 => 4
  | 7 | 8 => 8
  | _ => 1

/-- The byte length of n elements of a type. -/
def bytesOfElems (t : BitVec 4) (n : Nat) : Nat := if t = 14 then ceilDiv n 2 else n * typeSize t

/-- Elements in n bytes of a type; type 0 counts bytes (R303). -/
def elemsOfBytes (t : BitVec 4) (n : Nat) : Nat := if t = 14 then 2 * n else n / typeSize t

/-- VLMAX (R249). -/
def vlmax (t : BitVec 4) : Nat := elemsOfBytes t 16384

/-- The bytes of a piece. -/
def pieceBytes (k : Core) (p : Piece) : List Byte :=
  match lookupKey p.seg k.segs with
  | some x => (x.data.drop p.first).take p.count
  | none => List.replicate p.count 0

/-- The chain bytes. -/
def chainBytes (k : Core) (c : Chain) : List Byte := (c.pieces.map (pieceBytes k)).flatten

/-- Pieces without their first n bytes. -/
def dropBytes : Nat → List Piece → List Piece
  | _, [] => []
  | n, p :: t =>
    if n = 0 then p :: t
    else if p.count ≤ n then dropBytes (n - p.count) t
    else { p with first := p.first + n, count := p.count - n } :: t

/-- The first n bytes of pieces. -/
def takeBytes : Nat → List Piece → List Piece
  | _, [] => []
  | n, p :: t =>
    if n = 0 then []
    else if p.count ≤ n then p :: takeBytes (n - p.count) t
    else [{ p with count := n }]

/-- Adjacent pieces that run on in one segment become one. -/
def mergePieces : List Piece → List Piece
  | [] => []
  | p :: t =>
    match mergePieces t with
    | [] => [p]
    | q :: u => if q.seg = p.seg ∧ q.first = p.first + p.count then { p with count := p.count + q.count } :: u else p :: q :: u

/-- A register of a context. -/
def vreg (c : Ctx) (r : Nat) : Chain := (c.v.toList)[r]?.getD Chain.empty

/-- A register of a context replaced. -/
def setVreg (r : Nat) (x : Chain) (c : Ctx) : Ctx := if h : r < 32 then { c with v := c.v.set r x } else c

/-- The header a release leaves (R121). -/
def releasedChain (c : Ctx) : Chain := if c.validMode then Chain.invalid else Chain.empty

/-- A register is released (R121). -/
def releaseReg (key r : Nat) (s : State) : State :=
  let old := vreg (ctxAt s key) r
  let s := updCtx s key (fun c => setVreg r (releasedChain c) c)
  dropPieces (key / 4) old.pieces s

/-- A register takes a chain whose references are already counted; its old references fall. -/
def replaceReg (key r : Nat) (x : Chain) (s : State) : State :=
  let old := vreg (ctxAt s key) r
  let s := updCtx s key (setVreg r x)
  dropPieces (key / 4) old.pieces s

/-! ## Results of arithmetic (R125, R129) -/

/-- Where result piece j, of n bytes, is written: in the old piece that covers it with FIRST 0, or afresh. -/
inductive WriteCase where
  | inPlace (p : Piece)
  | copy (p : Piece)
  | fresh
  deriving DecidableEq, Repr

/-- The case of R125 for result piece j of n bytes over an old chain. -/
def writeCase (count : Nat → Nat) (old : List Piece) (j n : Nat) : WriteCase :=
  match dropBytes (256 * j) old with
  | [] => .fresh
  | p :: _ => if p.first = 0 ∧ n ≤ p.count then (if count p.seg ≤ 1 then .inPlace p else .copy p) else .fresh

/-- A segment's count on a core. -/
def countOf (k : Core) (id : Nat) : Nat := match lookupKey id k.segs with | some x => x.count | none => 0

/-- Pad or cut to 256 bytes. -/
def segData (bs : List Byte) : List Byte := (bs ++ List.replicate (256 - bs.length) 0).take 256

/-- Bytes laid over the head of a segment's data. -/
def overlay (new old : List Byte) : List Byte := new ++ old.drop new.length

/-- A segment of the old pieces takes another name. -/
def renameSeg (a b : Nat) (ps : List Piece) (pos : Nat) : List Piece :=
  ps.zipIdx.map (fun x => if x.2 = pos ∧ x.1.seg = a then { x.1 with seg := b } else x.1)

/-- The place of the old piece at byte 256j. -/
def placeAt (old : List Piece) (j : Nat) : Nat :=
  let n := (dropBytes (256 * j) old).length
  old.length - n

/-- The result writer (R125): the bytes of pieces j, j + 1, … of a result of `total` bytes are written over a register's
old pieces, as far as `bs` reaches; bytes below `lo` an earlier run wrote, and a piece wholly below it stays where it lies. It answers the new pieces with the old pieces (renamed where a copy on write moved
them), or none where an allocation fails. -/
def writePieces (key total lo : Nat) : Nat → List (List Byte) → List Piece → State → Option (List Piece × List Piece × State)
  | _, [], old, s => some ([], old, s)
  | j, blk :: rest, old, s =>
    let g := key / 4
    let n := min 256 (total - 256 * j)
    let k := coreAt s g
    let go (p : Piece) (old : List Piece) (s : State) : Option (List Piece × List Piece × State) :=
      match writePieces key total lo (j + 1) rest old s with
      | none => none
      | some (ps, old, s) => some (p :: ps, old, s)
    let below := decide (256 * j + n ≤ lo)
    match writeCase (countOf k) old j n with
    | .inPlace p =>
      go { seg := p.seg, first := 0, count := blk.length } old
        (if below then s else updSeg g p.seg (fun x => { x with data := overlay blk x.data, badData := x.badData && blk.length != 256 }) s)
    | .copy p =>
      if below then go { seg := p.seg, first := 0, count := blk.length } old s else
      let data := match lookupKey p.seg k.segs with | some x => x.data | none => []
      match allocSeg key (overlay blk data) s with
      | none => none
      | some (id, s) =>
        let s := countEvent 0x021 1 key s
        go { seg := id, first := 0, count := blk.length } (renameSeg p.seg id old (placeAt old j)) (dropRef g p s)
    | .fresh =>
      match allocSeg key (segData blk) s with
      | none => none
      | some (id, s) => go { seg := id, first := 0, count := blk.length } old s

/-- The chain names a segment whose table entry is in error: an access that consults it faults (R132). -/
def badEntryIn (k : Core) (c : Chain) : Bool := c.pieces.any (fun p => match lookupKey p.seg k.segs with | some x => x.badEntry | none => false)

/-- Bytes cut into blocks of 256. -/
def blocksOf : Nat → List Byte → List (List Byte)
  | 0, _ => []
  | fuel + 1, bs => if bs.isEmpty then [] else bs.take 256 :: blocksOf fuel (bs.drop 256)

/-- A member's result: the first `bs.length` bytes of a result of `total` bytes are written to a register; when the
result is whole the register holds exactly them, and when it was cut short they are followed by the old chain's bytes
from there on (R125, R129). References that are no longer named fall. None where an allocation fails. -/
def writeResult (key r : Nat) (type : BitVec 4) (total lo : Nat) (bs : List Byte) (s : State) : Option State :=
  if bs.isEmpty && total != 0 then some s else
  let old := (vreg (ctxAt s key) r).pieces
  match writePieces key total lo 0 (blocksOf 65 bs) old s with
  | none => none
  | some (ps, old', s) =>
    let tail := if bs.length < total then dropBytes bs.length old' else []
    let new := mergePieces (ps ++ tail)
    let named (p : Piece) : Nat := (new.filter (·.seg == p.seg)).length
    let lost := old'.zipIdx.filter (fun x => (old'.take x.2).countP (·.seg == x.1.seg) ≥ named x.1)
    let s := updCtx s key (setVreg r { valid := true, type := type, pieces := new })
    some (passTagsOn (key / 4) old (dropPieces (key / 4) (lost.map (·.1)) s))

end Sys2Proof.Machine
end

