-- ==== Sys2Proof/Machine/Region.lean ====
section
/-! DEFINITION. Regions and the task graph (R53 to R76, R131, R143's waits left out): records the device reads
and writes in partition memory, entering a Locus, waking a waiting thread, completion objects, predecessor words,
cancellation, event rings, the end of a context, kills and the fault policies. -/

namespace Sys2Proof.Machine

/-! ## Records in partition memory (R368) -/

/-- A region handle (R54). -/
def handleOf (part idx : Nat) : Nat := part * 65536 + idx

/-- The physical address a device access of a partition reaches, at system privilege, or the class of its failure. -/
def deviceAddr (s : State) (part : Nat) (va : Word) : Except Nat Nat :=
  match partAt s part with
  | none => .error 26
  | some p =>
    if 2 ^ 47 ≤ va.toNat then .error 26 else
    match walk s p.hbase va.toNat with
    | .missing => .error 26
    | .leaf e size vbase =>
      if bit e 8 then .error 27
      else if decide (p.hbase ≤ frameOf e) && decide (frameOf e + size ≤ p.hbase + p.hlen) then .ok (frameOf e + (va.toNat - vbase))
      else .error 29

/-- A record as the device reads it. -/
def deviceRead (s : State) (part : Nat) (va : Word) (n : Nat) : Option (List Byte) :=
  match deviceAddr s part va with
  | .ok pa => some (physRead s pa n)
  | .error _ => none

/-- The core on whose account the device accesses a partition's memory for itself: the lowest-numbered of the partition (log 25: DEDUCED, unsafe). -/
def deviceCore (s : State) (part : Nat) : Nat :=
  match partAt s part with
  | some p => p.cores.foldl min (p.cores.headD 0)
  | none => 0

/-- The log entry of a failed device write (R51, R368) (log 25: DEDUCED, unsafe). -/
def logFailed (part region : Nat) (va : Word) (s : State) : State :=
  logError (dieOf (deviceCore s part)) 9 none va (BitVec.ofNat 64 (handleOf part region)) s

/-- A failed device write: logged with CLASS 9, and owed to the POLICY of the region concerned (R368) (log 25: DEDUCED, unsafe). -/
def failedWrite (part region : Nat) (va : Word) (cause : Nat) (s : State) : State :=
  let f : FaultInfo := { cause := cause, core := deviceCore s part, slot := 0, node := 0, detail := va }
  let s := logFailed part region va s
  { s with owed := s.owed ++ [{ part := part, region := region, fault := f }] }

/-- A device write: made, or failed. -/
def deviceWrite (part region : Nat) (va : Word) (bs : List Byte) (s : State) : State :=
  match deviceAddr s part va with
  | .ok pa => physWrite pa bs s
  | .error f => failedWrite part region va f s

/-- A device write of an event record, whose failure is logged only (R368). -/
def eventWrite (part region : Nat) (va : Word) (bs : List Byte) (s : State) : State :=
  match deviceAddr s part va with
  | .ok pa => physWrite pa bs s
  | .error _ => logFailed part region va s

/-! ## Entering a Locus (R65, R78) -/

/-- Something of a Locus changed; 0 to 7 a die's, 8 the hub's. -/
def updLocus (l : Nat) (f : Locus → Locus) (s : State) : State := updDie s l (fun d => { d with locus := f d.locus })

/-- A Locus. -/
def locusAt (s : State) (l : Nat) : Locus := (dieAt s l).locus

/-- An entry changed. -/
def updEntry (l n : Nat) (f : Entry → Entry) (s : State) : State :=
  updLocus l (fun x => { x with entries := x.entries.map (fun e => if e.num == n then f e else e) }) s

/-- An entry of a Locus. -/
def entryAt (s : State) (l n : Nat) : Option Entry := (locusAt s l).entries.find? (·.num == n)

/-- Tenders that a Locus runs (R84). -/
def runningTenders (x : Locus) : Nat :=
  x.entries.countP (fun e => match e.state with | .tendering | .awarded _ => true | _ => false)

/-- A tender may start: a slot is free and an entry waits and is due (R84); the hub, of which no number is stated, runs eight too (log 29: DESIGN CHOICE, unsafe). -/
def kickLocus (l : Nat) (s : State) : State :=
  let x := locusAt s l
  let s := if runningTenders x < 8 && x.entries.any (fun e => e.state == .waiting && e.due) then postOnce (.tenderStart l) s else s
  if x.entries.length < 1048576 && !x.heldSubs.isEmpty then postOnce (.locusWaitingSubmissionEnter l) s else s

/-- Entries of a Locus that are not due become so (R84). -/
def markDue (l : Nat) (p : Entry → Bool) (s : State) : State :=
  kickLocus l (updLocus l (fun x => { x with entries := x.entries.map (fun e => if p e then { e with due := true } else e) }) s)

/-- A charge of a region fell, and with it that of the partition's root, an ancestor of every region there: the partition's entries become due in
every Locus (R57, R84). -/
def markDuePart (part : Nat) (s : State) : State := (upTo 9).foldl (fun s l => markDue l (fun e => e.part == part) s) s

/-- A context of a die was freed or started to wait: its entries become due (R84). -/
def markDueDie (d : Nat) (s : State) : State := markDue 8 (fun _ => true) (markDue d (fun _ => true) s)

/-- A partition quiesces for a checkpoint (R40). -/
def quiescing (s : State) (part : Nat) : Bool := match partAt s part with | some p => p.quiesced | none => false

/-- An entry enters a Locus: it is due, and held while its region is being killed or its partition quiesces (R70, R84). -/
def enterLocus (l : Nat) (e : Entry) (s : State) : State :=
  let x := locusAt s l
  let killing := match regionAt s e.part e.region with | some r => r.state == .killing | none => false
  let e := { e with num := x.nextEntry, entered := (dieAt s l).cycle.toNat, order := x.nextEntry, due := true, state := if killing || quiescing s e.part then .held else .waiting }
  let s := updLocus l (fun x => { x with entries := x.entries ++ [e], nextEntry := x.nextEntry + 1 }) s
  kickLocus l (startTimer l true 16384 (.tenderPriorityRise l e.num) s)

/-- An entry leaves a Locus. -/
def leaveLocus (l n : Nat) (s : State) : State :=
  kickLocus l (stopTimer (.tenderPriorityRise l n) (updLocus l (fun x => { x with entries := x.entries.filter (·.num != n) }) s))

/-- A blank entry. -/
def Entry.blank : Entry :=
  { num := 0, tseq := 0, node := 0, part := 0, region := 0, resume := none, cls := 0, only := none, submitter := none,
    entered := 0, order := 0, rises := 0, state := .waiting, due := true, round := 0, asked := [], answers := [], leftOut := [],
    awardedNow := [], escalated := none, origin := none }

/-- A Locus takes no further submission: it is full, or earlier ones still wait to enter it (R78). -/
def locusFull (x : Locus) : Bool := decide (1048576 ≤ x.entries.length) || !x.heldSubs.isEmpty

/-- A submission waits at a Locus, behind those that wait already (R78). -/
def holdSub (l : Nat) (h : HeldSubmission) (s : State) : State := updLocus l (fun x => { x with heldSubs := x.heldSubs ++ [h] }) s

/-- A context ready again becomes a resume entry bound to its core (R78, R89); `retry` is set for one that has waited to enter. -/
def enterResumeAt (retry : Bool) (num : Nat) (s : State) : State :=
  match s.saved.find? (·.num == num) with
  | none => s
  | some v =>
    let l := dieOf v.core
    let s := { s with saved := s.saved.map (fun w => if w.num == num then { w with ready := true } else w) }
    if !retry && locusFull (locusAt s l) then
      holdSub l { part := v.task.part, region := v.task.region, node := v.task.node, submitter := none, resume := some num, grun := none, restart := none } s
    else
      enterLocus l { Entry.blank with tseq := v.task.tseq, node := v.task.node, part := v.task.part, region := v.task.region, resume := some num, only := some v.core } s

/-- A context has become ready again. -/
def enterResume (num : Nat) (s : State) : State := enterResumeAt false num s

/-! ## Waiting and waking -/

/-- The name under which a thread's bounds and resumes run: its slot, or 2^32 plus the number of its saved image. -/
def savedName (num : Nat) : Nat := 2 ^ 32 + num

/-- A wait of the focus begins: it gives up its slots, entries of the die become due, and WDI bounds waits on another
party: one that completes in the tick of its expiry completes, so the bound runs to the end of that tick (R76, R84, R112). -/
def beginWait (w : Wait) (bounded : Bool) (s : State) : State :=
  let key := s.curKey
  let s := { s with cur := { s.cur with state := .waiting w, waitSince := cycleOf s key } }
  let s := match s.cur.task with
    | some t =>
      match regionAt s t.part t.region with
      | some r => if bounded && r.eff.wdi != 0 then startTimer s.die false (r.eff.wdi + 1) (.regionWatchdogExpiry key) s else s
      | none => s
    | none => s
  markDueDie s.die s

/-- Bounds of a slot's wait stop. -/
def stopWaitTimers (key : Nat) (s : State) : State :=
  stopTimer (.regionWatchdogExpiry key) (stopTimer (.poolEmptyWaitExpiry key) (stopTimer (.rayPermitWaitExpiry key) s))

/-- A thread that waits is given a result in a register and goes on after its word; swapped out, it becomes ready. -/
def wakeWith (thread : Nat) (rd : BitVec 5) (v : Word) (s : State) : State :=
  match slotOfThread s thread with
  | some k =>
    let c := ctxAt s k
    let s := stopWaitTimers k s
    match c.state with
    | .waiting _ => setCtx s k (setX rd v { c with state := .running, pc := c.pc + 4 })
    | .saving r (some _) f => setCtx s k (setX rd v { c with state := .saving r none f, pc := c.pc + 4 })
    | _ => s
  | none =>
    match savedOfThread s thread with
    | some w =>
      if w.ready then s else
      enterResume w.num (stopWaitTimers (savedName w.num) { s with saved := s.saved.map (fun u => if u.num == w.num then { u with wait := none, result := some (rd, v) } else u) })
    | none => s

/-- A thread that waits runs its word again; swapped out, it becomes ready (log 31: DEDUCED, unsafe). -/
def wakeRetry (thread : Nat) (s : State) : State :=
  match slotOfThread s thread with
  | some k =>
    let c := ctxAt s k
    let s := stopWaitTimers k s
    match c.state with
    | .waiting _ => setCtx s k { c with state := .running }
    | .saving r (some _) f => setCtx s k { c with state := .saving r none f }
    | _ => s
  | none =>
    match savedOfThread s thread with
    | some w =>
      if w.ready then s else
      enterResume w.num (stopWaitTimers (savedName w.num) { s with saved := s.saved.map (fun u => if u.num == w.num then { u with wait := none } else u) })
    | none => s

/-- Every thread with a task on a hardware slot or in an image. -/
def threads (s : State) : List Nat :=
  ((ctxKeys s).filter (fun k => (ctxAt s k).task.isSome)).map (fun k => threadOf (ctxAt s k)) ++ s.saved.map (·.task.thread)

/-- What a thread waits for. -/
def waitOfThread (s : State) (thread : Nat) : Option Wait :=
  match slotOfThread s thread with
  | some k => match (ctxAt s k).state with | .waiting w => some w | .saving _ w _ => w | _ => none
  | none => match savedOfThread s thread with | some v => v.wait | none => none

/-! ## Completion objects (R66, R257, R338) -/

/-- VALUE, ECOUNT and ESTAT of the 16 bytes of an object. -/
def objValue (o : List Byte) : Nat := recNat o 0 8
def objEcount (o : List Byte) : Nat := recNat o 10 2
def objEstat (o : List Byte) : Nat := recNat o 8 1

/-- The object after one more end with a status: VALUE wraps, ECOUNT saturates, ESTAT keeps the first error (R66). -/
def objAfter (o : List Byte) (estat : Nat) : List Byte :=
  let ec := if estat = 0 then objEcount o else min 65535 (objEcount o + 1)
  let es := if objEstat o = 0 then estat else objEstat o
  bytesOf 8 (objValue o + 1) ++ bytesOf 8 (es + ec * 65536)

/-- The result of a satisfied wait (R257, R338) (log 49: DEDUCED, unsafe). -/
def waitResult (o : List Byte) : Word :=
  BitVec.ofNat 64 (objEstat o * 256 + (if objEcount o = 0 then 0 else 1))

/-- An object has reached a target. -/
def reached (o : List Byte) (target : Word) : Bool := decide (target.toNat ≤ objValue o)

/-- A wait of a thread has returned the error status of an object: the faults of its engine operations on it are told (R198). -/
def reported (thread : Nat) (obj : Word) (o : List Byte) (s : State) : State :=
  if objEcount o = 0 then s else
  { s with engines := s.engines.filter (fun e => !(e.failed.isSome && e.thread == thread && e.object == obj && obj != 0)) }

/-- The waiters an update satisfies wake, and the GRUNs it completes are answered (R34, R257) (log 49: DEDUCED, unsafe). -/
def wakeWaiters (pa : Nat) (s : State) : State :=
  let o := physRead s pa 16
  let s := (threads s).foldl (fun s th =>
    match waitOfThread s th, taskOfThread s th with
    | some (.twait rd obj target), some t =>
      (match deviceAddr s t.part obj with
       | .ok a => if a = pa && reached o target then joinClocks (dieOf (coreOfThread s th)) (reported th obj o (wakeWith th rd (waitResult o) s)) else s
       | .error _ => s)
    | _, _ => s) s
  (upTo 64).foldl (fun s q => (queueAt s q).cmds.foldl (fun s c =>
    match c.onObject with
    | some (part, obj, target) =>
      (match deviceAddr s part obj with
       | .ok a => if a = pa && reached o target then finish q c.hseq 0 (BitVec.ofNat 64 (objValue o)) (BitVec.ofNat 64 (objEstat o)) s else s
       | .error _ => s)
    | none => s) s) s

/-- A completion object is updated at its home (R66); a failed update counts nothing (R368). -/
def completeObject (part region : Nat) (obj : Word) (estat : Nat) (s : State) : State :=
  if obj = 0 then s else
  match deviceAddr s part obj with
  | .ok pa => wakeWaiters pa (physWrite pa (objAfter (physRead s pa 16) estat) s)
  | .error f => failedWrite part region obj f s

/-! ## Task nodes (R62 to R65) -/

/-- The fields of a node. -/
def nodeEntry (n : List Byte) : Nat := recNat n 0 8
def nodeArg (n : List Byte) : Nat := recNat n 8 8
def nodeNsucc (n : List Byte) : Nat := bits (recNat n 16 8) 58 57
def nodeClass (n : List Byte) : Nat := bits (recNat n 16 8) 51 50
def nodePred (n : List Byte) : Nat := recNat n 20 2
def nodeRegion (n : List Byte) : Nat := recNat n 16 4
def nodeComp (n : List Byte) : Word := BitVec.ofNat 64 (recNat n 24 8)
def nodeState (n : List Byte) : Nat := recNat n 124 1
def nodeCancel (n : List Byte) : Bool := bit (recNat n 125 1) 0
def nodeTseq (n : List Byte) : BitVec 32 := BitVec.ofNat 32 (recNat n 120 4)

/-- Operand i of a node (R63). -/
def nodeOperand (n : List Byte) (i : Nat) : Operand :=
  let w := recNat n (40 + 16 * i) 8
  { base := BitVec.ofNat 64 (recNat n (32 + 16 * i) 8), mode := bits w 55 52, loff := bits w 51 32, size := bits w 31 0 }

/-- The four operands. -/
def nodeOperands (n : List Byte) : List Operand := (upTo 4).map (nodeOperand n)

/-- An operand that the copy engine moves. -/
def copied (o : Operand) : Bool := o.mode == 1 || o.mode == 2 || o.mode == 3

/-- The gang and member that a node's gang operand names. -/
def gangOf (os : List Operand) : Option (Nat × Nat) :=
  (os.find? (·.mode == 4)).map (fun o => (bits o.base.toNat 7 0, bits o.base.toNat 12 8))

/-- The checks of R64 on a node of a partition; `direct` for GRUN, `tsub` and a restart, where PRED must be 0. -/
def nodeOk (s : State) (part : Nat) (direct : Bool) (n : List Byte) : Bool :=
  let w := recNat n 16 8
  let os := nodeOperands n
  let h := nodeRegion n
  let limit := if nodeClass n = 2 then 0x40_0000 else 0x20_0000
  bits w 63 59 == 0 && bits w 56 52 == 0 && bits w 49 48 == 0 && nodeClass n != 3 && nodeNsucc n != 3 &&
    (upTo 4).all (fun i => bits (recNat n (40 + 16 * i) 8) 63 56 == 0) && os.all (fun o => decide (o.mode ≤ 5)) &&
    (nodeComp n).toNat % 16 == 0 && h / 65536 == part && bits h 15 12 == 0 &&
    (match regionAt s part (bits h 11 0) with | some r => r.state == .active || r.state == .killing | none => false) &&
    nodeState n == 0 && nodeEntry n % 4 == 0 &&
    os.all (fun o => !copied o || (o.base.toNat % 64 == 0 && o.size % 64 == 0 && o.size != 0)) &&
    (upTo 4).all (fun i => (upTo i).all (fun j =>
      let a := nodeOperand n i; let b := nodeOperand n j
      !(copied a && copied b && overlap (a.loff * 64) a.size (b.loff * 64) b.size))) &&
    os.all (fun o => o.mode == 0 || o.mode == 4 || decide (o.loff * 64 + o.size ≤ limit)) &&
    decide (os.countP (·.mode == 4) ≤ 1) &&
    os.all (fun o => o.mode != 4 || (nodeClass n == 1 && o.base.toNat / 2 ^ 13 == 0 &&
      s.gangs.any (fun g => g.num == bits o.base.toNat 7 0 && g.part == part && decide (bits o.base.toNat 12 8 < g.rows * g.cols)))) &&
    (!direct || nodePred n == 0)

/-- A task of the region could never be awarded (R59). -/
def neverAwarded (s : State) (part region : Nat) : Bool :=
  let rsv := match regionAt s part region with | some r => r.eff.rsv | none => 0
  (ancestry s part region).any (fun i => match regionAt s part i with
    | some r => r.eff.ctxs == 0 || r.eff.cores == 0 || decide (r.eff.segs < rsv)
    | none => false)

/-- The words NSTATE, TSEQ and CANCEL of a node written (R62, R368). -/
def writeNodeState (part region : Nat) (node : Word) (state : Nat) (cancel : Bool) (tseq : BitVec 32) (s : State) : State :=
  deviceWrite part region (node + 120) (bytesOf 4 tseq.toNat ++ [BitVec.ofNat 8 state, if cancel then 1 else 0, 0, 0]) s

/-- What a submission comes to. -/
inductive Submitted where
  | accepted (tseq : BitVec 32)
  | bad
  | budget
  | full
  deriving DecidableEq, Repr

/-- The die and the core that a node's gang operand chooses (R333). -/
def gangPlace (s : State) (n : List Byte) : Option (Nat × Nat) :=
  match gangOf (nodeOperands n) with
  | some (g, k) => (s.gangs.find? (fun (x : Gang) => x.num == g)).map (fun x => (x.die, x.cores.getD k 0))
  | none => none

/-- A node that passes is submitted (R65): NSTATE 1, the next TSEQ of the Locus, LIVE raised, the entry made. A gang
operand chooses the gang's die (R333). `retry` is set for one that has waited and is the first of those that wait (R78) (log 54: DESIGN CHOICE, unsafe). -/
def submitFrom (retry : Bool) (part : Nat) (node : Word) (die : Nat) (submitter : Option Nat) (direct : Bool) (s : State) : State × Submitted :=
  match deviceRead s part node 128 with
  | none => (s, .bad)
  | some n =>
    if node.toNat % 128 != 0 || !nodeOk s part direct n then (s, .bad) else
    let region := bits (nodeRegion n) 11 0
    if direct && neverAwarded s part region then (s, .budget) else
    let gang := gangPlace s n
    let l := match gang with | some (d, _) => d | none => die
    if (if retry then decide (1048576 ≤ (locusAt s l).entries.length) else locusFull (locusAt s l)) then (s, .full) else
    let tseq := (locusAt s l).nextTseq
    let s := updLocus l (fun x => { x with nextTseq := x.nextTseq + 1 }) s
    let s := writeNodeState part region node 1 (nodeCancel n) tseq s
    let s := updRegion s part region (fun r => { r with live := r.live + 1 })
    let s := enterLocus l { Entry.blank with tseq := tseq, node := node, part := part, region := region, cls := nodeClass n, only := gang.map (·.2), submitter := submitter } s
    (s, .accepted tseq)

/-- A submission, which waits behind those that wait already (R65, R78). -/
def submitNode (part : Nat) (node : Word) (die : Nat) (submitter : Option Nat) (direct : Bool) (s : State) : State × Submitted :=
  submitFrom false part node die submitter direct s

/-- A submission for which its Locus has no room waits at that Locus (R78): the gang's die, or the one given. -/
def holdNode (part region : Nat) (node : Word) (die : Nat) (submitter : Option Nat) (grun : Option (Nat × BitVec 32)) (restart : Option FaultInfo) (s : State) : State :=
  let l := match (deviceRead s part node 128).bind (gangPlace s) with | some (d, _) => d | none => die
  holdSub l { part := part, region := region, node := node, submitter := submitter, resume := none, grun := grun, restart := restart } s

/-! ## Event rings (R56, R74) -/

/-- The region whose ring takes a region's records: its own, or its nearest ancestor's. -/
def ringOwner (s : State) (part region : Nat) : Option (Nat × Word × Nat) :=
  (ancestry s part region).findSome? (fun i => match regionAt s part i with
    | some r => r.ring.map (fun x => (i, x.1, x.2))
    | none => none)

/-- The 32 bytes of an event record (R74). -/
def eventBytes (refk : Word) (kind : Nat) (f : FaultInfo) : List Byte :=
  bytesOf 8 refk.toNat ++ bytesOf 8 (kind * 2 ^ 56 + f.cause * 2 ^ 48 + f.core * 2 ^ 32 + f.slot * 2 ^ 24) ++
    bytesOf 8 f.node.toNat ++ bytesOf 8 f.detail.toNat

/-- A record of a reporting die is written at EHEAD mod 2^ELOG2, EHEAD advances, and ELOST counts one overwritten (R74). A record
whose write fails is not counted by either (log 25: DEDUCED, unsafe). -/
def writeEventOf (die part region kind : Nat) (f : FaultInfo) (s : State) : State :=
  match ringOwner s part region with
  | none => s
  | some (i, base, log2) =>
    match regionAt s part i with
    | none => s
    | some r =>
      let slot := r.ehead.toNat % 2 ^ log2
      let a := base + BitVec.ofNat 64 (slot * 32)
      let made := match deviceAddr s part a with | .ok _ => true | .error _ => false
      let s := eventWrite part region a (eventBytes (dieAt s die).refk kind f) s
      if made then updRegion s part i (fun r => { r with written := r.written + 1, ehead := r.ehead + 1, elost := if 2 ^ log2 ≤ r.written then r.elost + 1 else r.elost })
      else s

/-- A record reported by the die of the fault's core. -/
def writeEvent (part region kind : Nat) (f : FaultInfo) (s : State) : State := writeEventOf (dieOf f.core) part region kind f s

/-- The device-owned words of a region's block, as they stand (R53) (log 25: DEDUCED, unsafe). -/
def blockWords (s : State) (r : Region) : List Byte :=
  let st := match r.state with | .active => 0 | .killing => 1 | .retired => 2 | .retiring => 3
  let kids := s.regions.countP (fun c => c.part == r.part && c.parent == some r.idx && c.state != .retired)
  bytesOf 8 r.parentBlock.toNat ++ bytesOf 8 (st * 2 ^ 56 + r.rcount % 16 * 2 ^ 52 + kids * 2 ^ 32 + handleOf r.part r.idx) ++
    bytesOf 8 (r.outs * 2 ^ 32 + r.live) ++ bytesOf 8 (r.segUse * 2 ^ 43 + r.ctxUse * 2 ^ 32 + r.coreUse.length * 2 ^ 16) ++
    bytesOf 8 (r.planeUse * 2 ^ 32 + r.facetUse) ++ bytesOf 8 (r.elost.toNat * 2 ^ 32 + r.ehead.toNat) ++
    bytesOf 8 r.gerr.toNat ++ List.replicate 8 0

/-- The device writes a region's words (R53, R368). -/
def writeBlock (part region : Nat) (s : State) : State :=
  match regionAt s part region with
  | some r => deviceWrite part region (r.block + 64) (blockWords s r) s
  | none => s

/-- A region's words are written as they change (R53, R368) (log 25: DEDUCED, unsafe). -/
def syncBlock (old : State) (r : Region) (s : State) : State :=
  let before := match regionAt old r.part r.idx with
    | some q => if q.block = r.block then blockWords old q else []
    | none => []
  let now := blockWords s r
  if before = now then s else deviceWrite r.part r.idx (r.block + 64) now s

/-- The words of every region that changed since an earlier state (log 25: DEDUCED, unsafe). -/
def syncBlocks (old s : State) : State :=
  if old.regions = s.regions then s else s.regions.foldl (fun t r => syncBlock old r t) s

/-! ## Successors, predecessor words and cancellation (R67, R68, R71) -/

/-- The addresses of a successor extension list, each block seven and the next; a zero address ends the list (log 54: DESIGN CHOICE, unsafe). -/
def extension (s : State) (part : Nat) : Nat → Word → List Word
  | 0, _ => []
  | fuel + 1, a =>
    if a = 0 then [] else
    match deviceRead s part a 64 with
    | none => []
    | some b =>
      let ws := (upTo 7).map (fun i => (BitVec.ofNat 64 (recNat b (8 * i) 8) : Word))
      let here := ws.takeWhile (· != 0)
      if here.length < 7 then here else here ++ extension s part fuel (BitVec.ofNat 64 (recNat b 56 8))

/-- A node's successors in list order; a zero address ends the list, and an address space holds no more than 2^41 extension blocks (R62). -/
def successors (s : State) (part : Nat) (n : List Byte) : List Word :=
  let own := (upTo (nodeNsucc n)).map (fun i => (BitVec.ofNat 64 (recNat n (96 + 8 * i) 8) : Word))
  let here := own.takeWhile (· != 0)
  if here.length < own.length then here else here ++ extension s part (2 ^ 41) (BitVec.ofNat 64 (recNat n 112 8))

/-- A graph error of a region (R68). -/
def graphError (part region : Nat) (s : State) : State := updRegion s part region (fun r => { r with gerr := r.gerr + 1 })

/-- A node's cancellation completes: its object is incremented with ESTAT 6 and its successors receive cancelling
decrements, in list order (R71). -/
def cancelNode (part : Nat) (core : Nat) (n : List Byte) (s : State) : State :=
  let region := bits (nodeRegion n) 11 0
  let s := completeObject part region (nodeComp n) 6 s
  postInOrder ((successors s part n).map (fun a => .cancellingDecrement part region a core)) s

/-- The region that a successor's node names, where the device can read no node there (R368): the one in the bytes that a leaf out of the share leads
to, and otherwise open (log 12: DESIGN CHOICE, safe). -/
def unreadRegion (s : State) (part : Nat) (node : Word) : Nat :=
  let far : Option (List Byte) := match partAt s part with
    | some p => (match walk s p.hbase node.toNat with
      | .leaf e _ vbase => if bit e 8 || !physExists (frameOf e) then none else some (physRead s (frameOf e + (node.toNat - vbase)) 128)
      | .missing => none)
    | none => none
  match far with
  | some n => bits (nodeRegion n) 11 0
  | none => (Config.word (freeIndex s 2)).toNat % 4096

/-- A decrement reaches a PRED word (R68, R71): the one that takes it from 1 to 0 submits the node, or completes its
cancellation when CANCEL is set; one that finds 0 raises GERR. A failed device write counts in GERR of the successor's region (R368).
GERR of a node refused on its release is that of the region of the submitting partition that bits [11:0] of its REGION name (log 54: DESIGN CHOICE, unsafe). -/
def decrement (part region : Nat) (node : Word) (core : Nat) (cancelling : Bool) (s : State) : State :=
  match deviceAddr s part node with
  | .error f => graphError part (unreadRegion s part node) (failedWrite part region node f s)
  | .ok pa =>
    let n := physRead s pa 128
    let own := bits (nodeRegion n) 11 0
    let p := nodePred n
    if p = 0 then graphError part own s else
    let cancel := cancelling || nodeCancel n
    let s := physWrite (pa + 20) (bytesOf 2 (p - 1)) s
    let s := physWrite (pa + 125) [if cancel && p != 1 then 1 else 0] s
    if p ≠ 1 then s else
    if cancel then cancelNode part core n s else
    let n := physRead s pa 128
    match submitNode part node (dieOf core) (some core) false s with
    | (s, .accepted _) => s
    | (s, .full) => holdNode part own node (dieOf core) (some core) none none s
    | (s, _) =>
      let s := graphError part own s
      if nodeState n != 0 then s else cancelNode part core n s

/-! ## Rays and barriers of a thread that ends (R131, R201, R343, R350) -/

/-- A sender whose `vsend` waits for permits may try again (R367). -/
def senderDue (e : RayEnd) (s : State) : State :=
  match slotOfThread s e.thread with
  | some k =>
    let c := ctxAt s k
    if c.state == .waiting (.rayPermit e.handle) || (atRuntime c 50 && c.stval == BitVec.ofNat 64 e.handle) then postOnce (.rayPermitResume k) s else s
  | none => s

/-- A message's segments are released (R343). -/
def releaseMsg (core : Nat) (m : Msg) (s : State) : State := dropPieces core m.pieces s

/-- Ends of rays close (R343, R201): a send end returns GRANTED − ARRIVED permits to the receiver's record, and the
segments set aside for them; a receive end releases every queued message and closes the ray. -/
def closeEnds (which : RayEnd → Bool) (s : State) : State :=
  (upTo 8).foldl (fun s d =>
    (dieAt s d).rays.foldl (fun s r =>
      let gone (e : Option RayEnd) : Bool := match e with | some e => which e | none => false
      if !gone r.send && !gone r.recv then s else
      let same (x : Ray) : Bool := x.key == r.key && x.part == r.part
      let s := match r.recv with
        | some e => (match taskOfThread s e.thread with | some t => refundSegs t.part t.region r.aside s | none => s)
        | none => s
      if gone r.recv then
        let s := updDie s d (fun x => { x with rays := x.rays.filter (fun x => !same x) })
        let s := match r.send with | some e => senderDue e s | none => s
        (match r.recv with | some e => r.queue.foldl (fun s m => releaseMsg (coreOfThread s e.thread) m s) s | none => s)
      else
        let r := { r with send := none, granted := r.arrived, aside := 0 }
        updDie s d (fun x => { x with rays := if r.recv.isSome then x.rays.map (fun x => if same x then r else x) else x.rays.filter (fun x => !same x) })) s) s

/-- The die that holds a barrier: 8 for one of the package. -/
def barrierHome (b : Barrier) : Nat := match b.die with | some d => d | none => 8

/-- A barrier by its handle. -/
def barrierAt (s : State) (handle : Nat) : Option Barrier :=
  (upTo 9).findSome? (fun d => (dieAt s d).barriers.find? (·.handle == handle))

/-- A barrier changed. -/
def updBarrier (handle : Nat) (f : Barrier → Barrier) (s : State) : State :=
  (upTo 9).foldl (fun s d => if (dieAt s d).barriers.any (·.handle == handle) then
    updDie s d (fun x => { x with barriers := x.barriers.map (fun b => if b.handle == handle then f b else b) }) else s) s

/-- The waiters of a barrier are sent resume messages (R351). -/
def resumeWaiters (handle : Nat) (s : State) : State :=
  (threads s).foldl (fun s th =>
    match waitOfThread s th with
    | some (.barrier _ h _) | some (.collective _ h _) =>
      if h = handle then
        match slotOfThread s th with
        | some k => postOnce (.barrierResume k) s
        | none => match savedOfThread s th with | some v => postOnce (.barrierResume (savedName v.num)) s | none => s
      else s
    | _ => s) s

/-- A barrier breaks for good (R350); the results of a phase that has completed are held on for their contributors (R353). -/
def breakBarrier (handle : Nat) (s : State) : State :=
  resumeWaiters handle (updBarrier handle (fun b => { b with broken := true, contribs := [] }) s)

/-- A registered thread has ended: the barrier breaks when the arrivals still expected exceed the live tasks that have
not arrived (R75, R350). -/
def leaveBarriers (thread : Nat) (contributed : Bool) (s : State) : State :=
  (upTo 9).foldl (fun s d =>
    (dieAt s d).barriers.foldl (fun s b =>
      if !b.registered.contains thread then s else
      let s := updBarrier b.handle (fun b => { b with registered := b.registered.filter (· != thread) }) s
      let live := match regionAt s b.part b.region with | some r => r.live | none => 0
      let arrivedLive := (b.arrived.filter (fun t => t != thread && (threads s).contains t)).eraseDups.length
      if b.broken then s
      else if (live - arrivedLive < b.expected - b.arrivals) || (contributed && b.contribs.any (·.thread == thread)) then breakBarrier b.handle s
      else s) s) s

/-! ## The end of a context (R67 step 5, R131) -/

/-- Segments of an ended thread that others still name pass their TAG, and the charge, to the lowest-numbered context
that names them, a live one before a saved one of the same number, or to the receiver of the ray that does (R117) (log 53: DESIGN CHOICE, unsafe). -/
def passTags (g thread : Nat) (t : Task) (s : State) : State :=
  let names (c : Vector Chain 32) (id : Nat) : Bool := c.toList.any (fun x => x.pieces.any (·.seg == id))
  let heirs (id : Nat) : Option Nat :=
    match (upTo 4).findSome? (fun i =>
      if names (ctxAt s (g * 4 + i)).v id && (ctxAt s (g * 4 + i)).task.isSome then some (threadOf (ctxAt s (g * 4 + i)))
      else (s.saved.find? (fun v => v.core == g && v.slot == i && names v.chains id)).map (·.task.thread)) with
    | some th => some th
    | none => (dieAt s (dieOf g)).rays.findSome? (fun r => if r.queue.any (fun m => m.pieces.any (·.seg == id)) then r.recv.map (·.thread) else none)
  (coreAt s g).segs.foldl (fun s x =>
    if x.2.tag != thread then s else
    match heirs x.1 with
    | none => s
    | some h =>
      let s := refundSegs t.part t.region 1 (updSeg g x.1 (fun y => { y with tag := h }) s)
      match taskOfThread s h with | some u => chargeSegs u.part u.region 1 s | none => s) s

/-- The core no longer holds a context of the region once less (R58 CORES, CTXS). -/
def unchargeContext (part region core : Nat) (s : State) : State :=
  chargeLine part region (fun r =>
    { r with ctxUse := r.ctxUse - 1,
             coreUse := (r.coreUse.map (fun p => if p.1 == core then (p.1, p.2 - 1) else p)).filter (fun p => 0 < p.2) }) s

/-- The reserve of a thread that ends becomes 0, with what returning segments have put back into it, and its charge falls (R131). -/
def endReserve (t : Task) (s : State) : State :=
  match slotOfThread s t.thread with
  | some k => refundSegs t.part t.region (ctxAt s k).pres (updCtx s k (fun c => { c with pres := 0 }))
  | none =>
    match savedOfThread s t.thread with
    | some v => refundSegs t.part t.region v.pres { s with saved := s.saved.map (fun w => if w.num == v.num then { w with pres := 0 } else w) }
    | none => s

/-- What a context's end releases, live or saved: its chains, its reserve, its ray ends, its barrier registrations, its
stack, its charges and LIVE; NSTATE returns to 0. -/
def releaseTask (t : Task) (core : Nat) (chains : List Chain) (killed : Bool) (s : State) : State :=
  let s := closeEnds (·.thread == t.thread) s
  let s := chains.foldl (fun s c => dropPieces core c.pieces s) s
  let s := endReserve t s
  let s := passTags core t.thread t s
  let s := unchargeContext t.part t.region core s
  let s := updRegion s t.part t.region (fun r => { r with live := r.live - 1 })
  let s := match t.stack with
    | some k => updPart s t.part (fun p => { p with stackSlots := p.stackSlots.filter (· != k) })
    | none => s
  let s := leaveBarriers t.thread killed s
  let s := writeNodeState t.part t.region t.node 0 false t.tseq s
  markDuePart t.part s

/-- A core that holds no context, and has taken no award, is bound to no lane split (R60). -/
def unbindSplit (g : Nat) (s : State) : State :=
  if (coreAt s g).lsplit.isSome && (coreAt s g).awards.isEmpty && (upTo 4).all (fun i => (ctxAt s (g * 4 + i)).task.isNone) then
    updCore s g (fun k => { k with lsplit := none })
  else s

/-- A slot becomes free, and with the last one its core's lane split (R60) (log 53: DESIGN CHOICE, unsafe). -/
def freeSlot (key : Nat) (s : State) : State :=
  let s := setCtx s key Ctx.reset
  let s := retract (fun e => e == .saveOwedWritesDelivered key || e == .saveImageWritten key || e == .poolEmptyRestart key ||
    e == .rayPermitResume key || e == .barrierResume key || e == .retireComplete key || e == .releaseComplete key) s
  let s := stopTimer (.lrReservationExpiry key) (stopTimer (.protectionExpiry key) (stopTimer (.preemptionStopTimeout key) (stopWaitTimers key s)))
  let g := key / 4
  let s := if (coreAt s g).awards.any (fun a => a.committed && a.slot == key % 4) then postOnce (.convoyBoundaryStop key) s else s
  markDueDie (dieOf g) (unbindSplit g s)

/-- The context of a slot ends (R67 step 5, R131). -/
def endContext (key : Nat) (killed : Bool) (s : State) : State :=
  let c := ctxAt s key
  match c.task with
  | none => s
  | some t =>
    let frame := match c.state with | .saving _ _ f => some f | _ => none
    let s := setCtx s key { c with v := Vector.replicate 32 Chain.empty }
    let s := releaseTask t (key / 4) c.v.toList killed s
    let s := match frame with | some f => updPart s t.part (fun p => { p with frames := p.frames ++ [f] }) | none => s
    freeSlot key s

/-- What was set aside for an award is given back (log 29: DESIGN CHOICE, unsafe). -/
def refundAward (core : Nat) (a : Award) (s : State) : State :=
  let s := updCore s core (fun k => { k with awards := k.awards.filter (fun b => !(b.locus == a.locus && b.entry == a.entry)) })
  let s := match a.frame with | some f => updPart s a.part (fun p => { p with frames := p.frames ++ [f] }) | none => s
  let s := match a.stack with | some k => updPart s a.part (fun p => { p with stackSlots := p.stackSlots.filter (· != k) }) | none => s
  let s := unbindSplit core s
  if a.resume.isSome then s else
  markDuePart a.part (refundSegs a.part a.region a.rsv (unchargeContext a.part a.region core s))

/-- A saved context ends: its frame returns, its resume entry goes (R90, R202). -/
def endSaved (v : Saved) (s : State) : State :=
  let s := { s with saved := s.saved.map (fun w => if w.num == v.num then { w with chains := Vector.replicate 32 Chain.empty } else w) }
  let s := releaseTask v.task v.core v.chains.toList true s
  let s := { s with saved := s.saved.filter (·.num != v.num) }
  let s := ((coreAt s v.core).awards.filter (fun a => a.resume == some v.num)).foldl (fun s a => refundAward v.core a s) s
  let s := updPart s v.task.part (fun p => { p with frames := p.frames ++ [v.frame] })
  let s := stopTimer (.protectionExpiry (savedName v.num)) (stopWaitTimers (savedName v.num) s)
  kickLocus (dieOf v.core) (updLocus (dieOf v.core) (fun x => { x with entries := x.entries.filter (·.resume != some v.num), heldSubs := x.heldSubs.filter (·.resume != some v.num) }) s)

/-! ## Kills (R69 to R71, R258) -/

/-- A region and its descendants. -/
def subtree (s : State) (part region : Nat) : List Nat :=
  (s.regions.filter (fun r => r.part == part && (ancestry s part r.idx).contains region)).map (·.idx)

/-- What a kill of a task owes: its object's increment, and a cancelling decrement of each successor in list order. -/
def killDues (s : State) (part region : Nat) (node comp : Word) (core : Nat) : List Instr :=
  (if comp = 0 then [] else [Instr.completionObjectUpdate part region comp 1]) ++
    (match deviceRead s part node 128 with
     | some n => (successors s part n).map (fun a => Instr.cancellingDecrement part region a core)
     | none => [])

/-- A task entry in its own Locus, not yet dispatched. -/
def isTaskEntry (e : Entry) : Bool := e.resume.isNone && e.origin.isNone && e.state != .dispatched

/-- Tasks dispatched to a core whose slot is still being saved: the core and the award. -/
def limboAwards (s : State) (part : Nat) (which : Nat → Bool) : List (Nat × Award) :=
  s.cores.flatMap (fun c => (c.2.awards.filter (fun a => a.committed && a.part == part && which a.region && a.resume.isNone)).map (fun a => (c.1, a)))

/-- A task whose slot is still being saved ends before it has started. -/
def endLimbo (core : Nat) (a : Award) (s : State) : State :=
  let s := writeNodeState a.part a.region a.node 0 false a.tseq s
  refundAward core a (updRegion s a.part a.region (fun r => { r with live := r.live - 1 }))

/-- Every task of a subtree that runs, is saved or stands in a Locus is killed with ESTAT 1; STATE returns to active
once every kill has ended (R69) (log 54: DESIGN CHOICE, unsafe). -/
def killSubtree (part region : Nat) (s : State) : State :=
  let line := subtree s part region
  let s := { s with regions := s.regions.map (fun r => if r.part == part && line.contains r.idx && r.state != .retired && r.state != .retiring then { r with state := .killing } else r) }
  let mine (t : Task) : Bool := t.part == part && line.contains t.region
  let live := (ctxKeys s).filter (fun k => match (ctxAt s k).task with | some t => mine t | none => false)
  let dues1 := live.flatMap (fun k => match (ctxAt s k).task with | some t => killDues s t.part t.region t.node t.comp (k / 4) | none => [])
  let gone := s.saved.filter (fun v => mine v.task)
  let dues2 := gone.flatMap (fun v => killDues s v.task.part v.task.region v.task.node v.task.comp v.core)
  let entries := (upTo 9).flatMap (fun l => ((locusAt s l).entries.filter (fun e => e.part == part && line.contains e.region && isTaskEntry e)).map (fun e => (l, e)))
  let dues3 := entries.flatMap (fun p =>
    let comp := match deviceRead s part p.2.node 128 with | some n => nodeComp n | none => 0
    killDues s part p.2.region p.2.node comp (match p.2.submitter with | some c => c | none => (p.1 % 8) * 48))
  let limbo := limboAwards s part line.contains
  let dues4 := limbo.flatMap (fun p =>
    let comp := match deviceRead s part p.2.node 128 with | some n => nodeComp n | none => 0
    killDues s part p.2.region p.2.node comp p.1)
  let s := live.foldl (fun s k => endContext k true s) s
  let s := limbo.foldl (fun s p => endLimbo p.1 p.2 s) s
  let s := gone.foldl (fun s v => endSaved v s) s
  let s := entries.foldl (fun s p =>
    let s := writeNodeState part p.2.region p.2.node 0 false p.2.tseq s
    leaveLocus p.1 p.2.num (updRegion s part p.2.region (fun r => { r with live := r.live - 1 }))) s
  let s := updLocus 8 (fun x => { x with entries := x.entries.filter (fun e => !(e.part == part && line.contains e.region)) }) s
  postInOrder (dues1 ++ dues2 ++ dues3 ++ dues4 ++ line.map (fun i => Instr.killEnd part i)) s

/-- A region of the partition is being killed, or an ancestor is. -/
def underKill (s : State) (part region : Nat) : Bool :=
  (ancestry s part region).any (fun i => match regionAt s part i with | some r => r.state == .killing | none => false)

/-- The task of a faulted thread ends as if killed (R69, notify): its object records the status, its successors are
decremented. -/
def endAsNotified (thread estat : Nat) (s : State) : State :=
  match taskOfThread s thread with
  | none => s
  | some t =>
    let core := coreOfThread s thread
    let dues := (if t.comp = 0 then [] else [Instr.completionObjectUpdate t.part t.region t.comp (BitVec.ofNat 8 estat)]) ++
      (match deviceRead s t.part t.node 128 with
       | some n => (successors s t.part n).map (fun a => Instr.predDecrement t.part t.region a core)
       | none => [])
    let s := match slotOfThread s thread with
      | some k => endContext k true s
      | none => match savedOfThread s thread with | some v => endSaved v s | none => s
    postInOrder dues s


/-- A fault is delivered to the POLICY of a region (R69, R70, R72); `thread` is the task that faulted, if it still runs.
`fuel` bounds the climb through the parents. Under notify the task of a copy back that fails goes on to retire, with its own status (R67) (log 30: DESIGN CHOICE, unsafe).
NODE, CAUSE and DETAIL of the records of restarts and escalations are the fault's (log 25: DEDUCED, unsafe). -/
def deliverAt (part : Nat) (f : FaultInfo) (thread : Option Nat) (operand : Bool) (drain : Nat → State → State) : Nat → Nat → State → State
  | 0, _, s => s
  | fuel + 1, region, s =>
    match regionAt s part region with
    | none => s
    | some r =>
      match r.eff.policy with
      | 0 =>
        let s := writeEvent part region 1 f s
        (match thread with
         | some th => if operand && waitOfThread s th == some .retiring then s else endAsNotified th (if operand then 3 else 4) s
         | none => s)
      | 1 =>
        let s := writeEvent part region 1 f s
        if underKill s part region then s else killSubtree part region s
      | _ =>
        let s := writeEvent part region 1 f s
        if underKill s part region then s else
        let s := killSubtree part region s
        let s := updRegion s part region (fun r => { r with rcount := r.rcount + 1 })
        let escalate (s : State) : State :=
          let s := writeEvent part region 4 f s
          match r.parent with
          | some p => deliverAt part f none operand drain fuel p s
          | none => drain part s
        if r.rcount + 1 ≤ r.eff.rlim then
          match submitNode part r.eff.rnode (dieOf f.core) none true s with
          | (s, .accepted _) => writeEvent part region 3 f s
          | (s, .full) => holdNode part region r.eff.rnode (dieOf f.core) none none (some f) s
          | (s, _) => escalate (graphError part region s)
        else escalate s

end Sys2Proof.Machine
end

