-- ==== Sys2Proof/Machine/Drain.lean ====
section
/-! DEFINITION. Draining a partition (R38, R40, R201, R202, R363), and the delivery of faults to a region's
POLICY, from whose root a drain can arise (R69 to R72). -/

namespace Sys2Proof.Machine

/-! ## The drain begins (R38 steps 1 and 2, R202 steps 1 to 3) -/

/-- The queues bound to a partition, DISABLED ones too. -/
def boundQueues (s : State) (part : Nat) : List Nat := (upTo 64).filter (fun q => (queueAt s q).part == some part)

/-- A step carries out a command of the queue. -/
def isCommandOf (q : Nat) (e : Instr) : Bool := queueAtCmd e == some q
where
  /-- The queue whose command a step carries out. -/
  queueAtCmd : Instr → Option Nat
    | .nop a _ | .pcreate a _ | .pdestroy a _ | .qbind a _ | .pdrain a _ | .rcreate a _ | .grun a _ | .wdog a _
    | .cksave a _ | .ckload a _ | .fstep a _ | .qfence a _ | .rretire a _ | .reservedOpcode a _
    | .checkpointQuiesced a _ | .checkpointCopyComplete a _ => some a
    | _ => none

/-- Steps that act on the task graph of a partition, which a drain abandons (R71). -/
def isGraphStep (part : Nat) (e : Instr) : Bool :=
  match e with
  | .predDecrement p _ _ _ | .cancellingDecrement p _ _ _ | .killEnd p _ | .regionRetire p _ => p == part
  | _ => false

/-- A partition is quiesced while some checkpoint has it in scope (R40). -/
def settleQuiesced (s : State) : State :=
  { s with parts := s.parts.map (fun p => { p with quiesced := s.checkpoints.any (fun c => c.all || c.parts.contains p.id) }) }

/-- A queue enters DRAINING: commands in flight and not answered are answered only by the drain. -/
def drainQueue (q : Nat) (s : State) : State :=
  let s := retract (isCommandOf q) (updQueue s q (fun k => { k with state := .draining, cmds := k.cmds.map (fun c => { c with begun := true, onObject := none }) }))
  settleQuiesced { s with checkpoints := s.checkpoints.filter (fun c => c.q != q) }

/-- The objects of a partition's tasks and task entries, each to be incremented once with ESTAT 2 (R202) (log 54: DESIGN CHOICE, unsafe). -/
def drainDues (s : State) (part : Nat) : List Instr :=
  let one (region : Nat) (comp : Word) : List Instr := if comp = 0 then [] else [.completionObjectUpdate part region comp 2]
  let live := (ctxKeys s).flatMap (fun k => match (ctxAt s k).task with | some t => if t.part == part then one t.region t.comp else [] | none => [])
  let saved := s.saved.flatMap (fun v => if v.task.part == part then one v.task.region v.task.comp else [])
  let entries := (upTo 9).flatMap (fun l => (locusAt s l).entries.flatMap (fun e =>
    if e.part == part && isTaskEntry e then
      one e.region (match deviceRead s part e.node 128 with | some n => nodeComp n | none => 0)
    else []))
  let limbo := (limboAwards s part (fun _ => true)).flatMap (fun p => one p.2.region (match deviceRead s part p.2.node 128 with | some n => nodeComp n | none => 0))
  entries ++ live ++ saved ++ limbo

/-- Every Locus entry and held submission of a partition goes; a removed task's NSTATE returns to 0. -/
def dropEntries (part : Nat) (s : State) : State :=
  (upTo 9).foldl (fun s l =>
    let s := ((locusAt s l).entries.filter (fun e => e.part == part)).foldl (fun s e =>
      let s := stopTimer (.tenderPriorityRise l e.num) s
      if isTaskEntry e then
        updRegion (writeNodeState part e.region e.node 0 false e.tseq s) part e.region (fun r => { r with live := r.live - 1 })
      else s) s
    kickLocus l (updLocus l (fun x => { x with entries := x.entries.filter (fun e => e.part != part), heldSubs := x.heldSubs.filter (fun h => h.part != part) }) s)) s

/-- Every operation of a draining partition has ended: the step of R202 step 4 falls due. -/
def checkSettled (part : Nat) (s : State) : State :=
  match partAt s part with
  | some p =>
    if p.drain == some .operations && !s.engines.any (fun e => e.part == part && e.failed.isNone) && !s.pending.any (fun e => e.issuers.any (fun i => i.part == part)) &&
        !s.fetches.any (fun f => f.1 == part) && !s.agenda.any (fun l => l.any (fun e => match e with | .completionObjectUpdate q _ _ _ => q == part | _ => false))
    then postOnce (.drainOperationsSettled part) s else s
  | none => s

/-- Barriers of a partition are broken and freed. -/
def dropBarriers (which : Barrier → Bool) (s : State) : State :=
  let hs := (upTo 9).flatMap (fun d => ((dieAt s d).barriers.filter which).map (·.handle))
  let s := hs.foldl (fun s h => breakBarrier h s) s
  (upTo 9).foldl (fun s d => updDie s d (fun x => { x with barriers := x.barriers.filter (fun b => !which b) })) s

/-- A drain begins; one in progress is joined. -/
def beginDrain (part : Nat) (s : State) : State :=
  match partAt s part with
  | none => s
  | some p =>
    if p.drain.isSome then s else
    let s := updPart s part (fun p => { p with drain := some .operations })
    let s := (boundQueues s part).foldl (fun s q => drainQueue q s) s
    let dues := drainDues s part
    let s := dropEntries part s
    let s := (limboAwards s part (fun _ => true)).foldl (fun s p => endLimbo p.1 p.2 s) s
    let s := ((ctxKeys s).filter (fun k => match (ctxAt s k).task with | some t => t.part == part | none => false)).foldl (fun s k => endContext k true s) s
    let s := (s.saved.filter (fun v => v.task.part == part)).foldl (fun s v => endSaved v s) s
    let s := dropBarriers (fun b => b.part == part) s
    let s := retract (isGraphStep part) { s with tokens := s.tokens.filter (fun t => t.issuer.part != part) }
    checkSettled part (dues.foldl (fun s e => post e s) s)

/-- A checkpoint in its copy phase covers a partition (R40). -/
def copying (s : State) (part : Nat) : Bool := s.checkpoints.any (fun c => c.copying && (c.all || c.parts.contains part))

/-- A drain is asked for: it begins, or waits for a copy phase to end (R38, R40). -/
def askDrain (part : Nat) (s : State) : State :=
  if copying s part then { s with waitingDrains := s.waitingDrains ++ [{ part := part }] } else beginDrain part s

/-- The partitions in a checkpoint's scope (R39). -/
def scopeParts (s : State) (c : Checkpoint) : List Nat := if c.all then s.parts.map (·.id) else c.parts

/-- No task of the partitions in a checkpoint's scope runs: its copy may begin (R40). No slot and no committed award holds one; a saved context does not
run, since its resume entry is held until the checkpoint ends (log 36: DESIGN CHOICE, unsafe). -/
def checkQuiesced (s : State) : State :=
  let busy (p : Nat) : Bool :=
    (ctxKeys s).any (fun k => match (ctxAt s k).task with | some t => t.part == p | none => false) ||
      !(limboAwards s p (fun _ => true)).isEmpty || (match partAt s p with | some x => x.drain.isSome | none => false)
  s.checkpoints.foldl (fun s c => if !c.copying && !(scopeParts s c).any busy then postOnce (.checkpointQuiesced c.q c.hseq) s else s) s

/-! ## Faults delivered to a POLICY (R69 to R72) -/

/-- A fault is delivered to the POLICY of a region. The tree is at most 16 levels deep (R54). -/
def deliver (part region : Nat) (f : FaultInfo) (thread : Option Nat) (operand : Bool) (s : State) : State :=
  checkQuiesced (deliverAt part f thread operand askDrain 17 region s)

/-- A restart has failed: its fault is recorded and escalates to the parent, or from the root to a drain (R69). -/
def escalateFault (part region : Nat) (f : FaultInfo) (s : State) : State :=
  let s := writeEvent part region 4 f s
  match (regionAt s part region).bind (·.parent) with
  | some p => deliver part p f none false s
  | none => askDrain part s

/-- The fault of a thread that runs: its core, its slot, its node. -/
def faultOf (s : State) (key : Nat) (cause : Nat) (detail : Word) : FaultInfo :=
  { cause := cause, core := key / 4, slot := key % 4, node := (match (ctxAt s key).task with | some t => t.node | none => 0), detail := detail }

/-- A fault of a slot's task that the runtime does not resolve (R367). -/
def deliverOf (key : Nat) (cause : Nat) (detail : Word) (s : State) : State :=
  match (ctxAt s key).task with
  | some t => deliver t.part t.region (faultOf s key cause detail) (some t.thread) false s
  | none => s

/-- A fault with no task to end: of an engine operation or a write whose issuer no longer answers for it (R72, R197). -/
def deliverOrphan (part region : Nat) (f : FaultInfo) (s : State) : State :=
  match partAt s part with
  | some p => if p.drain.isSome then s else deliver part region f none false s
  | none => s

/-- Failures of device writes, and faults of engine operations whose task ended before a wait of it returned them, are
delivered (R72, R198, R368). -/
def settleOwed (s : State) : State :=
  let lost := s.engines.filter (fun e => e.failed.isSome && (taskOfThread s e.thread).isNone)
  let owed := s.owed ++ lost.filterMap (fun e => e.failed.map (fun f => { part := e.part, region := e.region, fault := f }))
  if owed.isEmpty then s else
  let s := { s with owed := [], engines := s.engines.filter (fun e => !(e.failed.isSome && (taskOfThread s e.thread).isNone)) }
  owed.foldl (fun s o => deliverOrphan o.part o.region o.fault s) s

/-- A write of the focus that meets an uncorrectable error in part is discarded and delivered (R197) (log 56: DESIGN CHOICE, unsafe). -/
def discardWrite (key : Nat) (s : State) : State :=
  let s := logError s.die 1 (some s.core) (errorAddr key) (openField s) s
  match s.cur.task with
  | some t => { s with owed := s.owed ++ [{ part := t.part, region := t.region, fault := faultOf s s.curKey 49 (errorAddr key) }] }
  | none => s

/-- A store of the focus of bytes that passed their checks (log 56: DESIGN CHOICE, unsafe). -/
def storeChecked (vec : Bool) (addr key : Nat) (bs : List Byte) (s : State) : State :=
  if partialOnError key bs.length s then discardWrite key s
  else storeOwn vec addr key bs (clearErrors key bs.length s)

/-! ## The drain goes on (R202 steps 5 to 7, R38 steps 4 and 5) -/

/-- A claim is released: every byte of its area is written to zero, errors there and all, and the charge falls (R160, R197). -/
def releaseClaim (core : Nat) (s : State) : State :=
  match (coreAt s core).claim with
  | none => s
  | some c =>
    let off := scratchSize core - 2 ^ c.log2
    let s := clearErrors (scratchKey core off) (2 ^ c.log2) { s with mem := clearBytes (scratchKey core off) (2 ^ c.log2) s.mem }
    let s := updCore s core (fun k => { k with claim := none })
    chargeLine c.part c.region (fun r => { r with facetUse := r.facetUse - ceilDiv (2 ^ c.log2) 65536 }) s

/-- A core reset of a drain (R202): what awards had set aside is given back; the counters stay. -/
def resetCore (g : Nat) (s : State) : State :=
  let s := releaseClaim g s
  let s := (coreAt s g).awards.foldl (fun s a => refundAward g a s) s
  let s := (upTo 4).foldl (fun s i => freeSlot (g * 4 + i) s) s
  updCore s g (fun k => { Core.reset with counters := k.counters })

/-- Pins and markers of a partition go from every die TLB. -/
def dropPins (which : TlbEntry → Bool) (s : State) : State :=
  (upTo 8).foldl (fun s d => updDie s d (fun x => { x with tlb := x.tlb.filter (fun t => !which t) })) s

/-- Plane units granted to a region go back (R150). -/
def freePlane (which : Nat → Nat → Bool) (s : State) : State :=
  (upTo 8).foldl (fun s d => updDie s d (fun x => { x with plane := x.plane.filter (fun u => !which u.2.1 u.2.2) })) s

/-- A queue whose drain is complete and whose answers are emitted enters HALTED (R32, R38 step 5). -/
def haltDrained (q : Nat) (s : State) : State :=
  let k := queueAt s q
  if k.state == .draining && k.cmds.isEmpty && k.due.isEmpty then
    match k.part with
    | some p =>
      match partAt s p with
      | some x => if x.drain == some .answering then setQueue s q { k with state := .halted, err := if x.expired.contains q then 3 else 4 } else s
      | none => s
    | none => s
  else s

/-- RESULT0 and RESULT1 of a GRUN: its object's VALUE and ESTAT; those of an object that cannot be read are open (log 12: DESIGN CHOICE, safe). -/
def objectResults (s : State) (part : Nat) (obj : Word) : Word × Word :=
  match deviceRead s part obj 16 with
  | some o => (BitVec.ofNat 64 (objValue o), BitVec.ofNat 64 (objEstat o))
  | none => (Config.word (freeIndex s 0), Config.word (freeIndex s 1))

/-- An answer to every command in flight of a queue: PDRAIN with OK, every other with KILLED; a GRUN carries its object as it
stands (R38 step 4, R363). -/
def answerDrained (part q : Nat) (s : State) : State :=
  let s := (queueAt s q).cmds.foldl (fun s c =>
    match c.opc.toNat with
    | 4 => finish q c.hseq 0 0 0 s
    | 6 =>
      let o := objectResults s part (c.args.getD 1 0)
      finish q c.hseq 7 o.1 o.2 s
    | _ => finish q c.hseq 7 0 0 s) s
  haltDrained q s

/-- The next answer to be emitted, where it tells a GRUN killed by a drain, carries the object as read when it is written (R363). -/
def refreshKilled (q : Nat) (s : State) : State :=
  let k := queueAt s q
  match k.due, k.part with
  | a :: rest, some p =>
    (match k.cmds.find? (fun c => c.hseq == a.hseq && c.opc == 6 && a.status == 7 && !a.event) with
     | some c =>
       let o := objectResults s p (c.args.getD 1 0)
       setQueue s q { k with due := { a with r0 := o.1, r1 := o.2 } :: rest }
     | none => s)
  | _, _ => s

/-- An answer sent on the management port. -/
def tellPort (a : MgmtAnswer) (s : State) : State := { s with axis := { s.axis with mgmt := s.axis.mgmt ++ [a] } }

/-- The partition is gone: its cores and share are free, its queues unbound (R34 PDESTROY). -/
def releasePart (part : Nat) (s : State) : State :=
  let s := { s with parts := s.parts.filter (fun p => p.id != part), regions := s.regions.filter (fun r => r.part != part) }
  (upTo 64).foldl (fun s q => updQueue s q (fun k => if k.part == some part then { k with part := none } else k)) s

/-- Every queue of the drain has halted: the drain is over, and a PDESTROY completes. -/
def endDrain (part : Nat) (s : State) : State :=
  match partAt s part with
  | none => s
  | some p =>
    if p.drain == some .answering && !(upTo 64).any (fun q => (queueAt s q).part == some part && (queueAt s q).state == .draining) then
      let s := updPart s part (fun p => { p with drain := none, expired := [], destroy := [] })
      let s := checkQuiesced s
      if p.destroy.isEmpty then s else p.destroy.foldl (fun s x => if x.1 = 64 then tellPort (.partition 0 0) s else finish x.1 x.2 0 0 0 s) (releasePart part s)
    else s

/-- Steps 6 and 7 of R202, then the answers (R38 step 4). PDRAIN commands of the administrative queue that name the partition
are answered with OK. -/
def completeDrain (part : Nat) (s : State) : State :=
  match partAt s part with
  | none => s
  | some p =>
    let s := dropPins (fun t => t.part == part && (t.pinned.isSome || t.revoked)) s
    let s := p.cores.foldl (fun s g => resetCore g s) s
    let s := freePlane (fun q _ => q == part) { s with gangs := s.gangs.filter (fun g => g.part != part) }
    let kids := (s.regions.filter (fun r => r.part == part && r.idx != 0)).map (·.idx)
    let bare (st : RegionState) (r : Region) : Region :=
      { r with state := st, live := 0, outs := 0, segUse := 0, ctxUse := 0, coreUse := [], planeUse := 0, facetUse := 0, retirers := [] }
    let s := kids.foldl (fun s i => writeBlock part i (updRegion s part i (bare .retired))) s
    let s := { s with regions := s.regions.filter (fun r => !(r.part == part && r.idx != 0)) }
    let s := updRegion s part 0 (bare .active)
    let s := updPart s part (fun p => { p with drain := some .answering, stackSlots := [] })
    let qs := (upTo 64).filter (fun q => (queueAt s q).part == some part && (queueAt s q).state == .draining)
    let s := qs.foldl (fun s q => answerDrained part q s) s
    let s := ((queueAt s 0).cmds.filter (fun c => c.opc == 4 && c.begun && c.args.getD 0 0 == BitVec.ofNat 64 part)).foldl (fun s c => finish 0 c.hseq 0 0 0 s) s
    let s := (upTo p.portDrains).foldl (fun s _ => tellPort (.partition 0 0) s) (updPart s part (fun p => { p with portDrains := 0 }))
    endDrain part s

end Sys2Proof.Machine
end

