-- ==== Sys2Proof/Machine/Float.lean ====
section
/-! DEFINITION. The number formats and their arithmetic (R203 to R217): unpacking, one exact result
rounded once, NaN selection, conversions, comparison and rank. Elements are numbers below 2^width; flags are those
of `fflags` and `vflags`. -/

namespace Sys2Proof.Machine

/-! ## Formats -/

/-- Type codes (R228). -/
def isInt (t : BitVec 4) : Bool := decide (1 ≤ t.toNat) && decide (t.toNat ≤ 8)

/-- The wide floating types f32, bf16, f16. -/
def isWide (t : BitVec 4) : Bool := t == 9 || t == 10 || t == 11

/-- A floating type. -/
def isFloat (t : BitVec 4) : Bool := decide (9 ≤ t.toNat) && decide (t.toNat ≤ 14)

/-- The i types. -/
def isSigned (t : BitVec 4) : Bool := t == 1 || t == 3 || t == 5 || t == 7

/-- Bits of an element. -/
def typeBits (t : BitVec 4) : Nat := if t = 14 then 4 else 8 * typeSize t

/-- Exponent and mantissa widths (R203). -/
def expBits (t : BitVec 4) : Nat := match t.toNat with | 9 | 10 => 8 | 11 | 13 => 5 | 12 => 4 | 14 => 2 | _ => 8
def manBits (t : BitVec 4) : Nat := match t.toNat with | 9 => 23 | 10 => 7 | 11 => 10 | 12 => 3 | 13 => 2 | 14 => 1 | _ => 23

/-- The bias. -/
def bias (t : BitVec 4) : Int := 2 ^ (expBits t - 1) - 1

/-- The sign bit as a number. -/
def signBit (t : BitVec 4) : Nat := 2 ^ (expBits t + manBits t)

/-- The code of the largest finite magnitude. The next code is the infinity, or the NaN of e4m3. -/
def maxCode (t : BitVec 4) : Nat := match t.toNat with | 12 => 0x7E | 14 => 7 | _ => (2 ^ expBits t - 1) * 2 ^ manBits t - 1

/-- The canonical NaN (R210). -/
def canonicalNan (t : BitVec 4) : Nat := if t = 12 then 0x7F else maxCode t + 1 + 2 ^ (manBits t - 1)

/-- The magnitude bits of a code. -/
def magnitude (t : BitVec 4) (w : Nat) : Nat := w % signBit t

/-- The sign of a code. -/
def isNeg (t : BitVec 4) (w : Nat) : Bool := w / signBit t % 2 == 1

/-- NaN, signalling NaN, infinity (R203). -/
def isNan (t : BitVec 4) (w : Nat) : Bool := match t.toNat with | 12 => magnitude t w == 0x7F | 14 => false | _ => decide (maxCode t + 1 < magnitude t w)
def isSnan (t : BitVec 4) (w : Nat) : Bool := isNan t w && t != 12 && magnitude t w / 2 ^ (manBits t - 1) % 2 == 0
def isInf (t : BitVec 4) (w : Nat) : Bool := match t.toNat with | 12 | 14 => false | _ => magnitude t w == maxCode t + 1

/-- A NaN quieted: sign and payload kept (R210). -/
def quieted (t : BitVec 4) (w : Nat) : Nat := if isSnan t w then w + 2 ^ (manBits t - 1) else w

/-- A code with a sign. -/
def withSign (t : BitVec 4) (neg : Bool) (m : Nat) : Nat := if neg then m + signBit t else m

/-- A finite number: sign, m × 2^e. -/
structure Exact where
  neg : Bool
  m : Nat
  e : Int
  deriving DecidableEq, Repr

/-- The value of a finite code (R203). -/
def exactOf (t : BitVec 4) (w : Nat) : Exact :=
  let e := magnitude t w / 2 ^ manBits t
  let f := w % 2 ^ manBits t
  if e = 0 then { neg := isNeg t w, m := f, e := 1 - bias t - manBits t }
  else { neg := isNeg t w, m := f + 2 ^ manBits t, e := (e : Int) - bias t - manBits t }

/-! ## Flags (R207) -/

def fNX : BitVec 5 := 1#5
def fUF : BitVec 5 := 2#5
def fOF : BitVec 5 := 4#5
def fDZ : BitVec 5 := 8#5
def fNV : BitVec 5 := 16#5

/-- An element and the flags that forming it raises. -/
structure Res where
  w : Nat
  f : BitVec 5
  v : BitVec 4
  deriving DecidableEq, Repr

/-- An element that raises nothing. -/
def Res.plain (w : Nat) : Res := { w := w, f := 0, v := 0 }

/-- An element that raises flags of `fflags`. -/
def Res.flagged (w : Nat) (f : BitVec 5) : Res := { w := w, f := f, v := 0 }

/-! ## Rounding (R207) -/

/-- The mode rounds a remainder away from zero: rem of den left over, the kept part odd. -/
def roundsAway (rm : BitVec 3) (neg odd : Bool) (rem den : Nat) : Bool :=
  match rm.toNat with
  | 1 => false
  | 2 => neg && decide (0 < rem)
  | 3 => !neg && decide (0 < rem)
  | 4 => decide (den ≤ 2 * rem)
  | _ => decide (den < 2 * rem) || (decide (den = 2 * rem) && odd)

/-- A magnitude cut to a quantum 2^q: the multiple, and whether it is inexact. -/
def cutTo (rm : BitVec 3) (neg : Bool) (m : Nat) (e q : Int) : Nat × Bool :=
  if q ≤ e then (m * 2 ^ (e - q).toNat, false)
  else
    let d := 2 ^ (q - e).toNat
    let k := m / d
    let r := m % d
    (if roundsAway rm neg (k % 2 == 1) r d then k + 1 else k, r != 0)

/-- The exponent of the leading bit. -/
def leading (m : Nat) (e : Int) : Int := e + Nat.log2 m

/-- A rounded magnitude: multiple, quantum, inexact, and whether the result rounded with no lower bound to the exponent is
below the smallest normal. -/
structure Rounded where
  k : Nat
  q : Int
  inexact : Bool
  tiny : Bool
  deriving DecidableEq, Repr

/-- Rounding to p significant bits with the quantum at least 2^qmin; emin is the exponent of the smallest normal. -/
def roundAt (p : Nat) (qmin emin : Int) (rm : BitVec 3) (neg : Bool) (m : Nat) (e : Int) : Rounded :=
  let q0 := leading m e - ((p : Int) - 1)
  let q := if q0 < qmin then qmin else q0
  let r := cutTo rm neg m e q
  let u := cutTo rm neg m e q0
  { k := r.1, q := q, inexact := r.2, tiny := decide (leading u.1 q0 < emin) }

/-- The code of k × 2^q, a number of the format's grid; none past the largest finite magnitude. -/
def codeOf (t : BitVec 4) (k : Nat) (q : Int) : Option Nat :=
  if k = 0 then some 0 else
  let emin := 1 - bias t
  let l := leading k q
  let quantum := (if l < emin then emin else l) - manBits t
  let f := (cutTo 1 false k q quantum).1
  let c := if l < emin then (f : Int) else (l - emin + 1) * 2 ^ manBits t + ((f : Int) - 2 ^ manBits t)
  if (maxCode t : Int) < c then none else some c.toNat

/-- Overflow under a mode: infinity (the NaN of e4m3), or the largest finite value under the directed modes. -/
def overflowed (t : BitVec 4) (rm : BitVec 3) (neg sat : Bool) : Nat :=
  let toMax := sat || rm == 1 || (rm == 2 && !neg) || (rm == 3 && neg)
  withSign t neg (if toMax then maxCode t else maxCode t + 1)

/-- A nonzero exact magnitude rounded once into a format. `sat` is the saturating form of R214. -/
def roundTo (t : BitVec 4) (rm : BitVec 3) (sat neg : Bool) (m : Nat) (e : Int) : Res :=
  if m = 0 then Res.plain (withSign t neg 0) else
  let r := roundAt (manBits t + 1) (1 - bias t - manBits t) (1 - bias t) rm neg m e
  match codeOf t r.k r.q with
  | none => { w := overflowed t rm neg sat, f := fOF ||| fNX, v := if sat then vSat else 0 }
  | some c => Res.flagged (withSign t neg c) ((if r.inexact then fNX else 0) ||| (if r.tiny && r.inexact then fUF else 0))

/-- A quotient n / d with enough bits that one rounding of it is right: the last bit is set where it is not exact. -/
def quotient (n d : Nat) (e : Int) : Nat × Int :=
  let s := Nat.log2 d + 40
  let k := n * 2 ^ s / d
  (2 * k + (if n * 2 ^ s % d = 0 then 0 else 1), e - s - 1)

/-- Newton's steps towards the integer square root from above. -/
def sqrtStep : Nat → Nat → Nat → Nat
  | 0, _, x => x
  | fuel + 1, n, x =>
    let y := (x + n / x) / 2
    if y < x then sqrtStep fuel n y else x

/-- The integer square root. -/
def isqrt (n : Nat) : Nat := if n = 0 then 0 else sqrtStep (Nat.log2 n + 2) n (2 ^ (Nat.log2 n / 2 + 1))

/-- A square root with enough bits that one rounding of it is right. -/
def rootOf (m : Nat) (e : Int) : Nat × Int :=
  let s : Nat := 80 + (e % 2).toNat
  let n := m * 2 ^ s
  let r := isqrt n
  (2 * r + (if r * r = n then 0 else 1), (e - s) / 2 - 1)

/-! ## Sums and products (R210, R211, R213, R280, R281) -/

/-- The first NaN of the operands in order, quieted; NV for a signalling one among them (R210). -/
def nanOf (t : BitVec 4) (ops : List Nat) : Option Res :=
  (ops.find? (isNan t)).map (fun w => Res.flagged (quieted t w) (if ops.any (isSnan t) then fNV else 0))

/-- An exact sum: the common exponent and the signed sum. -/
def exactSum (a b : Exact) : Int × Int :=
  let e := if a.e < b.e then a.e else b.e
  let s (x : Exact) : Int := (if x.neg then -1 else 1) * (x.m * 2 ^ (x.e - e).toNat : Nat)
  (s a + s b, e)

/-- The sign of an exact zero sum (R213). -/
def zeroSign (rm : BitVec 3) (a b : Bool) : Bool := if a == b then a else rm == 2

/-- Two finite numbers summed and rounded once. -/
def sumRound (t : BitVec 4) (rm : BitVec 3) (a b : Exact) : Res :=
  let s := exactSum a b
  if s.1 = 0 then Res.plain (withSign t (zeroSign rm a.neg b.neg) 0)
  else roundTo t rm false (decide (s.1 < 0)) s.1.natAbs s.2

/-- a + b, with the sign of either turned for the sum alone (R280). -/
def fadd (t : BitVec 4) (rm : BitVec 3) (negA negB : Bool) (a b : Nat) : Res :=
  match nanOf t [a, b] with
  | some r => r
  | none =>
    let sa := isNeg t a != negA
    let sb := isNeg t b != negB
    if isInf t a then
      if isInf t b && sa != sb then Res.flagged (canonicalNan t) fNV else Res.plain (withSign t sa (maxCode t + 1))
    else if isInf t b then Res.plain (withSign t sb (maxCode t + 1))
    else sumRound t rm { exactOf t a with neg := sa } { exactOf t b with neg := sb }

/-- a × b. -/
def fmul (t : BitVec 4) (rm : BitVec 3) (a b : Nat) : Res :=
  match nanOf t [a, b] with
  | some r => r
  | none =>
    let s := isNeg t a != isNeg t b
    if isInf t a || isInf t b then
      if magnitude t a = 0 ∨ magnitude t b = 0 then Res.flagged (canonicalNan t) fNV else Res.plain (withSign t s (maxCode t + 1))
    else
      let x := exactOf t a
      let y := exactOf t b
      roundTo t rm false s (x.m * y.m) (x.e + y.e)

/-- a / b. -/
def fdiv (t : BitVec 4) (rm : BitVec 3) (a b : Nat) : Res :=
  match nanOf t [a, b] with
  | some r => r
  | none =>
    let s := isNeg t a != isNeg t b
    if isInf t a then (if isInf t b then Res.flagged (canonicalNan t) fNV else Res.plain (withSign t s (maxCode t + 1)))
    else if isInf t b then Res.plain (withSign t s 0)
    else if magnitude t b = 0 then
      (if magnitude t a = 0 then Res.flagged (canonicalNan t) fNV else Res.flagged (withSign t s (maxCode t + 1)) fDZ)
    else if magnitude t a = 0 then Res.plain (withSign t s 0)
    else
      let x := exactOf t a
      let y := exactOf t b
      let k := quotient x.m y.m (x.e - y.e)
      roundTo t rm false s k.1 k.2

/-- ±(a × b) ± c with one rounding; which NaN is chosen, and its sign, are those of the operands as given (R211, R281). -/
def ffma (t : BitVec 4) (rm : BitVec 3) (negP negC : Bool) (a b c : Nat) : Res :=
  match nanOf t [a, b, c] with
  | some r => r
  | none =>
    let sp := (isNeg t a != isNeg t b) != negP
    let sc := isNeg t c != negC
    if isInf t a || isInf t b then
      if magnitude t a = 0 ∨ magnitude t b = 0 then Res.flagged (canonicalNan t) fNV
      else if isInf t c && sp != sc then Res.flagged (canonicalNan t) fNV
      else Res.plain (withSign t sp (maxCode t + 1))
    else if isInf t c then Res.plain (withSign t sc (maxCode t + 1))
    else
      let x := exactOf t a
      let y := exactOf t b
      sumRound t rm { neg := sp, m := x.m * y.m, e := x.e + y.e } { exactOf t c with neg := sc }

/-- √a (R285). -/
def fsqrt (t : BitVec 4) (rm : BitVec 3) (a : Nat) : Res :=
  match nanOf t [a] with
  | some r => r
  | none =>
    if magnitude t a = 0 then Res.plain a
    else if isNeg t a then Res.flagged (canonicalNan t) fNV
    else if isInf t a then Res.plain a
    else
      let x := exactOf t a
      let k := rootOf x.m x.e
      roundTo t rm false false k.1 k.2

/-! ## Estimates (R286) -/

/-- Significant bits of an estimate. -/
def estimateBits (t : BitVec 4) : Nat := min (if t = 10 then 8 else 12) (manBits t + 1)

/-- A magnitude rounded with RNE to the nearest value of the type with at most p significant bits; NX is never raised. -/
def estimate (t : BitVec 4) (neg : Bool) (m : Nat) (e : Int) : Res :=
  let r := roundAt (estimateBits t) (1 - bias t - manBits t) (1 - bias t) 0 neg m e
  match codeOf t r.k r.q with
  | none => Res.flagged (withSign t neg (maxCode t + 1)) fOF
  | some c => Res.flagged (withSign t neg c) (if r.tiny then fUF else 0)

/-- The estimate of 1/a. -/
def frcpe (t : BitVec 4) (a : Nat) : Res :=
  match nanOf t [a] with
  | some r => r
  | none =>
    if magnitude t a = 0 then Res.flagged (withSign t (isNeg t a) (maxCode t + 1)) fDZ
    else if isInf t a then Res.plain (withSign t (isNeg t a) 0)
    else
      let x := exactOf t a
      let k := quotient 1 x.m (-x.e)
      estimate t x.neg k.1 k.2

/-- The estimate of 1/√a. -/
def frsqe (t : BitVec 4) (a : Nat) : Res :=
  match nanOf t [a] with
  | some r => r
  | none =>
    if magnitude t a = 0 then Res.flagged (withSign t (isNeg t a) (maxCode t + 1)) fDZ
    else if isNeg t a then Res.flagged (canonicalNan t) fNV
    else if isInf t a then Res.plain 0
    else
      -- 1/√a = √(1/a): a quotient with many bits, its sticky bit kept under the root
      let x := exactOf t a
      let s : Nat := 2 * Nat.log2 x.m + 160 + (x.e % 2).toNat
      let n := 2 ^ s / x.m
      let r := isqrt n
      estimate t false (2 * r + (if r * r * x.m = 2 ^ s then 0 else 1)) ((-x.e - s) / 2 - 1)

/-! ## Order (R212, R282, R294) -/

/-- The order of finite and infinite codes as integers: -0 below +0. -/
def orderKey (t : BitVec 4) (w : Nat) : Int := if isNeg t w then -(magnitude t w : Int) - 1 else (magnitude t w : Int)

/-- The value of an integer element. -/
def intVal (t : BitVec 4) (w : Nat) : Int := if isSigned t then toSigned (typeBits t) w else (w : Int)

/-- minimumNumber and maximumNumber (R212). -/
def fminmax (t : BitVec 4) (isMax : Bool) (a b : Nat) : Res :=
  let f := if isSnan t a || isSnan t b then fNV else 0
  if isNan t a then Res.flagged (if isNan t b then canonicalNan t else b) f
  else if isNan t b then Res.flagged a f
  else
    let less := decide (orderKey t a < orderKey t b)
    Res.plain (if less == isMax then b else a)

/-- Numbers compared: -0 equals +0. -/
def numLt (t : BitVec 4) (a b : Nat) : Bool :=
  decide (orderKey t a < orderKey t b) && !(magnitude t a == 0 && magnitude t b == 0)
def numEq (t : BitVec 4) (a b : Nat) : Bool := a == b || (magnitude t a == 0 && magnitude t b == 0)

/-- A compare (R282); `variant` is unsigned for integers and signalling for floats. -/
def compare (t : BitVec 4) (op : CmpOp) (variant : Bool) (a b : Nat) : Bool × BitVec 5 :=
  if isInt t then
    let v (w : Nat) : Int := if variant then (w : Int) else intVal t w
    match op with
    | .eq => (a == b, 0)
    | .lt => (decide (v a < v b), 0)
    | .le => (decide (v a ≤ v b), 0)
    | _ => (false, 0)
  else
    let un := isNan t a || isNan t b
    let f := if isSnan t a || isSnan t b || (variant && un) then fNV else 0
    match op with
    | .eq => (!un && numEq t a b, f)
    | .lt => (!un && numLt t a b, f)
    | .le => (!un && (numLt t a b || numEq t a b), f)
    | .un => (un, 0)
    | .sn => (isSnan t a, 0)

/-- The rank order of a type (R294, R289): integers by signedness, floats ascending with -0 below +0, NaNs all above or all
below every number. -/
def rank (t : BitVec 4) (nanHigh : Bool) (w : Nat) : Int :=
  if isInt t then intVal t w
  else if isNan t w then (if nanHigh then 2 ^ 70 else -(2 ^ 70))
  else orderKey t w

/-! ## Conversions (R214 to R216) -/

/-- A NaN carried into another format (R214). -/
def convertNan (s t : BitVec 4) (w : Nat) : Nat :=
  if t = 12 then withSign t (isNeg s w) 0x7F else
  let f := w % 2 ^ manBits s
  let g := if manBits s ≤ manBits t then f * 2 ^ (manBits t - manBits s) else f / 2 ^ (manBits s - manBits t)
  withSign t (isNeg s w) (maxCode t + 1 + (g ||| 2 ^ (manBits t - 1)))

/-- The range of an integer type. -/
def intLo (t : BitVec 4) : Int := if isSigned t then -(2 ^ (typeBits t - 1)) else 0
def intHi (t : BitVec 4) : Int := if isSigned t then 2 ^ (typeBits t - 1) - 1 else 2 ^ typeBits t - 1

/-- An integer held in a type. -/
def intBits (t : BitVec 4) (i : Int) : Nat := wrap (typeBits t) i

/-- A finite number rounded to an integer: the integer and whether it is inexact (log 43: DEDUCED, unsafe). -/
def toInteger (rm : BitVec 3) (x : Exact) : Int × Bool :=
  let r := cutTo rm x.neg x.m x.e 0
  (if x.neg then -(r.1 : Int) else (r.1 : Int), r.2)

/-- A finite number to an integer type (R216); the saturating form sets the saturation flag when it clamps (R217). -/
def finiteToInt (t : BitVec 4) (rm : BitVec 3) (sat : Bool) (x : Exact) : Res :=
  let r := toInteger rm x
  if r.1 < intLo t then { w := intBits t (intLo t), f := fNV, v := if sat then vSat else 0 }
  else if intHi t < r.1 then { w := intBits t (intHi t), f := fNV, v := if sat then vSat else 0 }
  else Res.flagged (intBits t r.1) (if r.2 then fNX else 0)

/-- An integer as an exact number. -/
def exactInt (i : Int) : Exact := { neg := decide (i < 0), m := i.natAbs, e := 0 }

/-- An exact number into a floating type other than e2m1. -/
def finiteToFloat (t : BitVec 4) (rm : BitVec 3) (sat : Bool) (x : Exact) : Res := roundTo t rm sat x.neg x.m x.e

/-- An e2m1 code's value, the special code taking the special value, an e4m3 number (R205). -/
def e2m1Exact (special code : Nat) : Exact := if code % 16 = 8 then exactOf 12 special else exactOf 14 (code % 16)

/-- An element converted between types, neither of them e2m1 (R214, R216). -/
def convert (s t : BitVec 4) (rm : BitVec 3) (sat : Bool) (w : Nat) : Res :=
  if isInt s then
    let i := intVal s w
    if isInt t then
      if sat && (decide (i < intLo t) || decide (intHi t < i)) then
        { w := intBits t (clampInt (intLo t) (intHi t) i), f := 0, v := vSat }
      else Res.plain (intBits t i)
    else finiteToFloat t rm sat (exactInt i)
  else if isNan s w then
    if isInt t then Res.flagged (intBits t (intHi t)) fNV
    else Res.flagged (convertNan s t w) (if isSnan s w then fNV else 0)
  else if isInf s w then
    if isInt t then { w := intBits t (if isNeg s w then intLo t else intHi t), f := fNV, v := if sat then vSat else 0 }
    else if sat then { w := withSign t (isNeg s w) (maxCode t), f := 0, v := vSat }
    else Res.plain (withSign t (isNeg s w) (maxCode t + 1))
  else if isInt t then finiteToInt t rm sat (exactOf s w)
  else finiteToFloat t rm sat (exactOf s w)

/-- An element converted from e2m1 (R215). -/
def convertFrom4 (t : BitVec 4) (rm : BitVec 3) (sat : Bool) (special code : Nat) : Res :=
  let x := e2m1Exact special code
  let r := if isInt t then finiteToInt t rm sat x else finiteToFloat t rm sat x
  { r with v := r.v ||| (if code % 16 = 8 then vSpec else 0) }

/-- What converting an element to e2m1 gives: its code, whether it asks for the block's SPECIAL, and its flags (R215). -/
structure To4 where
  code : Nat
  asks : Bool
  f : BitVec 5
  v : BitVec 4
  deriving DecidableEq, Repr

/-- A finite number to e2m1: rounded as if the range had no upper end, on the subnormal step 0.5 below 1 (log 43: DEDUCED, unsafe). -/
def finiteTo4 (rm : BitVec 3) (sat : Bool) (x : Exact) : To4 :=
  if x.m = 0 then { code := 0, asks := false, f := 0, v := 0 } else
  let r := roundAt 2 (-1) 0 rm x.neg x.m x.e
  let nx := if r.inexact then fNX else 0
  match codeOf 14 r.k r.q with
  | some 0 => { code := 0, asks := false, f := nx ||| (if r.inexact then fUF else 0), v := 0 }
  | some c => { code := withSign 14 x.neg c, asks := false, f := nx ||| (if r.inexact && decide (c < 2) then fUF else 0), v := 0 }
  | none =>
    if sat then { code := withSign 14 x.neg 7, asks := false, f := fOF ||| fNX, v := vSat }
    else { code := 8, asks := true, f := fOF ||| fNX, v := 0 }

/-- An element converted to e2m1, SPECIAL apart (log 43: DEDUCED, unsafe). -/
def convertTo4 (s : BitVec 4) (rm : BitVec 3) (sat : Bool) (w : Nat) : To4 :=
  if isInt s then finiteTo4 rm sat (exactInt (intVal s w))
  else if isNan s w then { code := if sat then 0 else 8, asks := !sat, f := fNV, v := 0 }
  else if isInf s w then
    (if sat then { code := withSign 14 (isNeg s w) 7, asks := false, f := 0, v := vSat } else { code := 8, asks := true, f := 0, v := 0 })
  else finiteTo4 rm sat (exactOf s w)

/-- SPECIAL from the element that asks for it: its saturating e4m3 conversion, 0x00 for a NaN (R215). -/
def specialOf (s : BitVec 4) (rm : BitVec 3) (w : Nat) : Res :=
  if isFloat s && isNan s w then Res.flagged 0 fNV else convert s 12 rm true w

/-! ## Integer elements (R217, R279) -/

/-- A quotient toward zero and its remainder, for divisors other than 0. -/
def quotInt (a b : Int) : Int := Int.tdiv a b
def remInt (a b : Int) : Int := Int.tmod a b

/-- A two-operand operation on integers of a type. -/
def intArith (t : BitVec 4) (op : ArithOp) (a b : Nat) (bi : Int) : Res :=
  let n := typeBits t
  let x := intVal t a
  let y := intVal t b
  let k := b % n
  let sat (i : Int) : Res :=
    if i < intLo t ∨ intHi t < i then { w := intBits t (clampInt (intLo t) (intHi t) i), f := 0, v := vSat } else Res.plain (intBits t i)
  match op with
  | .add => Res.plain (intBits t (x + y))
  | .sub => Res.plain (intBits t (x - y))
  | .rsub => Res.plain (intBits t (y - x))
  | .mul => Res.plain (intBits t (x * y))
  | .mulh => Res.plain (intBits t (x * y / 2 ^ n))
  | .div => Res.plain (if y = 0 then intBits t (-1) else intBits t (quotInt x y))
  | .rem => Res.plain (if y = 0 then a else intBits t (remInt x y))
  | .min => Res.plain (if x ≤ y then a else b)
  | .max => Res.plain (if x ≤ y then b else a)
  | .and => Res.plain (Nat.land a b)
  | .or => Res.plain (Nat.lor a b)
  | .xor => Res.plain (Nat.xor a b)
  | .sll => Res.plain (a * 2 ^ k % 2 ^ n)
  | .srl => Res.plain (a / 2 ^ k)
  | .sra => Res.plain (intBits t (toSigned n a / 2 ^ k))
  | .sadd => sat (x + bi)
  | .ssub => sat (x - bi)

/-- A two-operand operation on floats of a type (R280). -/
def floatArith (t : BitVec 4) (rm : BitVec 3) (op : ArithOp) (a b : Nat) : Res :=
  match op with
  | .add => fadd t rm false false a b
  | .sub => fadd t rm false true a b
  | .rsub => fadd t rm true false a b
  | .mul => fmul t rm a b
  | .div => fdiv t rm a b
  | .min => fminmax t false a b
  | .max => fminmax t true a b
  | _ => Res.plain a

/-- A two-operand operation; `bi` is operand b's exact value where it is an immediate (R279). -/
def arith (t : BitVec 4) (rm : BitVec 3) (op : ArithOp) (a b : Nat) (bi : Int) : Res :=
  if isInt t then intArith t op a b bi else floatArith t rm op a b

/-- The combination of scans, reduce-stores, collectives and `facc` (R293, R313, R222, R170). -/
def combine (t : BitVec 4) (rm : BitVec 3) (op : CombOp) (a b : Nat) : Res :=
  match op with
  | .add => arith t rm .add a b (intVal t b)
  | .min => arith t rm .min a b 0
  | .max => arith t rm .max a b 0
  | .or => Res.plain (Nat.lor a b)
  | .count => Res.plain ((a + 1) % 2 ^ typeBits t)

/-! ## Unary operations (R285) -/

/-- Leading zero bits within n. -/
def leadingZeros (n w : Nat) : Nat := if w = 0 then n else n - 1 - Nat.log2 w

/-- Bits reversed within n. -/
def reverseBits : Nat → Nat → Nat
  | 0, _ => 0
  | n + 1, w => w % 2 * 2 ^ n + reverseBits n (w / 2)

/-- The class mask. -/
def classMask (t : BitVec 4) (w : Nat) : Nat :=
  let n := isNeg t w
  let m := magnitude t w
  if isSnan t w then 256 else if isNan t w then 512
  else if isInf t w then (if n then 1 else 128)
  else if m = 0 then (if n then 8 else 16)
  else if m < 2 ^ manBits t then (if n then 4 else 32)
  else (if n then 2 else 64)

end Sys2Proof.Machine
end

