-- ==== Sys2Proof/Machine/Route.lean ====
section
/-! DEFINITION. Work outstanding of a region (R53, R73), and the ingress unit of a die (R346): a routed token is placed in an
expert queue, evicting and placing again, or dropped. -/

namespace Sys2Proof.Machine

/-! ## Regions that wait to retire (R73) -/

/-- A retiring region with no live task and nothing outstanding: the step that retires it falls due. -/
def checkRetire (part region : Nat) (s : State) : State :=
  match regionAt s part region with
  | some r => if r.state == .retiring && r.live == 0 && r.outs == 0 then postOnce (.regionRetire part region) s else s
  | none => s

/-- Something of a region is outstanding once more, or once less (R53 OUTS). -/
def addOuts (part region : Nat) (s : State) : State := updRegion s part region (fun r => { r with outs := r.outs + 1 })
def dropOuts (part region : Nat) (s : State) : State :=
  checkRetire part region (updRegion s part region (fun r => { r with outs := r.outs - 1 }))

/-! ## Expert queues (R344) -/

/-- An entry of a queue: handle, score, arrival, expert, and the experts still to try with their scores. -/
structure Placed where
  handle : Nat
  score : Nat
  arrival : Nat
  exp : Nat
  alts : List (Nat × Nat)
  deriving DecidableEq, Repr

/-- The bytes of an entry that arrives. -/
def placedBytes (p : Placed) : List Byte :=
  let alt (i : Nat) : Nat × Nat := p.alts.getD i (0, 0)
  bytesOf 4 p.handle ++ bytesOf 4 p.score ++ bytesOf 4 p.arrival ++ bytesOf 1 p.exp ++ bytesOf 1 p.alts.length ++ bytesOf 2 0 ++
    bytesOf 4 ((alt 0).1 + (alt 1).1 * 256 + (alt 2).1 * 65536) ++ bytesOf 4 (alt 0).2 ++ bytesOf 4 (alt 1).2 ++ bytesOf 4 (alt 2).2

/-- An entry from its bytes. -/
def placedOf (b : List Byte) : Placed :=
  { handle := recNat b 0 4, score := recNat b 4 4, arrival := recNat b 8 4, exp := recNat b 12 1,
    alts := (upTo (min 3 (recNat b 13 1))).map (fun i => (recNat b (16 + i) 1, recNat b (20 + 4 * i) 4)) }

/-- The key of a queue's header. -/
def queueKey (t : Token) (e : Nat) : Nat := planeKey t.die (t.queues.getD e 0)

/-- The key of an entry. -/
def entryKey (t : Token) (e i : Nat) : Nat := queueKey t e + 16 + 32 * i

/-- An entry as it stands. -/
def placedAt (s : State) (t : Token) (e i : Nat) : Placed := placedOf (getBytes (entryKey t e i) 32 s.mem)

/-- The entry with the lowest score, the highest arrival among equals. -/
def lowest (s : State) (t : Token) (e : Nat) : Nat → Nat → Nat × Placed → Nat × Placed
  | 0, _, best => best
  | n + 1, i, best =>
    let p := placedAt s t e i
    let a := rank 9 false p.score
    let b := rank 9 false best.2.score
    lowest s t e n (i + 1) (if a < b ∨ (a = b ∧ best.2.arrival < p.arrival) then (i, p) else best)

/-- A queue area lies in plane memory granted to the issuer's region or an ancestor of it. -/
def queueGranted (s : State) (t : Token) (e : Nat) : Bool :=
  let off := t.queues.getD e 0
  let size := 16 + 32 * t.cap
  decide (off + size ≤ 2 ^ 26) && (upTo (size / 65536 + 2)).all (fun i =>
    decide (off + size ≤ (off / 65536 + i) * 65536) ||
    (match lookupKey (off / 65536 + i) (dieAt s t.die).plane with
     | some (p, r) => p == t.issuer.part && (ancestry s p t.issuer.region).contains r
     | none => false))

/-- A dropped token is told to the issuing region's ring with KIND 2 (log 47: DESIGN CHOICE, unsafe). -/
def dropToken (t : Token) (handle : Nat) (s : State) : State :=
  writeEventOf t.die t.issuer.part t.issuer.region 2
    { cause := 0, core := t.issuer.key / 4, slot := t.issuer.key % 4, node := BitVec.ofNat 64 handle, detail := BitVec.ofNat 64 t.group } s

/-- A token with its candidates tries one expert after another; one that it evicts is placed in turn (log 47: DESIGN CHOICE, unsafe). -/
def place (t : Token) : Nat → Nat → List (Nat × Nat) → State → State
  | 0, h, _, s => dropToken t h s
  | _ + 1, h, [], s => dropToken t h s
  | fuel + 1, h, (e, score) :: rest, s =>
    if !queueGranted s t e then
      { s with owed := s.owed ++ [{ part := t.issuer.part, region := t.issuer.region, fault := { cause := 29, core := t.issuer.key / 4, slot := t.issuer.key % 4, node := t.issuer.node, detail := BitVec.ofNat 64 (t.queues.getD e 0) } }] }
    else
    let count := natOf (getBytes (queueKey t e) 4 s.mem)
    let arrivals := natOf (getBytes (queueKey t e + 4) 4 s.mem)
    let entry : List Byte := placedBytes { handle := h, score := score, arrival := arrivals, exp := e, alts := rest.take 3 }
    if count < t.cap then
      writeMem (queueKey t e) (bytesOf 4 (count + 1) ++ bytesOf 4 (arrivals + 1)) (writeMem (entryKey t e count) entry s)
    else
      let v := lowest s t e (t.cap - 1) 1 (0, placedAt s t e 0)
      if rank 9 false v.2.score < rank 9 false score then
        let s := writeMem (queueKey t e + 4) (bytesOf 4 (arrivals + 1)) (writeMem (entryKey t e v.1) entry s)
        place t fuel v.2.handle v.2.alts s
      else place t fuel h rest s

/-- A token arrives: its four best experts by score, ties to the lowest, are its candidates (log 47: DESIGN CHOICE, unsafe). -/
def arrive (t : Token) (s : State) : State :=
  let s := retract (fun e => e == .tokenArrival t.num) { s with tokens := s.tokens.filter (fun u => u.num != t.num) }
  let order := sortRanked (fun x y => decide (y < x)) (t.scores.zipIdx.map (fun x => (x.2, rank 9 false x.1)))
  let list := (order.take 4).map (fun x => (x.1, t.scores.getD x.1 0))
  place t (256 * (t.cap + 1)) t.handle list s

/-- TOKEN_ARRIVAL. -/
def execTokenArrival (token : Nat) (s : State) : Result :=
  .next (match s.tokens.find? (·.num == token) with | some t => arrive t s | none => s)

end Sys2Proof.Machine
end

