-- ==== Sys2Proof/Machine/Release.lean ====
section
/-! DEFINITION. Write queues and reduce-stores on their way to memory (R151, R313), releases and acquires
(R178 to R185, R253), fences (R252). -/

namespace Sys2Proof.Machine

/-! ## Write queues -/

/-- A failure that the POLICY of a region is still to learn of: it is delivered when the step is over (R72). -/
def owe (part region : Nat) (f : FaultInfo) (s : State) : State := { s with owed := s.owed ++ [{ part := part, region := region, fault := f }] }

/-- One element of an entry applied to its home; where it meets an uncorrectable error it is discarded, the location left as
it was, and the error logged and delivered to each issuer's region (R197). -/
def applyElem (p : Pending) (s : State) (e : QueueElem) : State :=
  let n := typeSize p.type
  if hasError e.key n s then
    let core := match p.issuers with | i :: _ => i.key / 4 | [] => 0
    let s := logError (dieOf core) 1 (some core) (errorAddr e.key) (openField s) s
    p.issuers.foldl (fun s i => owe i.part i.region { cause := 49, core := i.key / 4, slot := i.key % 4, node := i.node, detail := errorAddr e.key } s) s
  else
    let old := natOf (getBytes e.key n s.mem)
    writeMem e.key (bytesOf n (combine p.type e.frm p.op old e.value).w) s

/-- A reduce-store of an issuer is applied whole: no entry holds a part of it any more (R313). -/
def endReduce (s : State) (i : Issuer) : State :=
  if s.pending.any (fun q => q.issuers.contains i) then s else checkSettled i.part (dropOuts i.part i.region s)

/-- An entry leaves its queue and is applied (R151) (log 50: DEDUCED, unsafe). -/
def applyEntry (p : Pending) (s : State) : State :=
  let s := retract (fun e => e == .writeQueueApply p.num) { s with pending := s.pending.filter (fun q => q.num != p.num) }
  p.issuers.foldl endReduce (p.elems.foldl (applyElem p) s)

/-- An entry may not leave before an older one of its line. -/
def oldestOfLine (s : State) (p : Pending) : Bool :=
  match s.pending.find? (fun q => q.line == p.line) with
  | some q => q.num == p.num
  | none => false

/-- Every reduce-store that a thread has issued is applied, with the older entries of those lines, and every token it has
sent is placed (R346) (log 50: DEDUCED, unsafe). -/
def settleThread (thread : Nat) (s : State) : State :=
  let lines := (s.pending.filter (fun p => p.issuers.any (fun i => i.thread == thread))).map (·.line)
  let s := (s.tokens.filter (fun t => t.issuer.thread == thread)).foldl (fun s t => arrive t s) s
  (s.pending.filter (fun p => lines.contains p.line)).foldl (fun s p => applyEntry p s) s

/-- What arrives at a home behind the entries of its line finds them applied (R151). -/
def applyLine (key : Nat) (s : State) : State :=
  (s.pending.filter (fun p => p.line == key / 256 * 256)).foldl (fun s p => applyEntry p s) s

/-- The die of a write queue's home. -/
def homeDie (key : Nat) : Nat := if key < 2 ^ 48 then key / Config.hbmPerDie else (key - 2 ^ 48) / 2 ^ 26

/-- An entry stands in its queue: a plane bank (offset bits [15:8], R150) holds 64, and a request behind them waits (R151). How lines spread over the
controllers of a die's HBM is not stated, and no bound is kept there (log 50: DEDUCED, unsafe). -/
def inQueue (s : State) (p : Pending) : Bool :=
  let bank (l : Nat) : Nat × Nat := (homeDie l, (l - 2 ^ 48) / 256 % 256)
  decide (p.line < 2 ^ 48) ||
    ((s.pending.filter (fun q => decide (2 ^ 48 ≤ q.line) && bank q.line == bank p.line)).take 64).any (fun q => q.num == p.num)

/-- An element combined into a list of them. -/
def mergeElem (type : BitVec 4) (frm : BitVec 3) (op : CombOp) (l : List QueueElem) (e : Nat × Nat) : List QueueElem :=
  match l.find? (fun x => x.key == e.1) with
  | some x => l.map (fun y => if y.key == e.1 then { key := e.1, value := (combine type frm op x.value e.2).w, frm := frm } else y)
  | none => l ++ [{ key := e.1, value := e.2, frm := frm }]

/-- A line request of a reduce-store reaches the write queue of its home: it merges into an entry of its line, operation and type, element by
element, or takes a new entry (R151) (log 50: DEDUCED, unsafe). -/
def enqueueLine (i : Issuer) (op : CombOp) (type : BitVec 4) (frm : BitVec 3) (s : State) (line : Nat) (es : List (Nat × Nat)) : State :=
  match s.pending.find? (fun p => p.line == line && p.op == op && p.type == type && inQueue s p) with
  | some p =>
    countDie 0x102 1 (homeDie line) { s with pending := s.pending.map (fun q =>
      if q.num == p.num then { q with elems := es.foldl (mergeElem type frm op) q.elems, issuers := if q.issuers.contains i then q.issuers else q.issuers ++ [i] } else q) }
  | none =>
    let (n, s) := freshId s
    post (.writeQueueApply n) { s with pending := s.pending ++ [{ num := n, line := line, op := op, type := type, elems := es.foldl (mergeElem type frm op) [], issuers := [i] }] }

/-- The elements of one reduce-store leave for their homes: those that name one word are combined first, in ascending element index, and a request goes out
for each line (R313). -/
def sendReduce (i : Issuer) (op : CombOp) (type : BitVec 4) (frm : BitVec 3) (es : List (Nat × Nat)) (s : State) : State :=
  if es.isEmpty then s else
  let (n, s) := freshId s
  let i := { i with word := n }
  let words := (es.foldl (mergeElem type frm op) []).map (fun e => (e.key, e.value))
  let lines := (words.map (fun e => e.1 / 256 * 256)).eraseDups
  lines.foldl (fun s l => enqueueLine i op type frm s l (words.filter (fun e => e.1 / 256 * 256 == l))) (addOuts i.part i.region s)

/-- WRITE_QUEUE_APPLY. -/
def execWriteQueueApply (entry : Nat) (s : State) : Result :=
  .next (match s.pending.find? (fun p => p.num == entry) with
    | some p => if oldestOfLine s p then applyEntry p s else postOnce (.writeQueueApply entry) s
    | none => s)

/-! ## Releases (R179, R184, R185) -/

/-- The phase a release would open has counters that are not yet cleared. -/
def phaseBusy (c : Ctx) : Bool := c.uncleared.getLsbD ((c.phase + 1).toNat)

/-- A release of a slot's context completes: every earlier write of the thread is performed, the phase advances, and at package
and system scope the die's release clock steps (log 50: DEDUCED, unsafe). -/
def completeRelease (key : Nat) (sc : Scope) (s : State) : State :=
  let s := settleThread (threadOf (ctxAt s key)) s
  let c := ctxAt s key
  let keep := (c.stale.map (fun e => { e with toScalar := false, toVector := false })).filter (·.toFetch)
  let s := setCtx s key { c with release := none, phase := c.phase + 1, uncleared := c.uncleared ||| (1#4 <<< c.phase.toNat), stale := keep }
  let s := post (.phaseCountersCleared key c.phase) s
  match sc with
  | .pkg | .sys => stepClock (dieOf (key / 4)) s
  | _ => s

/-- A release that holds up what follows it until it is complete: none while it must still wait (R180, R185) (log 22: DESIGN CHOICE, unsafe; log 50: DEDUCED, unsafe). -/
def releaseNow (key : Nat) (sc : Scope) (s : State) : Option State :=
  let c := ctxAt s key
  if c.release.isSome || phaseBusy c then none else some (completeRelease key sc s)

/-- A release inside a word, which goes on when it is complete: one whose new phase has counters to clear has waited for them (R180, R185) (log 50: DEDUCED, unsafe). -/
def releaseWaited (key : Nat) (sc : Scope) (s : State) : State :=
  let p := (ctxAt s key).phase + 1
  let s := if phaseBusy (ctxAt s key) then
      retract (fun e => e == .phaseCountersCleared key p) (updCtx s key (fun c => { c with uncleared := c.uncleared &&& ~~~(1#4 <<< p.toNat) }))
    else s
  completeRelease key sc s

/-- RELEASE_COMPLETE. -/
def execReleaseComplete (ctx : Nat) (s : State) : Result :=
  let c := ctxAt s ctx
  .next (match c.release with
    | some sc => if phaseBusy c then s else completeRelease ctx sc s
    | none => s)

/-- PHASE_COUNTERS_CLEARED: a release that waits for the phase proceeds. -/
def execPhaseCountersCleared (ctx : Nat) (phase : BitVec 2) (s : State) : Result :=
  let s := updCtx s ctx (fun c => { c with uncleared := c.uncleared &&& ~~~(1#4 <<< phase.toNat) })
  .next (if (ctxAt s ctx).release.isSome then postOnce (.releaseComplete ctx) s else s)

/-- A scope by its number (R177). -/
def scopeOf (b : BitVec 2) : Scope := match b.toNat with | 0 => .core | 1 => .die | 2 => .pkg | _ => .sys

/-- An own write after an acquire: one that a read of either class may have returned is seen by every later read (R182 rule 3), and no later write is performed
before it (log 7: DESIGN CHOICE, unsafe). -/
def acquireStale (nonce : Nat) (e : Stale) : Stale :=
  if returned nonce .scalar e || returned nonce .vector e then { e with toScalar := false, toVector := false, yields := false } else { e with yields := false }

/-- An acquire of the focus (R180): at package and system scope the die has applied every write that the clocks read cover;
in this model every write is applied when it is made. -/
def acquire (sc : Scope) (s : State) : State :=
  let s := { s with cur := { s.cur with stale := s.cur.stale.map (acquireStale s.nonce) } }
  match sc with
  | .pkg | .sys => joinClocks s.die s
  | _ => s

/-! ## Fences (R178, R252) -/

/-- What a fence leaves later accesses free to miss: own writes of a class, and those that reads of the class may have returned, in the spaces of the
scope, are performed (log 7: DESIGN CHOICE, unsafe). -/
def fenceStale (sc : Scope) (core nonce : Nat) (byVector toScalar : Bool) (e : Stale) : Stale :=
  if (e.byVector == byVector || returned nonce (if byVector then .vector else .scalar) e) && inScope sc core e.key then
    (if toScalar then { e with toScalar := false } else { e with toVector := false })
  else e

/-- A fence of the focus. Reduce-stores are vector writes (log 7: DESIGN CHOICE, unsafe). -/
def fence (sc : Scope) (byVector toScalar : Bool) (s : State) : State :=
  let s := if byVector then settleThread (threadOf s.cur) s else s
  { s with cur := { s.cur with stale := s.cur.stale.map (fenceStale sc s.core s.nonce byVector toScalar) } }

end Sys2Proof.Machine
end

