-- ==== Sys2Proof/Machine/Operands.lean ====
section
/-! DEFINITION. How scalar and SY words take their operands: immediates of the base formats (R245),
results, and the check every such word makes first, that it follows no word with c = 1 (R100). -/

namespace Sys2Proof.Machine

/-- An I immediate. -/
def immI (i : BitVec 12) : Word := i.signExtend 64

/-- An S immediate, from [31:25] and [11:7]. -/
def immS (h : BitVec 7) (l : BitVec 5) : Word := (h ++ l : BitVec 12).signExtend 64

/-- A B offset, from [31:25] and [11:7]. -/
def immB (h : BitVec 7) (l : BitVec 5) : Word :=
  (h.extractLsb' 6 1 ++ l.extractLsb' 0 1 ++ h.extractLsb' 0 6 ++ l.extractLsb' 1 4 ++ 0#1 : BitVec 13).signExtend 64

/-- A U immediate, in place. -/
def immU (u : BitVec 20) : Word := (u ++ 0#12 : BitVec 32).signExtend 64

/-- A J offset, from [31:12]. -/
def immJ (j : BitVec 20) : Word :=
  (j.extractLsb' 19 1 ++ j.extractLsb' 0 8 ++ j.extractLsb' 8 1 ++ j.extractLsb' 9 10 ++ 0#1 : BitVec 21).signExtend 64

/-- The low word of a register, sign-extended. -/
def sext32 (v : Word) : Word := (v.setWidth 32).signExtend 64

/-- A convoy whose last word has c = 1 is followed by a word that may not join it: an illegal encoding whose offending word is
that last word (R100). -/
def illegalConvoy (s : State) : State :=
  match s.cur.convoy.getLast? with
  | none => s
  | some m =>
    let n := s.cur.convoy.length - 1
    raiseAt (checkTrap s 2 (m.word.setWidth 64) 1 .decode) s.cur.convoyPc { s with cur := { s.cur with vcvx := BitVec.ofNat 2 n } }

/-- A word of the scalar unit: what it does, unless it breaks a convoy open before it. -/
def scalarWord (f : State → State) (s : State) : Result := .next (if s.cur.convoy.isEmpty then f s else illegalConvoy s)

/-- A word that writes a register and goes on. -/
def result (d : BitVec 5) (v : State → Word) (s : State) : Result := scalarWord (fun s => next4 (wx d (v s) s)) s

/-- A word of two registers. -/
def binary (b a d : BitVec 5) (f : Word → Word → Word) (s : State) : Result := result d (fun s => f (rx s a) (rx s b)) s

/-- A word of a register and an immediate. -/
def immediate (i : BitVec 12) (a d : BitVec 5) (f : Word → Word → Word) (s : State) : Result := result d (fun s => f (rx s a) (immI i)) s

/-- A word whose result is 32 bits wide, sign-extended. -/
def binary32 (b a d : BitVec 5) (f : BitVec 32 → BitVec 32 → BitVec 32) (s : State) : Result :=
  binary b a d (fun x y => (f (x.setWidth 32) (y.setWidth 32)).signExtend 64) s

/-- A jump: a target that is not 4-byte aligned traps at the jump (R246). -/
def goTo (target : Word) (s : State) : State :=
  if target.toNat % 4 = 0 then jumpTo target s
  else raise { code := 0, tval := target, info := sfinfoOf false 0 7 .fetch } s

/-- A conditional branch. -/
def branch (h : BitVec 7) (b a l : BitVec 5) (c : Word → Word → Bool) (s : State) : Result :=
  scalarWord (fun s => if c (rx s a) (rx s b) then goTo (s.cur.pc + immB h l) s else next4 s) s

/-! ## Arithmetic of the M extension (R245) -/

/-- Division by zero gives all ones, remainder the dividend. -/
def divS {n : Nat} (a b : BitVec n) : BitVec n := if b = 0 then BitVec.allOnes n else a.sdiv b
def divU {n : Nat} (a b : BitVec n) : BitVec n := if b = 0 then BitVec.allOnes n else a / b
def remS {n : Nat} (a b : BitVec n) : BitVec n := if b = 0 then a else a.srem b
def remU {n : Nat} (a b : BitVec n) : BitVec n := if b = 0 then a else a % b

/-- The high half of a product. -/
def highHalf (a b : BitVec 128) : Word := (a * b).extractLsb' 64 64

/-- 1 or 0. -/
def ofBool (b : Bool) : Word := if b then 1 else 0

end Sys2Proof.Machine
end

