-- ==== Sys2Proof/Machine/Memory.lean ====
section
/-! DEFINITION. Scalar loads, stores and atomics (R137, R245, R246, R264, R265): alignment, place, the range
scoreboard, uncorrectable errors, and writes held by a release in progress. -/

namespace Sys2Proof.Machine

/-- A fault of a scalar access. -/
def scalarTrap (code : Nat) (va : Word) (a : Access) : Trap := { code := code, tval := va, info := sfinfoOf false 0 7 a }

/-- The TLB entries a scalar access used. -/
def useScalar (key : Nat) (use : Option (TlbEntry × Source)) (s : State) : State :=
  match use with
  | some p => useEntry key p.1 p.2 s
  | none => s

/-- A read meets an uncorrectable error: logged, and a precise trap (R197). -/
def errorTrap (key : Nat) (a : Access) (s : State) : State :=
  raise (scalarTrap 49 (errorAddr key) a) (logError s.die 1 (some s.core) (errorAddr key) (openField s) s)

/-- A load of n bytes. -/
def loadAt (n : Nat) (signed : Bool) (va : Word) (d : BitVec 5) (s : State) : State :=
  let value (w : Nat) : Word := if signed then BitVec.ofInt 64 (toSigned (8 * n) w) else BitVec.ofNat 64 w
  if va.toNat % n ≠ 0 then raise (scalarTrap 4 va .load) s else
  match scalarPlace s (who s) .load va.toNat with
  | .error f => raise (scalarTrap f va .load) s
  | .ok (.mem k, use) =>
    if scoreboardStalls s k n false then s
    else if hasError k n s then errorTrap k .load s
    else next4 (wx d (value (natOf (seeBytes s .scalar k n))) (useScalar s.curKey use s))
  | .ok (.queueReg q off, _) => next4 (wx d (value ((readQueueReg s q off n).toNat % 2 ^ (8 * n))) s)
  | .ok (.stub, _) => raise (scalarTrap 29 va .load) s

/-- A load word. -/
def load (n : Nat) (signed : Bool) (i : BitVec 12) (a d : BitVec 5) (s : State) : Result :=
  scalarWord (fun s => loadAt n signed (rx s a + immI i) d s) s

/-- A store of n bytes; a release in progress holds it (R179). -/
def storeAt (n : Nat) (va v : Word) (s : State) : State :=
  if va.toNat % n ≠ 0 then raise (scalarTrap 6 va .store) s else
  match scalarPlace s (who s) .store va.toNat with
  | .error f => raise (scalarTrap f va .store) s
  | .ok (.mem k, use) =>
    if s.cur.release.isSome || scoreboardStalls s k n true then s
    else next4 (storeChecked false va.toNat k (bytesOf n v.toNat) (useScalar s.curKey use s))
  | .ok (.queueReg q off, _) => if s.cur.release.isSome then s else next4 (writeQueueReg q off n v s)
  | .ok (.stub, _) => raise (scalarTrap 29 va .store) s

/-- A store word. -/
def store (n : Nat) (h : BitVec 7) (b a l : BitVec 5) (s : State) : Result :=
  scalarWord (fun s => storeAt n (rx s a + immS h l) (rx s b) s) s

/-- `lb`, `lh`, `lw`, `ld`, `lbu`, `lhu`, `lwu`. -/
def execLb (i : BitVec 12) (a d : BitVec 5) (s : State) : Result := load 1 true i a d s
/-- `lh`. -/
def execLh (i : BitVec 12) (a d : BitVec 5) (s : State) : Result := load 2 true i a d s
/-- `lw`. -/
def execLw (i : BitVec 12) (a d : BitVec 5) (s : State) : Result := load 4 true i a d s
/-- `ld`. -/
def execLd (i : BitVec 12) (a d : BitVec 5) (s : State) : Result := load 8 true i a d s
/-- `lbu`. -/
def execLbu (i : BitVec 12) (a d : BitVec 5) (s : State) : Result := load 1 false i a d s
/-- `lhu`. -/
def execLhu (i : BitVec 12) (a d : BitVec 5) (s : State) : Result := load 2 false i a d s
/-- `lwu`. -/
def execLwu (i : BitVec 12) (a d : BitVec 5) (s : State) : Result := load 4 false i a d s
/-- `sb`. -/
def execSb (h : BitVec 7) (b a l : BitVec 5) (s : State) : Result := store 1 h b a l s
/-- `sh`. -/
def execSh (h : BitVec 7) (b a l : BitVec 5) (s : State) : Result := store 2 h b a l s
/-- `sw`. -/
def execSw (h : BitVec 7) (b a l : BitVec 5) (s : State) : Result := store 4 h b a l s
/-- `sd`. -/
def execSd (h : BitVec 7) (b a l : BitVec 5) (s : State) : Result := store 8 h b a l s

/-! ## Atomics (R264, R265) -/

/-- Bytes of an atomic: w is bit [12], 0 for `.w` and 1 for `.d`. -/
def atomicSize (w : BitVec 1) : Nat := if w = 1 then 8 else 4

/-- A value of an atomic's width as the register receives it. -/
def atomicValue (n w : Nat) : Word := BitVec.ofInt 64 (toSigned (8 * n) w)

/-- An atomic's home lies in a write queue: HBM or a plane bank. -/
def atWriteQueue (key : Nat) : Bool := decide (key < 2 ^ 49)

/-- What every atomic does first (R264): alignment, place, the scoreboard, and `rel sys` where rl is set, which must be able to
complete. Then `f` acts at the home, given the key, behind the older entries of its line (R151); `acq sys` follows where aq is set. Where the location
holds an uncorrectable error, an atomic at a write queue is discarded and its value is free (R197) (log 12: DESIGN CHOICE, safe); `reads` is
not set for `sc`, which meets the error only when it writes. -/
def atomic (writes reads : Bool) (q r : BitVec 1) (w : BitVec 1) (a d : BitVec 5) (f : Nat → Nat → State → State) (s : State) : Result :=
  scalarWord (fun s =>
    let va := rx s a
    let n := atomicSize w
    if va.toNat % n ≠ 0 then raise (scalarTrap 6 va .atomic) s else
    match scalarPlace s (who s) .atomic va.toNat with
    | .error c => raise (scalarTrap c va .atomic) s
    | .ok (.mem k, use) =>
      if (writes && s.cur.release.isSome) || scoreboardStalls s k n true then s else
      let go (s : State) : State :=
        let s := useScalar s.curKey use s
        let s := observeOwn k n (applyLine k s)
        if reads && hasError k n s then
          let s := if q = 1 then acquire .sys s else s
          (if atWriteQueue k then next4 (wx d (atomicValue n ((Config.word s.nonce).toNat % 2 ^ (8 * n))) (discardWrite k s)) else errorTrap k .atomic s)
        else
          let s := f k n s
          next4 (if q = 1 then acquire .sys s else s)
      if r = 1 then (match releaseNow s.curKey .sys s with | some s => go s | none => s) else go s
    | .ok (_, _) => raise (scalarTrap 29 va .atomic) s) s

/-- A write of the focus's scalar unit at the home. -/
def atomicWrite (va : Word) (k n v : Nat) (s : State) : State := storeOwn false va.toNat k (bytesOf n v) s

/-- A read-modify-write; `f` sees old value and operand below 2^(8n). -/
def amo (q r w : BitVec 1) (b a d : BitVec 5) (f : Nat → Nat → Nat → Nat) (s : State) : Result :=
  atomic true true q r w a d (fun k n s =>
    let old := natOf (getBytes k n s.mem)
    let v := f n old ((rx s b).toNat % 2 ^ (8 * n))
    wx d (atomicValue n old) (atomicWrite (rx s a) k n (v % 2 ^ (8 * n)) s)) s

/-- The bound on a context's reservation stops, and an expiry that has fallen due and not acted is no more. -/
def stopReservation (s : State) : State := stopTimer (.lrReservationExpiry s.curKey) (retract (fun e => e == .lrReservationExpiry s.curKey) s)

/-- `lr`: a reservation on the aligned 64-byte block, which ends when more than 128 cycles have passed. -/
def execLr (q r : BitVec 1) (a : BitVec 5) (w : BitVec 1) (d : BitVec 5) (s : State) : Result :=
  atomic false true q r w a d (fun k n s =>
    let v := natOf (getBytes k n s.mem)
    let s := stopReservation (wx d (atomicValue n v) { s with cur := { s.cur with resv := some (k / 64) } })
    startTimer s.die true 129 (.lrReservationExpiry s.curKey) s) s

/-- `sc`: writes and returns 0 while the reservation covers its address, else writes nothing and returns 1. A write that meets an uncorrectable error is
discarded; what it returns at a write queue is then free (log 12: DESIGN CHOICE, safe). -/
def execSc (q r : BitVec 1) (b a : BitVec 5) (w : BitVec 1) (d : BitVec 5) (s : State) : Result :=
  atomic true false q r w a d (fun k n s =>
    let v := (rx s b).toNat
    let holds := s.cur.resv == some (k / 64) && !isDue s (.lrReservationExpiry s.curKey)
    let s := stopReservation { s with cur := { s.cur with resv := none } }
    if !holds then wx d 1 s
    else if hasError k n s && atWriteQueue k then wx d (BitVec.ofNat 64 ((Config.word s.nonce).toNat % 2)) (discardWrite k s)
    else wx d 0 (storeChecked false (rx s a).toNat k (bytesOf n (v % 2 ^ (8 * n))) s)) s

/-- `amoswap`. -/
def execAmoswap (q r : BitVec 1) (b a : BitVec 5) (w : BitVec 1) (d : BitVec 5) (s : State) : Result := amo q r w b a d (fun _ _ y => y) s
/-- `amoadd`. -/
def execAmoadd (q r : BitVec 1) (b a : BitVec 5) (w : BitVec 1) (d : BitVec 5) (s : State) : Result := amo q r w b a d (fun _ x y => x + y) s
/-- `amoxor`. -/
def execAmoxor (q r : BitVec 1) (b a : BitVec 5) (w : BitVec 1) (d : BitVec 5) (s : State) : Result := amo q r w b a d (fun _ x y => Nat.xor x y) s
/-- `amoand`. -/
def execAmoand (q r : BitVec 1) (b a : BitVec 5) (w : BitVec 1) (d : BitVec 5) (s : State) : Result := amo q r w b a d (fun _ x y => Nat.land x y) s
/-- `amoor`. -/
def execAmoor (q r : BitVec 1) (b a : BitVec 5) (w : BitVec 1) (d : BitVec 5) (s : State) : Result := amo q r w b a d (fun _ x y => Nat.lor x y) s
/-- `amomin`. -/
def execAmomin (q r : BitVec 1) (b a : BitVec 5) (w : BitVec 1) (d : BitVec 5) (s : State) : Result :=
  amo q r w b a d (fun n x y => if toSigned (8 * n) x ≤ toSigned (8 * n) y then x else y) s
/-- `amomax`. -/
def execAmomax (q r : BitVec 1) (b a : BitVec 5) (w : BitVec 1) (d : BitVec 5) (s : State) : Result :=
  amo q r w b a d (fun n x y => if toSigned (8 * n) x ≤ toSigned (8 * n) y then y else x) s
/-- `amominu`. -/
def execAmominu (q r : BitVec 1) (b a : BitVec 5) (w : BitVec 1) (d : BitVec 5) (s : State) : Result := amo q r w b a d (fun _ x y => min x y) s
/-- `amomaxu`. -/
def execAmomaxu (q r : BitVec 1) (b a : BitVec 5) (w : BitVec 1) (d : BitVec 5) (s : State) : Result := amo q r w b a d (fun _ x y => max x y) s

/-- LR_RESERVATION_EXPIRY. -/
def execLrReservationExpiry (ctx : Nat) (s : State) : Result := .next (updCtx s ctx (fun c => { c with resv := none }))

end Sys2Proof.Machine
end

