-- ==== Sys2Proof/Machine/Shape.lean ====
section
/-! DEFINITION. Shape records (R157, R158) and `vcollapse` (R251). -/

namespace Sys2Proof.Machine

/-- A dimension: its extent and its signed byte stride. -/
structure Dim where
  ext : Nat
  str : Int
  deriving DecidableEq, Repr

/-- A shape record read: the base, the element size and the used dimensions, innermost first. -/
structure Shape where
  base : Nat
  size : Nat
  dims : List Dim
  deriving DecidableEq, Repr

/-- A record, or none where a reserved field is nonzero, NDIM is 0 or above 4, LOG2E is above 3, or BASE or a stride is no
multiple of the element size (R158). Fields of dimensions past NDIM are zero (log 45: DESIGN CHOICE, unsafe). -/
def readShape (r : List Byte) : Option Shape :=
  let w := recNat r 8 8
  let n := bits w 6 4
  let size := 2 ^ bits w 2 0
  let ext (i : Nat) := recNat r (16 + 4 * i) 4
  let str (i : Nat) := toSigned 64 (recNat r (32 + 8 * i) 8)
  let base := recNat r 0 8
  let used := upTo n
  let past := (upTo 4).filter (fun i => n ≤ i)
  if w / 2 ^ 7 ≠ 0 ∨ bit w 3 ∨ n = 0 ∨ 4 < n ∨ 3 < bits w 2 0 then none
  else if past.any (fun i => ext i != 0 || str i != 0) then none
  else if base % size ≠ 0 ∨ used.any (fun i => str i % size != 0) then none
  else some { base := base, size := size, dims := used.map (fun i => { ext := ext i, str := str i }) }

/-- Some used extent is 0: zero elements. -/
def Shape.isEmpty (h : Shape) : Bool := h.dims.any (·.ext == 0)

/-- Strides that a write may use: each steps past the span of the dimensions inside it (log 45: DESIGN CHOICE, unsafe). -/
def stridesOk : Nat → List Dim → Bool
  | _, [] => true
  | span, d :: t => decide (span ≤ d.str.natAbs) && stridesOk ((d.ext - 1) * d.str.natAbs + span) t

/-- A record valid for a read or a write (R158). -/
def Shape.valid (h : Shape) (write : Bool) : Bool := h.isEmpty || !write || stridesOk h.size h.dims

/-- Elements of a shape. -/
def Shape.count (h : Shape) : Nat := h.dims.foldl (fun n d => n * d.ext) 1

/-- The address of element n, dimension 0 running fastest. -/
def dimOffset : List Dim → Nat → Int
  | [], _ => 0
  | d :: t, n => (n % d.ext : Nat) * d.str + dimOffset t (n / d.ext)

/-- Dimensions merged from the innermost while they are contiguous: the merged extent, the extents left. -/
def mergeDims : Nat → Dim → List Dim → Nat × List Nat
  | n, _, [] => (n, [])
  | n, d, e :: t => if e.str = d.ext * d.str then mergeDims (n * e.ext) e t else (n, (e :: t).map (·.ext))

/-- The n type of an element size of 2^k bytes. -/
def nTypeOf (size : Nat) : BitVec 4 := match size with | 1 => 2 | 2 => 4 | 4 => 6 | _ => 8

/-- A grant: the first of a context in length-zero mode releases every v register (R133). -/
def firstGrant (key : Nat) (s : State) : State :=
  let c := ctxAt s key
  if c.vtype = 0 ∧ !c.validMode then (upTo 32).foldl (fun s r => releaseReg key r s) s else s

/-- `vouter` from outer extents, innermost first (R270). -/
def outerWord (es : List Nat) : BitVec 62 :=
  BitVec.ofNat 62 (es.length * 2 ^ 60 + es.getD 2 0 * 2 ^ 40 + es.getD 1 0 * 2 ^ 20 + es.getD 0 0)

/-- The shape fault of a record (R192, R251) (log 45: DESIGN CHOICE, unsafe). -/
def shapeTrap (addr : Word) (s : State) : Trap := checkTrap s 48 addr 0 .data

/-- What `vcollapse` does with the 64 bytes of its record (log 45: DESIGN CHOICE, unsafe). -/
def collapse (addr : Word) (r : List Byte) (d : BitVec 5) (s : State) : State :=
  match readShape r with
  | none => raise (shapeTrap addr s) s
  | some h =>
    if h.isEmpty then next4 (wx d 0 { s with cur := { s.cur with vl := 0, vouter := 0 } }) else
    match h.dims with
    | [] => raise (shapeTrap addr s) s
    | d0 :: t =>
      let m := mergeDims d0.ext d0 t
      if m.2.any (fun e => decide (1048575 < e)) then raise (shapeTrap addr s) s else
      let s := firstGrant s.curKey s
      let ty := if typeBits s.cur.vtype = 8 * h.size && s.cur.vtype != 0 then s.cur.vtype else nTypeOf h.size
      next4 (wx d (BitVec.ofNat 64 m.1) { s with cur := { s.cur with vtype := ty, vl := min m.1 (vlmax ty), vouter := outerWord m.2 } })

/-- A record that the scalar unit reads whole: n bytes, n-byte aligned. A window that holds no memory reads zero (log 45: DESIGN CHOICE, unsafe). -/
def readRecord (n : Nat) (va : Word) (f : List Byte → State → State) (s : State) : State :=
  if va.toNat % n ≠ 0 then raise (scalarTrap 4 va .load) s else
  match scalarPlace s (who s) .load va.toNat with
  | .error c => raise (scalarTrap c va .load) s
  | .ok (.mem k, use) =>
    if scoreboardStalls s k n false then s
    else if hasError k n s then errorTrap k .load s
    else f (seeBytes s .scalar k n) (useScalar s.curKey use s)
  | .ok (_, _) => f (List.replicate n 0) s

/-- `vcollapse`: the record is a scalar read of 64 bytes, which a misaligned address traps as it traps a load (R251, where R158 has the shape fault)
(log 45: DESIGN CHOICE, unsafe). -/
def execVcollapse (a d : BitVec 5) (s : State) : Result :=
  scalarWord (fun s => readRecord 64 (rx s a) (fun r s => collapse (rx s a) r d s) s) s

end Sys2Proof.Machine
end

