-- ==== Sys2Proof/Machine/Control.lean ====
section
/-! DEFINITION. Grants and strip-mining (R248, R250), fences, releases and acquires (R252, R253), queries and
maintenance (R259 to R262), the system words of the base (R245, R246), and the illegal-encoding trap (R234). -/

namespace Sys2Proof.Machine

/-! ## Lengths -/

/-- `vsetl`: type and length are granted; the first grant of length-zero mode releases every v register. -/
def execVsetl (t a d : BitVec 5) (s : State) : Result :=
  scalarWord (fun s =>
    let ty : BitVec 4 := t.setWidth 4
    let vl := min (rx s a).toNat (vlmax ty)
    let s := firstGrant s.curKey s
    next4 (wx d (BitVec.ofNat 64 vl) { s with cur := { s.cur with vtype := ty, vl := vl } })) s

/-- Pointer i of `vsmine` stepped by d elements where the mask selects it. -/
def stepPointer (mask : BitVec 4) (vpstep : BitVec 32) (d : Nat) (s : State) (i : Nat) : State :=
  let r : BitVec 5 := BitVec.ofNat 5 (10 + i)
  let step := toSigned 8 (bits vpstep.toNat (8 * i + 7) (8 * i))
  if mask.getLsbD i then wx r (rx s r + BitVec.ofInt 64 (d * step)) s else s

/-- `vsmine`: before the first grant of length-zero mode an illegal encoding (R133). -/
def execVsmine (o : BitVec 12) (k : BitVec 4) (n : BitVec 5) (s : State) : Result :=
  scalarWord (fun s =>
    if s.cur.vtype = 0 then illegal (o ++ 0#1 ++ k ++ 0#3 ++ n ++ 123#7) 0 s else
    let d := min s.cur.vl (rx s n).toNat
    let s := (upTo 4).foldl (stepPointer k s.cur.vpstep d) s
    let left := rx s n - BitVec.ofNat 64 d
    let s := wx n left { s with cur := { s.cur with vl := min left.toNat (vlmax s.cur.vtype) } }
    if left = 0 then next4 s else jumpTo (s.cur.pc + (o.signExtend 64 <<< 2)) s) s

/-! ## Fences, releases and acquires -/

/-- `fence.sv`: earlier scalar writes are performed for later vector accesses. -/
def execFenceSv (s : BitVec 2) (st : State) : Result := scalarWord (fun t => next4 (fence (scopeOf s) false false t)) st
/-- `fence.vs`: earlier vector writes are performed for later scalar accesses. -/
def execFenceVs (s : BitVec 2) (st : State) : Result := scalarWord (fun t => next4 (fence (scopeOf s) true true t)) st
/-- A tile store that a `fence.vv` of a scope joins has still to be performed (R325). -/
def storesTile (sc : Scope) (s : State) : Bool :=
  s.engines.any (fun e => e.thread == threadOf s.cur && e.failed.isNone &&
    (match e.kind with | .tile true _ _ ps _ => ps.any (fun p => inScope sc (e.key / 4) p.key) | _ => false))

/-- `fence.vv`: earlier vector writes are performed for later vector accesses; it waits for the thread's tile stores in the spaces of its scope (R325)
(log 17: DESIGN CHOICE, unsafe). -/
def execFenceVv (s : BitVec 2) (st : State) : Result :=
  scalarWord (fun t => if storesTile (scopeOf s) t then t else next4 (fence (scopeOf s) true false t)) st

/-- `rel`: a release begins, and completes when every home has reported (RELEASE_COMPLETE); one in progress comes first. -/
def execRel (s : BitVec 2) (st : State) : Result :=
  scalarWord (fun t =>
    if t.cur.release.isSome then t
    else next4 (post (.releaseComplete t.curKey) { t with cur := { t.cur with release := some (scopeOf s) } })) st

/-- `acq`. -/
def execAcq (s : BitVec 2) (st : State) : Result := scalarWord (fun t => next4 (acquire (scopeOf s) t)) st

/-! ## Queries and maintenance -/

/-- The TAG of an entry with count 0: 0 after reset (R115), and nothing fixes it once the segment has been in use (log 12: DESIGN CHOICE, safe). -/
def openTag (s : State) (n : Nat) : Nat := if (coreAt s s.core).used.contains n then (Config.word s.nonce).toNat % 4 else 0

/-- A segment table entry (R115). -/
def segEntry (tag count : Nat) : Nat := (tag % 2 + tag / 2 % 2) % 2 * 1024 + tag * 256 + count

/-- A table entry of the own core holds an uncorrectable error (R132). -/
def tableError (s : State) (n : Nat) : Bool :=
  let k := coreAt s s.core
  k.lost.contains n || k.segs.any (fun x => x.2.num == n && x.2.badEntry)

/-- The entry of a segment number of the own core (R115). -/
def entryWord (s : State) (n : Nat) : Word :=
  match (coreAt s s.core).segs.find? (fun x => x.2.num == n) with
  | some x => BitVec.ofNat 64 (segEntry (contextNumber s x.2.tag) x.2.count)
  | none => BitVec.ofNat 64 (segEntry (openTag s n) 0)

/-- `qseg`: an entry in error makes it fault (R132). -/
def execQseg (a d : BitVec 5) (s : State) : Result :=
  scalarWord (fun s =>
    let n := (rx s a).toNat
    if 4095 < n then next4 (wx d (BitVec.allOnes 64) s)
    else if tableError s n then
      let addr : Word := BitVec.ofNat 64 (4 * 2 ^ 56 + n)
      raise (checkTrap s 49 addr 0 .data) (logError s.die 1 (some s.core) addr (openField s) s)
    else next4 (wx d (entryWord s n) s)) s

/-- STATE of a slot (R259). -/
def slotCode : SlotState → Nat
  | .free => 0 | .running => 1 | .waiting _ => 2 | .saving _ _ _ => 3

/-- The report on a slot (R259); how many convoys stand in its vector queue is a matter of time (log 63: DESIGN CHOICE, safe; log 53: DESIGN CHOICE, unsafe). -/
def ctxReport (s : State) (key : Nat) : Word :=
  let c := ctxAt s key
  let prio := match c.task with | some t => (match regionAt s t.part t.region with | some r => r.eff.prio | none => 0) | none => 0
  let tseq := match c.task with | some t => t.tseq.toNat | none => 0
  let split := match (coreAt s (key / 4)).lsplit with | some l => l | none => 0
  let queue := match c.task with | some _ => min 32 (Config.queued s.nonce key) | none => 0
  BitVec.ofNat 64 (tseq * 2 ^ 32 + slotCode c.state * 2 ^ 30 + prio * 2 ^ 27 + split * 2 ^ 25 + c.pres * 2 ^ 8 + queue)

/-- `qctx`. -/
def execQctx (a d : BitVec 5) (s : State) : Result :=
  result d (fun s => if 3 < (rx s a).toNat then BitVec.allOnes 64 else ctxReport s (s.core * 4 + (rx s a).toNat)) s

/-- A word of S mode alone. -/
def supervisorWord (w : Word32) (f : State → State) (s : State) : Result :=
  scalarWord (fun s => match s.cur.priv with | .u => illegal w 0 s | .s => f s) s

/-- A range rounded out to 64 KiB; a length of 0 is empty. -/
def roundOut (base len : Word) : Nat × Nat :=
  if len = 0 then (0, 0) else
  let lo := base.toNat / 65536 * 65536
  (lo, (base.toNat + len.toNat + 65535) / 65536 * 65536 - lo)

/-- `tlbdrop`: entries of the core's TLB that overlap the range go. -/
def execTlbdrop (b a : BitVec 5) (s : State) : Result :=
  supervisorWord (pack 2 b a 6 0 123) (fun s =>
    let r := roundOut (rx s a) (rx s b)
    next4 (updCore s s.core (fun c => { c with tlb := c.tlb.filter (fun t => !(decide (t.vbase < r.1 + r.2) && decide (r.1 < t.vbase + t.size))) }))) s

/-- `cflush`: the core's instruction-cache lines of the range go, so that fetch there reads from the home; the model keeps no other copy. -/
def execCflush (b a : BitVec 5) (s : State) : Result :=
  scalarWord (fun s =>
    let r := roundOut (rx s a) (rx s b)
    let inside (e : Stale) : Bool := decide (r.1 ≤ e.addr) && decide (e.addr + e.old.length ≤ r.1 + r.2)
    let drop (k : Nat) (c : Ctx) : Ctx := if k / 4 = s.core then { c with stale := c.stale.map (fun e => if inside e then { e with toFetch := false } else e) } else c
    next4 (mapCtx drop s)) s

/-- `evfrz`: EN of every pair in [15:0] cleared, of every pair in [31:16] set; a pair in both is frozen. -/
def execEvfrz (a : BitVec 5) (s : State) : Result :=
  supervisorWord (pack 4 0 a 6 0 123) (fun s =>
    let v := (rx s a).toNat
    let en : Word := 1#64 <<< 62
    next4 (updCore s s.core (fun c => { c with counters := c.counters.mapIdx (fun i x =>
      if bit v i then { x with sel := x.sel &&& ~~~en } else if bit v (16 + i) then { x with sel := x.sel ||| en } else x) }))) s

/-- A hint of SY group 110. -/
def execSyHint (_h : BitVec 6) (_b _a : BitVec 5) (s : State) : Result := scalarWord next4 s

/-! ## System words -/

/-- `ecall`: code 8 from U mode; an illegal encoding in S mode. -/
def execEcall (s : State) : Result :=
  scalarWord (fun s => match s.cur.priv with
    | .u => raise (callTrap s 8 0) s
    | .s => illegal 0x00000073#32 0 s) s

/-- `ebreak`. -/
def execEbreak (s : State) : Result := scalarWord (fun s => raise (callTrap s 3 s.cur.pc) s) s

/-- `sret`: in U mode an illegal encoding. -/
def execSret (s : State) : Result := supervisorWord 0x10200073#32 (fun s =>
  let s := countEvent 0x002 1 s.curKey s
  { s with cur := leaveTrap s.cur }) s

/-- `wfi`: a no-op in both modes. -/
def execWfi (s : State) : Result := scalarWord next4 s

/-! ## Traps at decode (R100, R101, R195, R234) -/

/-- A trap at decode of a VX, VM or MT word: `sepc` at the convoy's first word, `vcvx` the word's index (log 39: DEDUCED, unsafe). -/
def memberTrap (t : Trap) (s : State) : State :=
  let n := s.cur.convoy.length
  raiseAt t (if n = 0 then s.cur.pc else s.cur.convoyPc) { s with cur := { s.cur with vcvx := BitVec.ofNat 2 n } }

/-- The unit that a word is of, as UNIT of `sfinfo` numbers it (log 39: DEDUCED, unsafe). -/
def unitOf (w : Word32) : Nat :=
  match (w.extractLsb' 0 7).toNat with
  | 0x0B => 1
  | 0x2B => if 20 ≤ (w.extractLsb' 27 5).toNat ∧ (w.extractLsb' 27 5).toNat ≤ 26 then 3 else 1
  | 0x5B => 2
  | _ => 0

/-- ILLEGAL_ENCODING: a word that names no instruction and no hint. A VX or VM word that would be the second to fourth of a
convoy traps at the convoy's first word; any other breaks an open convoy first (R100). On an S-core the check for the matrix
engine comes first (R242), and on a D-core every VX word of f5 30 finds its unit absent (R96) (log 39: DEDUCED, unsafe). -/
def execIllegalEncoding (word : Word32) (s : State) : Result :=
  let joins := s.cur.convoy.isEmpty || ((unitOf word == 1 || unitOf word == 3) && decide (s.cur.convoy.length < 4))
  let apex := word.extractLsb' 0 7 == 0x0B#7 && word.extractLsb' 27 5 == 30#5
  .next (if s.cur.convoy.isEmpty && unitOf word == 0 then illegal word 0 s
    else if s.cur.convoy.isEmpty && unitOf word == 2 && !isDCore s.core then memberTrap (checkTrap s 25 (word.setWidth 64) 2 .decode) s
    else if joins then memberTrap (checkTrap s (if apex && isDCore s.core then 25 else 2) (word.setWidth 64) (unitOf word) .decode) s
    else illegalConvoy s)

end Sys2Proof.Machine
end

