-- ==== Sys2Proof/Machine/Transcend.lean ====
section
/-! DEFINITION. `vexp2` and `vlog2` (R285): the exact value, enclosed by integers until one rounding of it
is decided. Neither is ever a number of the format or half way between two unless it is computed exactly
here, so an open interval with no such point inside decides. -/

namespace Sys2Proof.Machine

/-- Bits of the scale of the enclosures (log 13: DESIGN CHOICE, safe). -/
def encloseBits : Nat := 120

/-- An open interval (k × 2^e, (k + 1) × 2^e), rounded once; the fraction is left to log 13 where k has too few bits. -/
def roundInside (t : BitVec 4) (rm : BitVec 3) (arg : Nat) (neg : Bool) (k : Nat) (e : Int) : Res :=
  if 2 ^ (manBits t + 3) ≤ k then roundTo t rm false neg (2 * k + 1) (e - 1)
  else roundTo t rm false neg (4 * k + (if Config.roundsUp arg then 3 else 1)) (e - 2)

/-- The product of the factors 2^(2^-j) that the fraction's bits name, enclosed: j runs on, `lo` and `hi` enclose 2^(2^-j). -/
def expFactors (f den : Nat) : Nat → Nat → Nat → Nat → Nat × Nat → Nat × Nat
  | 0, _, _, _, acc => acc
  | fuel + 1, j, lo, hi, acc =>
    let one := 2 ^ encloseBits
    let lo := isqrt (lo * one)
    let hi := isqrt (hi * one) + 1
    let acc := if j ≤ den && bit f (den - j) then (acc.1 * lo / one, acc.2 * hi / one + 1) else acc
    expFactors f den fuel (j + 1) lo hi acc

/-- 2^f for f / 2^den in (0, 1), enclosed at the scale 2^encloseBits. -/
def expFraction (f den : Nat) : Nat × Nat :=
  let one := 2 ^ encloseBits
  let r := expFactors f den (encloseBits + 4) 1 (2 * one) (2 * one) (one, one)
  let hi := if encloseBits + 4 < den then r.2 + r.2 / one + 1 else r.2
  (r.1, min hi (2 * one - 1))

/-- The largest number of leading bits on which two enclosing numbers agree, as a shift. -/
def agreeing (lo hi : Nat) : Nat → Nat → Nat
  | 0, k => k
  | fuel + 1, k => if lo / 2 ^ k = hi / 2 ^ k then k else agreeing lo hi fuel (k + 1)

/-- 2^a of a finite number (log 13: DESIGN CHOICE, safe). -/
def exp2Exact (t : BitVec 4) (rm : BitVec 3) (arg : Nat) (x : Exact) : Res :=
  let den := (-x.e).toNat
  let n : Int := (if x.neg then -1 else 1) * (x.m * 2 ^ x.e.toNat : Nat)
  let i := n / (2 ^ den : Nat)
  let f := (n % (2 ^ den : Nat)).toNat
  let i := clampInt (-1000) 1000 i
  if f = 0 ∨ i = 1000 then roundTo t rm false false 1 i else
  let r := expFraction f den
  let k := agreeing r.1 r.2 encloseBits 8
  roundInside t rm arg false (r.1 / 2 ^ k) (i + k - encloseBits)

/-- `vexp2` (log 13: DESIGN CHOICE, safe). -/
def fexp2 (t : BitVec 4) (rm : BitVec 3) (a : Nat) : Res :=
  match nanOf t [a] with
  | some r => r
  | none => if isInf t a then Res.plain (if isNeg t a then 0 else a) else exp2Exact t rm a (exactOf t a)

/-- Binary digits of log2 of an enclosed number in [1, 2), until the enclosure no longer decides one. -/
def logDigits : Nat → Nat → Nat → Nat → Nat → Nat × Nat
  | 0, _, _, acc, n => (acc, n)
  | fuel + 1, lo, hi, acc, n =>
    let two := 2 ^ (encloseBits + 81)
    let lo2 := lo * lo / (two / 2)
    let hi2 := hi * hi / (two / 2) + 1
    if two ≤ lo2 then logDigits fuel (lo2 / 2) (hi2 / 2 + 1) (2 * acc + 1) (n + 1)
    else if hi2 < two then logDigits fuel lo2 hi2 (2 * acc) (n + 1)
    else (acc, n)

/-- `vlog2` (log 13: DESIGN CHOICE, safe). -/
def flog2 (t : BitVec 4) (rm : BitVec 3) (a : Nat) : Res :=
  match nanOf t [a] with
  | some r => r
  | none =>
    if magnitude t a = 0 then Res.flagged (withSign t true (maxCode t + 1)) fDZ
    else if isNeg t a then Res.flagged (canonicalNan t) fNV
    else if isInf t a then Res.plain a
    else
      let x := exactOf t a
      let l := Nat.log2 x.m
      let e := x.e + l
      if x.m = 2 ^ l then (let i := exactInt e; roundTo t rm false i.neg i.m i.e)
      else
        let lo := x.m * 2 ^ (encloseBits + 80) / 2 ^ l
        let r := logDigits encloseBits lo lo 0 0
        let k := e * (2 ^ r.2 : Nat) + r.1
        if 0 ≤ k then roundInside t rm a false k.toNat (-r.2) else roundInside t rm a true (-k - 1).toNat (-r.2)

/-- A unary operation (R285); the result of `vclass` is of an n type of the same width. -/
def unary (t : BitVec 4) (rm : BitVec 3) (op : UnOp) (a : Nat) : Res :=
  let n := typeBits t
  match op with
  | .neg => Res.plain (if isInt t then wrap n (-(a : Int)) else (a + signBit t) % 2 ^ n)
  | .abs => Res.plain (if isInt t then (if intVal t a < 0 then wrap n (-(a : Int)) else a) else magnitude t a)
  | .sqrt => fsqrt t rm a
  | .rcpe => frcpe t a
  | .rsqe => frsqe t a
  | .exp2 => fexp2 t rm a
  | .log2 => flog2 t rm a
  | .clz => Res.plain (leadingZeros n a)
  | .popc => Res.plain (popCount n a)
  | .brev => Res.plain (reverseBits n a)
  | .class => Res.plain (classMask t a)

end Sys2Proof.Machine
end

