-- ==== Sys2Proof/Machine/Vector.lean ====
section
/-! DEFINITION. What VX words compute (R274 to R299): elements of a chain, lanes, the element results of
elementwise words, and the whole results of cross-element words. -/

namespace Sys2Proof.Machine

/-! ## Elements -/

/-- Bytes cut into numbers of n bytes each; an incomplete last one is no element (R120). -/
def chunks (n : Nat) : Nat → List Byte → List Nat
  | 0, _ => []
  | fuel + 1, bs =>
    let b := bs.take n
    if b.length < n then [] else natOf b :: chunks n fuel (bs.drop n)

/-- The elements of chain bytes; e2m1 has element 2k in the low nibble of byte k (R120). -/
def elemsOf (t : BitVec 4) (bs : List Byte) : List Nat :=
  if t = 14 then bs.flatMap (fun b => [b.toNat % 16, b.toNat / 16]) else chunks (typeSize t) bs.length bs

/-- The elements that a source reads: bytes past the chain's end read zero, so an element that the end cuts keeps the bytes it has
(R126, DEDUCED, log 20). -/
def readElems (t : BitVec 4) (bs : List Byte) : List Nat :=
  elemsOf t (bs ++ List.replicate ((typeSize t - bs.length % typeSize t) % typeSize t) 0)

/-- Nibbles in pairs; `pad` stands beside a last one alone. -/
def nibbles (pad : Nat) : List Nat → List Byte
  | [] => []
  | [a] => [BitVec.ofNat 8 (a + 16 * pad)]
  | a :: b :: t => BitVec.ofNat 8 (a + 16 * b) :: nibbles pad t

/-- The bytes of elements. -/
def bytesOfList (t : BitVec 4) (pad : Nat) (es : List Nat) : List Byte :=
  if t = 14 then nibbles pad es else es.flatMap (bytesOf (typeSize t))

/-- The nibble after an odd number of e2m1 elements, which the spec leaves open (log 12: DESIGN CHOICE, safe). -/
def padNibble (s : State) : Nat := (Config.word s.nonce).toNat % 16

/-- A list of at least n elements, zeros after its own (log 20: DEDUCED, unsafe). -/
def padTo (n : Nat) (es : List Nat) : List Nat := es ++ List.replicate (n - es.length) 0

/-! ## Lanes -/

/-- A position of an elementwise word: its index, whether the mask has it, operands a, b, c and the old element. -/
structure Lane where
  i : Nat
  active : Bool
  a : Nat
  b : Nat
  c : Nat
  old : Nat
  deriving DecidableEq, Repr

/-- `cnt` lanes from index i on; each list starts at i and reads zero past its end (log 20: DEDUCED, unsafe). -/
def lanesFrom (mask : Nat → Bool) : Nat → Nat → List Nat → List Nat → List Nat → List Nat → List Lane
  | 0, _, _, _, _, _ => []
  | cnt + 1, i, as, bs, cs, os =>
    { i := i, active := mask i, a := as.headD 0, b := bs.headD 0, c := cs.headD 0, old := os.headD 0 } ::
      lanesFrom mask cnt (i + 1) as.tail bs.tail cs.tail os.tail

/-- Flags gathered. -/
structure Flags where
  f : BitVec 5
  v : BitVec 4
  deriving DecidableEq, Repr

/-- No flag. -/
def Flags.none : Flags := { f := 0, v := 0 }

/-- Flags of both. -/
def Flags.or (a b : Flags) : Flags := { f := a.f ||| b.f, v := a.v ||| b.v }

/-- Flags with those of an element. -/
def Flags.add (a : Flags) (r : Res) : Flags := { f := a.f ||| r.f, v := a.v ||| r.v }

/-- Flags raised in the focus. -/
def raiseAll (g : Flags) (s : State) : State := { s with cur := raiseVFlags g.v (raiseFlags g.f s.cur) }

/-- The element results of lanes: an inactive one keeps the old element (R275). -/
def mapLanes (f : Lane → Res) : List Lane → List Nat × Flags
  | [] => ([], Flags.none)
  | l :: t =>
    let r := mapLanes f t
    if l.active then
      let x := f l
      (x.w :: r.1, r.2.add x)
    else (l.old :: r.1, r.2)

/-! ## Immediates and scalars (R277, R283) -/

/-- An imm5: unsigned for the shifts, else sign-extended. -/
def immValue (op : ArithOp) (i : Nat) : Int :=
  match op with
  | .sll | .srl | .sra => (i : Int)
  | _ => toSigned 5 i

/-- `vmv` with an immediate: by value, in e2m1 the code of its low bits. -/
def moveImm (t : BitVec 4) (i : Nat) : Res :=
  if t = 14 then Res.plain (i % 16)
  else if isInt t then Res.plain (intBits t (toSigned 5 i))
  else finiteToFloat t 0 false (exactInt (toSigned 5 i))

/-- An element in an x register: sign-extended for i and floating types, zero-extended for n types and e2m1 codes. -/
def elemWord (t : BitVec 4) (w : Nat) : Word :=
  if t = 14 ∨ (isInt t ∧ !isSigned t) then BitVec.ofNat 64 w else BitVec.ofInt 64 (toSigned (typeBits t) w)

/-- A fused operation (R281). -/
def fused (t : BitVec 4) (rm : BitVec 3) (op : FusedOp) (a b c : Nat) : Res :=
  match op with
  | .fma => ffma t rm false false a b c
  | .fms => ffma t rm false true a b c
  | .fnma => ffma t rm true false a b c

/-- The type of the result (R275, R284, R285). -/
def resultType (t : BitVec 4) (op : VOp) : BitVec 4 :=
  match op with
  | .cvt target _ => target
  | .unary .class => nTypeOf' (typeSize t)
  | .argmax | .confl | .topk | .sortk => 6
  | .inter => 8
  | _ => t
where
  /-- The n type of a size. -/
  nTypeOf' (n : Nat) : BitVec 4 := match n with | 1 => 2 | 2 => 4 | 4 => 6 | _ => 8

/-- What a lane of an elementwise VX word that writes a chain computes, memory and e2m1 conversions apart. `bi` is the
exact value of an immediate. -/
def laneVal (t : BitVec 4) (rm : BitVec 3) (op : VOp) (imm : Nat) (sel : Nat → Bool) (l : Lane) : Res :=
  match op with
  | .arith o .vi => arith t rm o l.a (intBits t (immValue o imm)) (immValue o imm)
  | .arith o _ => arith t rm o l.a l.b (intVal t l.b)
  | .fused o _ => fused t rm o l.a l.b l.c
  | .sel => Res.plain (if sel l.i then l.a else l.b)
  | .mvX => Res.plain l.b
  | .mvI => moveImm t imm
  | .cvt target sat => convert t target rm sat l.a
  | .unary o => unary t rm o l.a
  | _ => Res.plain l.a

/-! ## Conversions to e2m1 (R215) -/

/-- A block's record: SCALE and SPECIAL. -/
def recordBytes (special : Nat) : List Byte := [127, BitVec.ofNat 8 special]

/-- The record of one block from its lanes: the old one where no lane is active. -/
def blockRecord (s : BitVec 4) (rm : BitVec 3) (sat : Bool) (lanes : List Lane) (old : List Byte) : List Byte × Flags :=
  let act := lanes.filter (·.active)
  if act.isEmpty then (if old.length = 2 then old else recordBytes 0, Flags.none) else
  match act.find? (fun l => (convertTo4 s rm sat l.a).asks) with
  | some l => let r := specialOf s rm l.a; (recordBytes r.w, Flags.none.add r)
  | none => (recordBytes 0, Flags.none)

/-- The records of `cnt` blocks from block b on; `lanes` start at the block's first element. -/
def blockRecords (s : BitVec 4) (rm : BitVec 3) (sat : Bool) : Nat → List Lane → List Byte → List Byte × Flags
  | 0, _, _ => ([], Flags.none)
  | cnt + 1, lanes, old =>
    let r := blockRecord s rm sat (lanes.take 32) (old.take 2)
    let t := blockRecords s rm sat cnt (lanes.drop 32) (old.drop 2)
    (r.1 ++ t.1, r.2.or t.2)

/-- An element's code with its flags. -/
def codeTo4 (s : BitVec 4) (rm : BitVec 3) (sat : Bool) (l : Lane) : Res :=
  let x := convertTo4 s rm sat l.a
  { w := x.code, f := x.f, v := x.v }

/-! ## Reductions (R221, R288, R289) -/

/-- The combination of a reduction. -/
def redCombine (t : BitVec 4) (rm : BitVec 3) (op : RedOp) (a b : Nat) : Res :=
  match op with
  | .sum | .osum => arith t rm .add a b 0
  | .min => arith t rm .min a b 0
  | .max => arith t rm .max a b 0
  | .and => Res.plain (Nat.land a b)
  | .or => Res.plain (Nat.lor a b)
  | .xor => Res.plain (Nat.xor a b)

/-- The value over no active element. -/
def redNone (t : BitVec 4) (op : RedOp) : Nat :=
  match op with
  | .sum | .osum | .or | .xor => 0
  | .and => 2 ^ typeBits t - 1
  | .min => if isInt t then intBits t (intHi t) else canonicalNan t
  | .max => if isInt t then intBits t (intLo t) else canonicalNan t

/-- An operand that may be absent combined with another; every other combination raises its flags. -/
def combineOpt (f : Nat → Nat → Res) (a b : Option Nat) : Option Nat × Flags :=
  match a, b with
  | none, x => (x, Flags.none)
  | x, none => (x, Flags.none)
  | some x, some y => let r := f x y; (some r.w, Flags.none.add r)

/-- Virtual lanes with one more row of up to 64 elements. -/
def addRow (f : Nat → Nat → Res) : List (Option Nat) → List (Option Nat) → List (Option Nat) × Flags
  | p :: ps, x :: xs =>
    let r := combineOpt f p x
    let t := addRow f ps xs
    (r.1 :: t.1, r.2.or t.2)
  | ps, _ => (ps, Flags.none)

/-- Rows of 64 elements taken into the virtual lanes. -/
def addRows (f : Nat → Nat → Res) : Nat → List (Option Nat) → List (Option Nat) → List (Option Nat) × Flags
  | 0, parts, _ => (parts, Flags.none)
  | fuel + 1, parts, xs =>
    if xs.isEmpty then (parts, Flags.none) else
    let r := addRow f parts (xs.take 64)
    let t := addRows f fuel r.1 (xs.drop 64)
    (t.1, r.2.or t.2)

/-- Neighbours combined, one level of a tree; a last one alone is carried up unchanged. -/
def pairLevel (f : Nat → Nat → Res) : List (Option Nat) → List (Option Nat) × Flags
  | a :: b :: t =>
    let r := combineOpt f a b
    let u := pairLevel f t
    (r.1 :: u.1, r.2.or u.2)
  | l => (l, Flags.none)

/-- Levels of a tree until one operand is left. -/
def treeOf (f : Nat → Nat → Res) : Nat → List (Option Nat) → Option Nat × Flags
  | 0, l => (l.headD none, Flags.none)
  | fuel + 1, l =>
    if l.length ≤ 1 then (l.headD none, Flags.none) else
    let r := pairLevel f l
    let t := treeOf f fuel r.1
    (t.1, r.2.or t.2)

/-- The tree of R221 over elements, absent where inactive. -/
def reduceTree (f : Nat → Nat → Res) (xs : List (Option Nat)) : Option Nat × Flags :=
  let r := addRows f (xs.length + 1) (List.replicate 64 none) xs
  let t := treeOf f 6 r.1
  (t.1, r.2.or t.2)

/-- Operands combined one after another (log 44: DESIGN CHOICE, unsafe). -/
def reduceInOrder (f : Nat → Nat → Res) (start : Option Nat) (xs : List (Option Nat)) : Option Nat × Flags :=
  xs.foldl (fun acc x => let r := combineOpt f acc.1 x; (r.1, acc.2.or r.2)) (start, Flags.none)

/-- A reduction's one element. -/
def reduce (t : BitVec 4) (rm : BitVec 3) (op : RedOp) (start : Option Nat) (xs : List (Option Nat)) : Nat × Flags :=
  let f := redCombine t rm op
  match op with
  | .osum =>
    let r := reduceInOrder f start xs
    (r.1.getD 0, r.2)
  | _ =>
    let r := reduceTree f xs
    let p := r.1.getD (redNone t op)
    match start with
    | none => (p, r.2)
    | some w => let q := f p w; (q.w, r.2.add q)

/-- The index of the largest element in rank; `best` is the one so far. -/
def argmaxFrom (t : BitVec 4) : Nat → Option (Nat × Int) → List (Option Nat) → Option (Nat × Int)
  | _, best, [] => best
  | i, best, none :: xs => argmaxFrom t (i + 1) best xs
  | i, best, some w :: xs =>
    let r := rank t false w
    match best with
    | none => argmaxFrom t (i + 1) (some (i, r)) xs
    | some b => argmaxFrom t (i + 1) (if b.2 < r then some (i, r) else best) xs

/-- `vargmax`. -/
def argmax (t : BitVec 4) (xs : List (Option Nat)) : Nat × Flags :=
  let nv := isFloat t && xs.any (fun x => match x with | some w => isSnan t w | none => false)
  ((match argmaxFrom t 0 none xs with | some b => b.1 | none => 0xFFFFFFFF), { f := if nv then fNV else 0, v := 0 })

/-! ## Permutes and sparse primitives (R290 to R297) -/

/-- `vexpand`: the active lanes take the source's elements one after another. -/
def expand : List Nat → List Lane → List Nat
  | _, [] => []
  | src, l :: t => if l.active then src.headD 0 :: expand src.tail t else l.old :: expand src t

/-- `vpcnt`: set bits below each lane, wrapping in the type. -/
def prefixCount (t : BitVec 4) (p : Nat → Bool) : Nat → List Lane → List Nat
  | _, [] => []
  | n, l :: u => (if l.active then n % 2 ^ typeBits t else l.old) :: prefixCount t p (if p l.i then n + 1 else n) u

/-- `vconfl`: `seen` holds the active lanes so far, nearest first. -/
def conflicts : List (Nat × Nat) → List Lane → List Nat
  | _, [] => []
  | seen, l :: t =>
    if l.active then
      (match seen.find? (fun p => p.1 == l.a) with | some p => p.2 | none => 0xFFFFFFFF) :: conflicts ((l.a, l.i) :: seen) t
    else l.old :: conflicts seen t

/-- `vsscan`: a segment starts at each set bit. -/
def scanFrom (f : Nat → Nat → Res) (starts : Nat → Bool) : Option Nat → List Lane → List Nat × Flags
  | _, [] => ([], Flags.none)
  | acc, l :: t =>
    let r := match acc with
      | some x => if starts l.i then Res.plain l.a else f x l.a
      | none => Res.plain l.a
    let u := scanFrom f starts (some r.w) t
    (r.w :: u.1, u.2.add r)

/-- The rank order of R294. The spec gives e2m1's special code, whose value stands in a block's record, no rank: it is `special` (log 12: DESIGN CHOICE, safe; log 44: DESIGN CHOICE, unsafe). -/
def rankOf (t : BitVec 4) (nanHigh : Bool) (special : Int) (w : Nat) : Int :=
  if t = 14 ∧ w = 8 then special else rank t nanHigh w

/-- The active lanes with their ranks. -/
def ranked (t : BitVec 4) (nanHigh : Bool) (special : Int) (ls : List Lane) : List (Nat × Int) :=
  (ls.filter (·.active)).map (fun l => (l.i, rankOf t nanHigh special l.a))

/-- `vtopk`: the k largest, in descending rank, equal ones by index (log 42: DEDUCED, unsafe). -/
def topk (t : BitVec 4) (special : Int) (k : Nat) (ls : List Lane) : List Nat :=
  ((sortRanked (fun x y => decide (y < x)) (ranked t false special ls)).take k).map (·.1)

/-- `vsortk`: ascending rank, stable (log 42: DEDUCED, unsafe). -/
def sortk (t : BitVec 4) (special : Int) (ls : List Lane) : List Nat :=
  (sortRanked (fun x y => decide (x < y)) (ranked t true special ls)).map (·.1)

/-- `vinter`: the walk of R296 over two index lists, each element with its position and whether it takes part; `high` is where NaNs
rank, which R294 states for the other two words alone (log 12: DESIGN CHOICE, safe) (log 44: DESIGN CHOICE, unsafe). -/
def interWalk (t : BitVec 4) (special : Int) : Nat → Bool → List Lane → List Lane → List Nat
  | 0, _, _, _ => []
  | _, _, [], _ => []
  | _, _, _, [] => []
  | fuel + 1, high, x :: xs, y :: ys =>
    if !x.active then interWalk t special fuel high xs (y :: ys)
    else if !y.active then interWalk t special fuel high (x :: xs) ys
    else
      let a := rankOf t high special x.a
      let b := rankOf t high special y.a
      if a < b then interWalk t special fuel high xs (y :: ys)
      else if b < a then interWalk t special fuel high (x :: xs) ys
      else (x.i + y.i * 2 ^ 32) :: interWalk t special fuel high xs ys

end Sys2Proof.Machine
end

