-- ==== Sys2Proof/Machine/VMem.lean ====
section
/-! DEFINITION. Element accesses of vector memory words (R135, R147, R153, R308 to R313): addresses, checks in the order
of R196, loads, stores, progress words and reduce-stores, one element at a time. -/

namespace Sys2Proof.Machine

/-! ## Registers as a word reads them -/

/-- A register's bytes, and the byte ranges of its pieces that hold an uncorrectable error, with the address to report. -/
structure Reg where
  bytes : List Byte
  bad : List (Nat × Nat × Word)
  deriving DecidableEq, Repr

/-- The address of an error in a segment's data (unit 3) or its table entry (unit 4). -/
def segErrorAddr (x : Seg) : Word :=
  if x.badEntry then BitVec.ofNat 64 (4 * 2 ^ 56 + x.num) else BitVec.ofNat 64 (3 * 2 ^ 56 + x.num * 256)

/-- The ranges in error of pieces from a byte position on. -/
def badRanges (k : Core) : Nat → List Piece → List (Nat × Nat × Word)
  | _, [] => []
  | pos, p :: t =>
    let rest := badRanges k (pos + p.count) t
    match lookupKey p.seg k.segs with
    | some x => if x.badData || x.badEntry then (pos, pos + p.count, segErrorAddr x) :: rest else rest
    | none => rest

/-- A chain as a word reads it. -/
def regOf (k : Core) (c : Chain) : Reg := { bytes := chainBytes k c, bad := badRanges k 0 c.pieces }

/-- The error that an element of a register, of a number of bits, meets, if any (R120, R197). -/
def badElem (r : Reg) (width i : Nat) : Option Word :=
  (r.bad.find? (fun b => decide (b.1 * 8 < (i + 1) * width) && decide (i * width < b.2.1 * 8))).map (fun b => b.2.2)

/-! ## Faults of a member -/

/-- A fault that a member found at an element; `first` marks one that shortens the grant instead of trapping (R311). -/
structure Hit where
  e : Nat
  k : Nat
  trap : Trap
  first : Bool
  deriving DecidableEq, Repr

/-- The fault taken first: the smallest element, then the lowest member, then the first found (R196). -/
def firstHit : List Hit → Option Hit
  | [] => none
  | h :: t =>
    match firstHit t with
    | none => some h
    | some g => if g.e < h.e ∨ (g.e = h.e ∧ g.k < h.k) then some g else some h

/-- The trap of an uncorrectable error that a vector word consumes. -/
def errorOf (addr : Word) (unit space : Nat) (a : Access) : Trap := { code := 49, tval := addr, info := sfinfoOf false unit space a }

/-- A trap with FF set (R193). -/
def firstFault (t : Trap) : Trap := { t with info := t.info ||| 256#9 }

/-! ## Addresses and checks -/

/-- The address of element i (R308); e2m1 elements lie two to a byte. -/
def elemAddr (t : BitVec 4) (kind : AddrKind) (base : Word) (stride : Word) (idx i : Nat) : Word :=
  match kind with
  | .unit => base + BitVec.ofNat 64 (if t = 14 then i / 2 else i * typeSize t)
  | .strided => base + BitVec.ofNat 64 i * stride
  | .indexed => base + BitVec.ofNat 64 (idx % 2 ^ 32)

/-- Where an element goes, or the trap it takes: misaligned, then translation (R196). -/
def elemPlace (s : State) (unit vmt size : Nat) (a : Access) (addr : Word) : Except Trap (Nat × Option (TlbEntry × Source)) :=
  let trap (code : Nat) : Trap := { code := code, tval := addr, info := sfinfoOf false unit vmt a }
  if addr.toNat % size ≠ 0 then .error (trap (if a == .load then 4 else 6)) else
  if a == .reduce && vmt == 4 then .error (trap 29) else
  match spacePlace s (who s) vmt a addr.toNat with
  | .error f => .error (trap f)
  | .ok r => .ok r

/-- A place that holds an uncorrectable error traps a read. -/
def readPlace (s : State) (unit vmt size : Nat) (addr : Word) : Except Trap (Nat × Option (TlbEntry × Source)) :=
  match elemPlace s unit vmt size .load addr with
  | .error t => .error t
  | .ok (k, use) => if hasError k size s then .error (errorOf (errorAddr k) unit vmt .load) else .ok (k, use)

/-- The translation of an access entered into the TLBs. -/
def useOne (use : Option (TlbEntry × Source)) (s : State) : State :=
  match use with
  | some p =>
    match (coreAt s s.core).tlb with
    | t :: _ => if t = p.1 then s else useEntry s.curKey p.1 p.2 s
    | [] => useEntry s.curKey p.1 p.2 s
  | none => s

/-- A use put among uses in the order of their pages, each page once. -/
def insertUse (u : TlbEntry × Source) : List (TlbEntry × Source) → List (TlbEntry × Source)
  | [] => [u]
  | x :: t => if x.1.vbase = u.1.vbase then x :: t else if u.1.vbase < x.1.vbase then u :: x :: t else x :: insertUse u t

/-- The lookups of a vector access: one for each distinct page, in the order of the pages (R142). -/
def usePages (us : List (TlbEntry × Source)) (s : State) : State :=
  (us.foldl (fun l u => insertUse u l) []).foldl (fun s u => useEntry s.curKey u.1 u.2 s) s

/-! ## Loads -/

/-- What a pass over lanes leaves: the state, the elements, the translations used, what a reduce-store sends to its homes, a fault at an element, and
whether an access must wait for the range scoreboard. -/
structure Pass where
  s : State
  es : List Nat
  uses : List (TlbEntry × Source)
  sent : List (Nat × Nat)
  hit : Option (Nat × Trap)
  stall : Bool

/-- A pass with no lane left, or stopped at a fault. -/
def Pass.ended (s : State) (hit : Option (Nat × Trap)) : Pass := { s := s, es := [], uses := [], sent := [], hit := hit, stall := false }

/-- A lane's translation and its wait put before the rest of a pass. -/
def Pass.after (use : Option (TlbEntry × Source)) (stall : Bool) (p : Pass) : Pass := { p with uses := use.toList ++ p.uses, stall := stall || p.stall }

/-- Lanes of a load in order, as far as the first fault; operand b is the index. -/
def loadLanes (t : BitVec 4) (vmt : Nat) (kind : AddrKind) (base stride : Word) : List Lane → State → Pass
  | [], s => .ended s none
  | l :: rest, s =>
    let cons (w : Nat) (p : Pass) : Pass := { p with es := w :: p.es }
    if !l.active then cons l.old (loadLanes t vmt kind base stride rest s) else
    let addr := elemAddr t kind base stride l.b l.i
    let n := typeSize t
    match readPlace s 1 vmt n addr with
    | .error f => .ended s (some (l.i, f))
    | .ok (k, use) =>
      let w := natOf (seeBytes s .vector k n)
      let w := if t = 14 then (if l.i % 2 = 0 then w % 16 else w / 16) else w
      cons w (.after use (scoreboardStalls s k n false) (loadLanes t vmt kind base stride rest s))

/-! ## Stores -/

/-- One element stored; e2m1 rewrites its byte with the other nibble as read. -/
def storeElem (t : BitVec 4) (addr key i w : Nat) (s : State) : State :=
  let bs := if t = 14 then
      (let old := (getByte key s.mem).toNat
       [BitVec.ofNat 8 (if i % 2 = 0 then old / 16 * 16 + w % 16 else old % 16 + w % 16 * 16)])
    else bytesOf (typeSize t) w
  storeChecked true addr key bs s

/-- The store of one lane, operand a, with index b. -/
def storeLane (t : BitVec 4) (vmt : Nat) (kind : AddrKind) (base stride : Word) (l : Lane) (s : State) : Except Trap (State × Option (TlbEntry × Source) × Bool) :=
  let addr := elemAddr t kind base stride l.b l.i
  let n := typeSize t
  match elemPlace s 1 vmt n .store addr with
  | .error f => .error f
  | .ok (k, use) => .ok (storeElem t addr.toNat k l.i l.a s, use, scoreboardStalls s k n true)

/-- Lanes of a store in order, as far as the first fault (log 42: DEDUCED, unsafe). -/
def storeLanes (t : BitVec 4) (vmt : Nat) (kind : AddrKind) (base stride : Word) : List Lane → State → Pass
  | [], s => .ended s none
  | l :: rest, s =>
    if !l.active then storeLanes t vmt kind base stride rest s else
    match storeLane t vmt kind base stride l s with
    | .error f => .ended s (some (l.i, f))
    | .ok (s, use, st) => .after use st (storeLanes t vmt kind base stride rest s)

/-! ## Stores with notify (R153, R312) -/

/-- The scope of a progress write. -/
def progressScope (vmt : Nat) : Scope := match vmt with | 0 | 4 => .pkg | 2 => .core | _ => .die

/-- Elements of one 256-byte block. -/
def perBlock (t : BitVec 4) : Nat := elemsOfBytes t 256

/-- A progress write: a release at the scope of R153, then the count is written (R180) (log 50: DEDUCED, unsafe). -/
def progressWrite (vmt : Nat) (addr : Word) (key n : Nat) (s : State) : State :=
  storeChecked true addr.toNat key (bytesOf 8 n) (releaseWaited s.curKey (progressScope vmt) s)

/-- A progress write where the word can be reached; a word whose own access fails is left alone (log 50: DEDUCED, unsafe). -/
def tryProgress (vmt : Nat) (addr : Word) (n : Nat) (s : State) : State :=
  match elemPlace s 1 vmt 8 .store addr with
  | .ok (k, use) => progressWrite vmt addr k n (useOne use s)
  | .error _ => s

/-- The element at which a progress word's fault is taken: the block's first active one, or the block's first where it holds
the start of the run or no active element. -/
def wordFaultAt (start : Nat) (block : List Lane) : Nat :=
  match block with
  | [] => start
  | l :: _ => if l.i = start then start else match block.find? (·.active) with | some a => a.i | none => l.i

/-- Blocks of a `vstn`: each block's lanes are stored after its progress word is translated, and the word follows them when the
block is whole. `n` is the length, `bound` where the run stops. -/
def notifyBlocks (t : BitVec 4) (vmt : Nat) (base word : Word) (start bound n : Nat) : Nat → List Lane → State → Pass
  | 0, _, s => .ended s none
  | _, [], s => .ended s none
  | fuel + 1, l :: ls, s =>
    let stop := (l.i / perBlock t + 1) * perBlock t
    let block := (l :: ls).takeWhile (fun x => decide (x.i < stop))
    let rest := (l :: ls).dropWhile (fun x => decide (x.i < stop))
    match elemPlace s 1 vmt 8 .store word with
    | .error f => .ended s (some (if f.code = 6 then start else wordFaultAt start block, f))
    | .ok (k, use) =>
      let p := Pass.after use (scoreboardStalls s k 8 true) (storeLanes t vmt .unit base 0 block s)
      match p.hit with
      | some _ => p
      | none =>
        let whole := min stop n
        if bound < whole then p else
        let q := notifyBlocks t vmt base word start bound n fuel rest (progressWrite vmt word k whole p.s)
        { q with uses := p.uses ++ q.uses, stall := p.stall || q.stall }

/-! ## Reduce-stores (R313) -/

/-- Who issues a reduce-store of the focus. -/
def issuerOf (s : State) : Issuer :=
  match s.cur.task with
  | some k => { part := k.part, region := k.region, thread := k.thread, key := s.curKey, node := k.node, word := 0 }
  | none => { part := 2 ^ 64, region := 0, thread := 0, key := s.curKey, node := 0, word := 0 }

/-- One element combined into a scratchpad at once; elsewhere it goes to the write queue of its home with the others. -/
def reduceElem (t : BitVec 4) (vmt : Nat) (op : CombOp) (addr key w : Nat) (s : State) : State :=
  match vmt with
  | 0 | 1 => s
  | _ =>
    let n := typeSize t
    if hasError key n s then discardWrite key s else
    storeOwn true addr key (bytesOf n (combine t s.cur.frm op (natOf (getBytes key n s.mem)) w).w) (followOwn key n s)

/-- Lanes of a reduce-store in order, as far as the first fault. -/
def reduceLanes (t : BitVec 4) (vmt : Nat) (op : CombOp) (kind : AddrKind) (base : Word) : List Lane → State → Pass
  | [], s => .ended s none
  | l :: rest, s =>
    if !l.active then reduceLanes t vmt op kind base rest s else
    let addr := elemAddr t kind base 0 l.b l.i
    let n := typeSize t
    match elemPlace s 1 vmt n .reduce addr with
    | .error f => .ended s (some (l.i, f))
    | .ok (k, use) =>
      let p := Pass.after use (scoreboardStalls s k n true) (reduceLanes t vmt op kind base rest (reduceElem t vmt op addr.toNat k l.a s))
      if vmt ≤ 1 then { p with sent := (k, l.a) :: p.sent } else p

/-- A reduce-store of lanes: what it sends leaves as one (R313). -/
def reduceAll (t : BitVec 4) (vmt : Nat) (op : CombOp) (kind : AddrKind) (base : Word) (lanes : List Lane) (s : State) : Pass :=
  let p := reduceLanes t vmt op kind base lanes s
  { p with s := sendReduce (issuerOf s) op t s.cur.frm p.sent p.s }

end Sys2Proof.Machine
end

