-- ==== Sys2Proof/Machine/Chain.lean ====
section
/-! DEFINITION. Chain edits, spill and fill (R116, R122 to R124, R302 to R307). -/

namespace Sys2Proof.Machine

/-- What a cross-element member comes to: done, a trap with its `vstart` in the state it leaves, or a wait. -/
inductive Cross where
  | done (s : State)
  | trap (vstart : Nat) (t : Trap) (s : State)
  | stall

/-- The pool-empty trap (R192, R193): `stval` holds the segments free at the fault. -/
def poolTrap (s : State) (unit : Nat) : Trap := checkTrap s 30 (BitVec.ofNat 64 (pfree s s.core)) unit .alloc

/-- The shape trap of a chain edit (R303). -/
def editShape (s : State) : Cross := .trap 0 (checkTrap s 48 0 1 .data) s

/-! ## References of an edit (R116) -/

/-- Pieces take references: those that the edit gives up elsewhere are used first, the others are added. What is left of the
references given up comes back. -/
def takeRefs (key : Nat) : List Piece → List Nat → State → Option (List Piece × List Nat × State)
  | [], credit, s => some ([], credit, s)
  | p :: t, credit, s =>
    if credit.contains p.seg then
      match takeRefs key t (credit.erase p.seg) s with
      | none => none
      | some (ps, c, s) => some (p :: ps, c, s)
    else
      match addRef key p s with
      | none => none
      | some (q, s) => match takeRefs key t credit s with
        | none => none
        | some (ps, c, s) => some (q :: ps, c, s)

/-- The references that registers hold. -/
def heldSegs (c : Ctx) (rs : List Nat) : List Nat := rs.flatMap (fun r => (vreg c r).pieces.map (·.seg))

/-- The new contents of registers take their references. -/
def takeAll (key : Nat) : List (Nat × Chain) → List Nat → State → Option (List (Nat × Chain) × List Nat × State)
  | [], credit, s => some ([], credit, s)
  | (r, x) :: t, credit, s =>
    match takeRefs key x.pieces credit s with
    | none => none
    | some (ps, credit, s) => match takeAll key t credit s with
      | none => none
      | some (rest, credit, s) => some ((r, { x with pieces := ps }) :: rest, credit, s)

/-- An edit in one step: registers take new contents, others are released, and the counts follow; `fresh` are segments that the edit
itself allocated. None where a copy at count 255 finds no segment. -/
def applyEdit (sets : List (Nat × Chain)) (frees fresh : List Nat) (s : State) : Option State :=
  let key := s.curKey
  let frees := (frees.filter (fun r => !sets.any (·.1 == r))).eraseDups
  let credit := fresh ++ heldSegs s.cur (sets.map (·.1) ++ frees)
  match takeAll key sets credit s with
  | none => none
  | some (sets, left, s) =>
    let s := sets.foldl (fun s x => updCtx s key (setVreg x.1 x.2)) s
    let s := frees.foldl (fun s r => updCtx s key (fun c => setVreg r (releasedChain c) c)) s
    some (dropPieces (key / 4) (left.map (fun g => { seg := g, first := 0, count := 1 })) s)

/-! ## Compaction (R124) -/

/-- A run of adjacent pieces: where it starts, how many pieces, how many bytes. -/
structure Run where
  start : Nat
  len : Nat
  bytes : Nat
  deriving DecidableEq, Repr

/-- Runs that start at one place and that packing shortens. -/
def runsAt (start : Nat) : Nat → Nat → List Piece → List Run
  | _, _, [] => []
  | len, bytes, p :: t =>
    let r : Run := { start := start, len := len + 1, bytes := bytes + p.count }
    if ceilDiv r.bytes 256 < r.len then r :: runsAt start r.len r.bytes t else runsAt start r.len r.bytes t

/-- Every such run. -/
def allRuns : Nat → List Piece → List Run
  | _, [] => []
  | i, p :: t => runsAt i 0 0 (p :: t) ++ allRuns (i + 1) t

/-- The better of two runs: fewer pieces, then fewer bytes, then the lower start. -/
def betterRun (a b : Run) : Run :=
  if b.len < a.len ∨ (b.len = a.len ∧ (b.bytes < a.bytes ∨ (b.bytes = a.bytes ∧ b.start < a.start))) then b else a

/-- The run to pack next. -/
def bestRun (ps : List Piece) : Option Run :=
  match allRuns 0 ps with
  | [] => none
  | r :: t => some (t.foldl betterRun r)

/-- Bytes written into fresh segments, full but the last. -/
def freshPieces (key : Nat) : List (List Byte) → State → Option (List Piece × State)
  | [], s => some ([], s)
  | b :: t, s =>
    match allocSeg key (segData b) s with
    | none => none
    | some (id, s) => match freshPieces key t s with
      | none => none
      | some (ps, s) => some ({ seg := id, first := 0, count := b.length } :: ps, s)

/-- Why an edit changes nothing: no segment is left, or a segment that it copies is in error. -/
inductive EditFault where
  | empty
  | bad (addr : Word)
  deriving DecidableEq, Repr

/-- Runs are packed until at most 64 pieces are left: the pieces and the segments taken. -/
def compact (key : Nat) : Nat → List Piece → List Nat → State → Except EditFault (List Piece × List Nat × State)
  | 0, ps, fresh, s => .ok (ps, fresh, s)
  | fuel + 1, ps, fresh, s =>
    if ps.length ≤ 64 then .ok (ps, fresh, s) else
    match bestRun ps with
    | none => .ok (ps, fresh, s)
    | some r =>
      let run := (ps.drop r.start).take r.len
      match badRanges (coreAt s (key / 4)) 0 run with
      | b :: _ => .error (.bad b.2.2)
      | [] =>
      let bytes := (run.map (pieceBytes (coreAt s (key / 4)))).flatten
      match freshPieces key (blocksOf 65 bytes) s with
      | none => .error .empty
      | some (qs, s) => compact key fuel (ps.take r.start ++ qs ++ ps.drop (r.start + r.len)) (fresh ++ qs.map (·.seg)) s

/-! ## The edits -/

/-- An edit's registers are set, its result compacted where it holds more than 64 pieces; a fresh segment packed into a later run is
given up again. -/
def finishEdit (sets : List (Nat × Chain)) (frees fresh : List Nat) (s : State) : Cross :=
  let pack (acc : Except EditFault (List (Nat × Chain) × List Nat × Bool × State)) (x : Nat × Chain) : Except EditFault (List (Nat × Chain) × List Nat × Bool × State) :=
    match acc with
    | .error f => .error f
    | .ok (done, fresh, any, s) =>
      match compact s.curKey 128 x.2.pieces fresh s with
      | .error f => .error f
      | .ok (ps, fresh, s) => .ok (done ++ [(x.1, { x.2 with pieces := ps })], fresh, any || decide (64 < x.2.pieces.length), s)
  match sets.foldl pack (.ok ([], fresh, false, s)) with
  | .error .empty => .trap 0 (poolTrap s 1) s
  | .error (.bad a) => .trap 0 (errorOf a 1 s.cur.vmt.toNat .data) s
  | .ok (sets, fresh, packed, s') =>
    match applyEdit sets frees fresh s' with
    | none => .trap 0 (poolTrap s 1) s
    | some s' => .done (if packed then countEvent 0x022 1 s'.curKey { s' with cur := raiseVFlags vComp s'.cur } else s')

/-- A chain's elements in its own type. -/
def chainElems (c : Chain) : Nat := elemsOfBytes c.type (chainLen c)

/-- The bytes that n elements of a chain take, when it has more; none for an odd e2m1 count below its own (R120). -/
def cutAt (c : Chain) (n : Nat) : Option Nat :=
  if chainElems c ≤ n then some (chainLen c)
  else if c.type = 14 ∧ n % 2 = 1 then none
  else some (bytesOfElems c.type n)

/-- The bytes that the last n elements of a chain leave before them. -/
def cutTail (c : Chain) (n : Nat) : Option Nat :=
  if chainElems c ≤ n then some 0
  else if c.type = 14 ∧ n % 2 = 1 then none
  else some (chainLen c - bytesOfElems c.type n)

/-- The piece that `vnorm` keeps where result piece j, of n bytes, goes. -/
def keptPiece (k : Core) (old : List Piece) (j n : Nat) : Option Piece :=
  match dropBytes (256 * j) old with
  | p :: _ => if p.first = 0 ∧ p.count = n ∧ countOf k p.seg = 1 ∧ (old.drop (placeAt old j)).head? = some p then some p else none
  | [] => none

/-- The error that `vnorm` meets in the bytes it copies, if any (R197). -/
def normError (k : Core) (c : Chain) : Option Word :=
  let len := chainLen c
  (badRanges k 0 c.pieces).findSome? (fun b =>
    if (upTo (ceilDiv len 256)).any (fun j => (keptPiece k c.pieces j (min 256 (len - 256 * j))).isNone && decide (b.1 < 256 * (j + 1)) && decide (256 * j < b.2.1))
    then some b.2.2 else none)

/-- The pieces of `vnorm`: those already in place are kept, the other bytes go into fresh segments. -/
def normPieces (key : Nat) (old : List Piece) : Nat → List (List Byte) → State → Option (List Piece × List Nat × State)
  | _, [], s => some ([], [], s)
  | j, b :: t, s =>
    match keptPiece (coreAt s (key / 4)) old j b.length with
    | some p => match normPieces key old (j + 1) t s with
      | none => none
      | some (ps, fresh, s) => some (p :: ps, fresh, s)
    | none =>
      match allocSeg key (segData b) s with
      | none => none
      | some (id, s) => match normPieces key old (j + 1) t s with
        | none => none
        | some (ps, fresh, s) => some ({ seg := id, first := 0, count := b.length } :: ps, id :: fresh, s)

/-- The registers whose segments' entries an edit consults. -/
def editRegs (m : Member) : List Nat :=
  match m.op with
  | .prep | .join => [m.d, m.a, m.b]
  | .free => [m.d]
  | _ => [m.d, m.a]

/-- The first table entry in error that an edit consults (R132); a segment that a reference more would copy is read too (R116). -/
def entryError (m : Member) (s : State) : Option Word :=
  ((editRegs m).flatMap (fun r => (vreg s.cur r).pieces)).findSome? (fun p =>
    match segAt s s.core p.seg with
    | some x => if x.badEntry || (x.badData && x.count == 255) then some (segErrorAddr x) else none
    | none => none)

/-- A chain edit whose entries can be read (R122, R303). -/
def runSound (m : Member) (s : State) : Cross :=
  let src := vreg s.cur m.a
  let snd := vreg s.cur m.b
  let n := m.xb.toNat
  let valid (type : BitVec 4) (ps : List Piece) : Chain := { valid := true, type := type, pieces := ps }
  match m.op with
  | .prep =>
    if 16384 < chainLen src + chainLen snd then editShape s
    else finishEdit [(m.d, valid snd.type (src.pieces ++ snd.pieces))] (if m.a = m.b then [] else [m.b]) [] s
  | .join =>
    if 16384 < chainLen src + chainLen snd then editShape s
    else finishEdit [(m.d, valid src.type (src.pieces ++ snd.pieces))] [m.a, m.b] [] s
  | .trimh => match cutAt src n with
    | none => editShape s
    | some k => finishEdit [(m.d, valid src.type (dropBytes k src.pieces))] [m.a] [] s
  | .trimt => match cutTail src n with
    | none => editShape s
    | some k => finishEdit [(m.d, valid src.type (takeBytes k src.pieces))] [m.a] [] s
  | .split => match cutAt src n with
    | none => editShape s
    | some k =>
      if chainElems src ≤ n then finishEdit [(m.d, valid src.type [])] [] [] s
      else finishEdit [(m.a, valid src.type (takeBytes k src.pieces)), (m.d, valid src.type (dropBytes k src.pieces))] [] [] s
  | .share => finishEdit [(m.d, valid src.type src.pieces)] [] [] s
  | .retype t =>
    if t != 14 && chainLen src % typeSize t != 0 then editShape s
    else finishEdit [(m.d, valid t src.pieces)] [m.a] [] s
  | .norm =>
    match normError (coreAt s s.core) src with
    | some a => .trap 0 (errorOf a 1 s.cur.vmt.toNat .data) s
    | none =>
    match normPieces s.curKey src.pieces 0 (blocksOf 65 (chainBytes (coreAt s s.core) src)) s with
    | none => .trap 0 (poolTrap s 1) s
    | some (ps, fresh, s') => finishEdit [(m.d, valid src.type ps)] [m.a] fresh s'
  | .free => match applyEdit [] [m.d] [] s with
    | some s => .done s
    | none => .done s
  | _ => .done s

/-- A chain edit: an entry in error that it consults faults (R132). -/
def runEdit (m : Member) (s : State) : Cross :=
  match entryError m s with
  | some a => .trap 0 (errorOf a 1 s.cur.vmt.toNat .data) s
  | none => runSound m s

/-- What `vlen` writes (R304). -/
def lenOf (c : Chain) : Word := BitVec.ofNat 64 (chainElems c)

/-! ## Spill and fill (R305 to R307) -/

/-- The header word of a descriptor (R119). -/
def headerWord (c : Chain) (npiece : Nat) : Nat :=
  (if c.valid then 2 ^ 31 else 0) + c.type.toNat * 2 ^ 27 + npiece * 2 ^ 15 + chainLen c

/-- Bytes written from an address on, 64 at a time: the state as far as the first fault, the fault, and whether an access must wait. -/
def spillBlocks (vmt : Nat) : Nat → Word → List Byte → State → State × Option Trap × Bool
  | 0, _, _, s => (s, none, false)
  | fuel + 1, addr, bs, s =>
    if bs.isEmpty then (s, none, false) else
    match elemPlace s 1 vmt 64 .store addr with
    | .error t => (s, some t, false)
    | .ok (k, use) =>
      let blk := bs.take 64
      let r := spillBlocks vmt fuel (addr + 64) (bs.drop 64) (storeChecked true addr.toNat k blk (useOne use s))
      (r.1, r.2.1, r.2.2 || scoreboardStalls s k blk.length true)

/-- `vspill`: a block's address is checked before the bytes it takes are read (R196). -/
def runSpill (m : Member) (s : State) : Cross :=
  let vmt := s.cur.vmt.toNat
  let c := vreg s.cur m.d
  if m.xa.toNat % 64 ≠ 0 then .trap 0 { code := 6, tval := m.xa, info := sfinfoOf false 1 vmt .store } s else
  if s.cur.release.isSome then .stall else
  let r := regOf (coreAt s s.core) c
  let good := match r.bad with | b :: _ => b.1 / 64 * 64 | [] => r.bytes.length
  match spillBlocks vmt 257 (m.xa + 64) (r.bytes.take good) s with
  | (s1, some t, _) => .trap 0 t s1
  | (s1, none, st) =>
    match r.bad with
    | b :: _ =>
      (match elemPlace s1 1 vmt 64 .store (m.xa + 64 + BitVec.ofNat 64 good) with
       | .error t => .trap 0 t s1
       | .ok _ => .trap 0 (errorOf b.2.2 1 vmt .data) s1)
    | [] =>
      match spillBlocks vmt 2 m.xa (bytesOf 64 (headerWord { c with valid := true } (ceilDiv (chainLen c) 256))) s1 with
      | (s2, some t, _) => .trap 0 t s2
      | (s2, none, st') => if st || st' then .stall else .done (releaseReg s2.curKey m.d s2)

/-- The header of a spill image passes its check: its type and length (R307). -/
def headerOk (h : List Byte) : Option (BitVec 4 × Nat) :=
  let w := recNat h 0 4
  let len := bits w 14 0
  if bit w 31 && bits w 26 22 == 0 && recZero h 4 60 && bits w 30 27 != 15 && decide (len ≤ 16384) && bits w 21 15 == ceilDiv len 256
  then some (BitVec.ofNat 4 (bits w 30 27), len) else none

/-- Bytes read from an address on, 64 at a time. -/
def fillBlocks (vmt : Nat) : Nat → Word → Nat → State → Except Trap (List Byte × State × Bool)
  | 0, _, _, s => .ok ([], s, false)
  | fuel + 1, addr, len, s =>
    if len = 0 then .ok ([], s, false) else
    match elemPlace s 1 vmt 64 .load addr with
    | .error t => .error t
    | .ok (k, use) =>
      let n := min 64 len
      if hasError k n s then .error (errorOf (errorAddr k) 1 vmt .load) else
      match fillBlocks vmt fuel (addr + 64) (len - n) (useOne use s) with
      | .error t => .error t
      | .ok (bs, s', st) => .ok (seeBytes s .vector k n ++ bs, s', st || scoreboardStalls s k n false)

/-- `vfill`. -/
def runFill (m : Member) (s : State) : Cross :=
  let vmt := s.cur.vmt.toNat
  if m.xa.toNat % 64 ≠ 0 then .trap 0 { code := 4, tval := m.xa, info := sfinfoOf false 1 vmt .load } s else
  if badEntryIn (coreAt s s.core) (vreg s.cur m.d) then
    .trap 0 (errorOf (((regOf (coreAt s s.core) (vreg s.cur m.d)).bad.map (·.2.2)).headD 0) 1 vmt .data) s else
  match fillBlocks vmt 2 m.xa 64 s with
  | .error t => .trap 0 t s
  | .ok (h, s1, st) =>
    if st then .stall else
    match headerOk h with
    | none => .trap 0 (checkTrap s 48 m.xa 1 .data) s1
    | some (type, len) =>
      match freshPieces s1.curKey (blocksOf 65 (List.replicate len 0)) s1 with
      | none => .trap 0 (poolTrap s1 1) s1
      | some _ =>
        match fillBlocks vmt 257 (m.xa + 64) len s1 with
        | .error t => .trap 0 t s1
        | .ok (bs, s2, st) =>
          if st then .stall else
          match freshPieces s2.curKey (blocksOf 65 bs) s2 with
          | none => .trap 0 (poolTrap s2 1) s2
          | some (ps, s3) => .done (replaceReg s3.curKey m.d { valid := true, type := type, pieces := ps } s3)

end Sys2Proof.Machine
end

