-- ==== Sys2Proof/Machine/Csr.lean ====
section
/-! DEFINITION. The CSRs (R19, R49, R161, R193, R207, R266 to R273) and the words that access them. -/

namespace Sys2Proof.Machine

/-- Who may access a CSR (R267). -/
inductive CsrAccess where
  | none | supervisor | counter | readWrite | readOnly
  deriving DecidableEq, Repr

/-- The access of each CSR number (log 58: DESIGN CHOICE, unsafe). -/
def csrAccess (n : Nat) : CsrAccess :=
  if n = 0x100 ∨ n = 0x105 ∨ (0x140 ≤ n ∧ n ≤ 0x143) ∨ (0x5C0 ≤ n ∧ n ≤ 0x5D0) then .supervisor
  else if (0x800 ≤ n ∧ n ≤ 0x807) ∨ (0x810 ≤ n ∧ n ≤ 0x817) ∨ n = 0x820 then .readWrite
  else if 0x840 ≤ n ∧ n ≤ 0x84F then .counter
  else if n = 0xC00 ∨ (0xCC0 ≤ n ∧ n ≤ 0xCCB) then .readOnly
  else .none

/-- The CSRs of the matrix engine, which an S-core has not (R96) (log 58: DESIGN CHOICE, unsafe). -/
def csrIsMatrix (n : Nat) : Bool := n == 0xCC2 || (decide (0x810 ≤ n) && decide (n ≤ 0x817))

/-- `mtlen` (R272). -/
def mtlenValue : Nat := 128 * 2 ^ 45 + 256 * 2 ^ 36 + 128 * 2 ^ 27 + 128 * 2 ^ 18 + 64 * 2 ^ 9 + 64

/-- `mshape`n as it reads. -/
def mshapeWord (m : Mshape) : Nat := m.fmt.toNat * 2 ^ 24 + m.rows * 2 ^ 16 + m.cols

/-- Bits of an element in a tile format (R242). -/
def fmtBits (f : BitVec 3) : Nat := match f.toNat with | 0 | 1 => 16 | 2 | 3 | 5 => 8 | 4 => 4 | _ => 32

/-- A shape that `mshape`n can hold (R272). -/
def mshapeOk (m : Mshape) : Bool := m.fmt != 7 && decide (m.rows ≤ 128) && decide (m.cols * fmtBits m.fmt ≤ 1024)

/-- The claim that a context may see: the one its region holds on the core (R161). -/
def visibleClaim (s : State) : Option Claim :=
  match s.cur.task, (coreAt s s.core).claim with
  | some t, some c => if c.part = t.part ∧ c.region = t.region then some c else none
  | _, _ => none

/-- `fratio` (R19). -/
def fratioWord (k : Clock) : Nat := k.nstep.toNat * 2 ^ 32 + k.relk * 2 ^ 16 + k.newr * 2 ^ 8 + k.oldr

/-- A CSR as it reads; a number with no CSR reads 0. -/
def csrRead (s : State) (n : Nat) : Word :=
  let c := s.cur
  let d := dieAt s s.die
  let nat (v : Nat) : Word := BitVec.ofNat 64 v
  if 0x5C0 ≤ n ∧ n ≤ 0x5CF then ((coreAt s s.core).counters.toList.getD (n - 0x5C0) { sel := 0, cnt := 0 }).sel
  else if 0x840 ≤ n ∧ n ≤ 0x84F then ((coreAt s s.core).counters.toList.getD (n - 0x840) { sel := 0, cnt := 0 }).cnt
  else if 0x810 ≤ n ∧ n ≤ 0x817 then nat (mshapeWord (c.mshape.toList.getD (n - 0x810) { fmt := 0, rows := 0, cols := 0 }))
  else match n with
  | 0x100 => if c.spp then 0x100 else 0
  | 0x105 => c.stvec
  | 0x140 => c.sscratch
  | 0x141 => c.sepc
  | 0x142 => c.scause
  | 0x143 => c.stval
  | 0x5D0 => c.sfinfo.setWidth 64
  | 0x800 => nat c.vstart
  | 0x801 => c.vcvx.setWidth 64
  | 0x802 => c.vmt.setWidth 64
  | 0x803 => c.vpstep.setWidth 64
  | 0x804 => c.vouter.setWidth 64
  | 0x805 => c.vflags.setWidth 64
  | 0x806 => c.frm.setWidth 64
  | 0x807 => c.fflags.setWidth 64
  | 0x820 => match visibleClaim s with | some k => k.spill | none => 0
  | 0xC00 => d.cycle
  | 0xCC0 => nat c.vl
  | 0xCC1 => c.vtype.setWidth 64
  | 0xCC2 => nat mtlenValue
  | 0xCC3 => match visibleClaim s with | some k => nat (scratchSize s.core - 2 ^ k.log2) | none => 0
  | 0xCC4 => match visibleClaim s with | some k => nat (k.log2 * 2 ^ 33 + (if k.wide then 2 ^ 32 else 0) + k.seed.toNat) | none => 0
  | 0xCC5 => match visibleClaim s with | some k => nat (k.head * 2 ^ 32 + k.count) | none => 0
  | 0xCC6 => nat (pfree s s.core)
  | 0xCC7 => nat c.pres
  | 0xCC8 => d.refk
  | 0xCC9 => d.clock.cstep
  | 0xCCA => d.clock.kstep
  | 0xCCB => nat (fratioWord d.clock)
  | _ => 0

/-- `evsel`n after a write: OVF is cleared by writing 1 (R49). -/
def selWritten (old v : Word) : Word :=
  (v &&& 0x7F00000000000FFF#64) ||| (old &&& (1#64 <<< 63) &&& ~~~v)

/-- `fspill` as a write leaves it: the fields it has (R161). -/
def spillField (v : Word) : Word := v &&& 0x1F00FFFFFFFFFFF0#64

/-- A counter pair of the core changed. -/
def updCounter (i : Nat) (f : Counter → Counter) (s : State) : State :=
  updCore s s.core (fun k => { k with counters := k.counters.mapIdx (fun j x => if j = i then f x else x) })

/-- A write of a CSR, as its field's map states. -/
def csrWrite (n : Nat) (v : Word) (s : State) : State :=
  let set (f : Ctx → Ctx) : State := { s with cur := f s.cur }
  let w := v.toNat
  if 0x5C0 ≤ n ∧ n ≤ 0x5CF then updCounter (n - 0x5C0) (fun x => { x with sel := selWritten x.sel v }) s
  else if 0x840 ≤ n ∧ n ≤ 0x84F then updCounter (n - 0x840) (fun x => { x with cnt := v }) s
  else if 0x810 ≤ n ∧ n ≤ 0x817 then
    let m : Mshape := { fmt := BitVec.ofNat 3 (bits w 26 24), rows := bits w 23 16, cols := bits w 8 0 }
    if mshapeOk m then set (fun c => { c with mshape := c.mshape.mapIdx (fun j x => if j = n - 0x810 then m else x) }) else s
  else match n with
  | 0x100 => set (fun c => { c with spp := bit w 8 })
  | 0x105 => set (fun c => { c with stvec := v &&& ~~~3#64 })
  | 0x140 => set (fun c => { c with sscratch := v })
  | 0x141 => set (fun c => { c with sepc := v &&& ~~~3#64 })
  | 0x142 => set (fun c => { c with scause := v })
  | 0x143 => set (fun c => { c with stval := v })
  | 0x5D0 => set (fun c => { c with sfinfo := v.setWidth 9 })
  | 0x800 => set (fun c => { c with vstart := bits w 15 0 })
  | 0x801 => set (fun c => { c with vcvx := v.setWidth 2 })
  | 0x802 => if bits w 2 0 ≤ 4 then set (fun c => { c with vmt := v.setWidth 3 }) else s
  | 0x803 => set (fun c => { c with vpstep := v.setWidth 32 })
  | 0x804 => set (fun c => { c with vouter := v.setWidth 62 })
  | 0x805 => set (fun c => { c with vflags := v.setWidth 4 })
  | 0x806 => if bits w 2 0 ≤ 4 then set (fun c => { c with frm := v.setWidth 3 }) else s
  | 0x807 => set (fun c => { c with fflags := v.setWidth 5 })
  | 0x820 =>
    match visibleClaim s with
    | some k => if k.count = 0 ∧ bits w 60 56 ≤ 24 then updCore s s.core (fun x => { x with claim := some { k with spill := spillField v } }) else s
    | none => s
  | _ => s

/-- The word of a CSR instruction. -/
def csrWord (c : BitVec 12) (a : BitVec 5) (f3 : BitVec 3) (d : BitVec 5) : Word32 := c ++ a ++ f3 ++ d ++ 115#7

/-- A CSR instruction (R266): the access is checked, the old value goes to rd, the word is counted, and the new value is written where the form writes. -/
def csrAccessWord (c : BitVec 12) (a : BitVec 5) (f3 : BitVec 3) (d : BitVec 5) (writes : Bool) (new : Word → State → Word) (s : State) : Result :=
  scalarWord (fun s =>
    let w := csrWord c a f3 d
    let n := c.toNat
    let user := s.cur.priv == .u
    if csrIsMatrix n && !isDCore s.core then unavailable w 0 s else
    let refused := match csrAccess n with
      | .none => true
      | .supervisor => user
      | .counter => user && writes
      | .readWrite => false
      | .readOnly => writes
    if refused then illegal w 0 s else
    let old := csrRead s n
    let t := next4 (wx d old s)
    if writes then csrWrite n (new old s) t else t) s

/-- `csrrw`. -/
def execCsrrw (c : BitVec 12) (a d : BitVec 5) (s : State) : Result := csrAccessWord c a 1 d true (fun _ s => rx s a) s
/-- `csrrs`. -/
def execCsrrs (c : BitVec 12) (a d : BitVec 5) (s : State) : Result := csrAccessWord c a 2 d (a != 0) (fun old s => old ||| rx s a) s
/-- `csrrc`. -/
def execCsrrc (c : BitVec 12) (a d : BitVec 5) (s : State) : Result := csrAccessWord c a 3 d (a != 0) (fun old s => old &&& ~~~(rx s a)) s
/-- `csrrwi`. -/
def execCsrrwi (c : BitVec 12) (u d : BitVec 5) (s : State) : Result := csrAccessWord c u 5 d true (fun _ _ => u.setWidth 64) s
/-- `csrrsi`. -/
def execCsrrsi (c : BitVec 12) (u d : BitVec 5) (s : State) : Result := csrAccessWord c u 6 d (u != 0) (fun old _ => old ||| u.setWidth 64) s
/-- `csrrci`. -/
def execCsrrci (c : BitVec 12) (u d : BitVec 5) (s : State) : Result := csrAccessWord c u 7 d (u != 0) (fun old _ => old &&& ~~~(u.setWidth 64)) s

end Sys2Proof.Machine
end

