-- ==== Sys2Proof/Machine/Facet.lean ====
section
/-! DEFINITION. The Facet table (R159 to R174, R315 to R318): claims, buckets, search, insertion, deletion, spills, the
keyed words and the drain. -/

namespace Sys2Proof.Machine

/-! ## Layout (R162 to R164) -/

/-- Bytes of a slot, of the header, of a key; slots of a bucket. -/
def slotBytes (c : Claim) : Nat := if c.wide then 16 else 8
def headBytes (c : Claim) : Nat := if c.wide then 16 else 8
def keyBytes (c : Claim) : Nat := if c.wide then 8 else 4
def slotsOf (c : Claim) : Nat := if c.wide then 3 else 7

/-- Buckets of a claim. -/
def buckets (c : Claim) : Nat := 2 ^ (c.log2 - 6)

/-- The first byte of a bucket of the focus's core. -/
def bucketKey (s : State) (c : Claim) (j : Nat) : Nat := scratchKey s.core (scratchSize s.core - 2 ^ c.log2 + 64 * j)

/-- The first byte of a slot. -/
def slotKey (s : State) (c : Claim) (j i : Nat) : Nat := bucketKey s c j + headBytes c + slotBytes c * i

/-- The header of a bucket. -/
def bucketHead (s : State) (c : Claim) (j : Nat) : Nat := natOf (getBytes (bucketKey s c j) 8 s.mem)

/-- OCC, TOMB and OVF of a header. -/
def occBit (h i : Nat) : Bool := bit h i
def tombBit (h i : Nat) : Bool := bit h (7 + i)
def ovfOf (h : Nat) : Nat := bits h 21 14

/-- A header from its fields. -/
def headOf (occ tomb ovf : Nat) : Nat := occ + tomb * 2 ^ 7 + ovf * 2 ^ 14

/-- A number below 2^n with a bit set or cleared. -/
def putBit (v i : Nat) (b : Bool) : Nat := v - (if bit v i then 2 ^ i else 0) + (if b then 2 ^ i else 0)

/-- The home bucket of a key (R164). -/
def homeOf (c : Claim) (key : Nat) : Nat :=
  let k := if c.wide then Nat.xor (key / 2 ^ 32) (key % 2 ^ 32) else key
  let h := Nat.xor k c.seed.toNat * 0x9E3779B1 % 2 ^ 32
  h / 2 ^ (32 - (c.log2 - 6))

/-- The window of a key. -/
def windowOf (c : Claim) (key : Nat) : List Nat := (upTo 4).map (fun i => (homeOf c key + i) % buckets c)

/-- Bytes of the table written: the unit's own writes. -/
def tableWrite (key : Nat) (bs : List Byte) (s : State) : State := writeMem key bs s

/-- A header written. -/
def setHead (c : Claim) (j h : Nat) (s : State) : State := tableWrite (bucketKey s c j) (bytesOf 8 h) s

/-! ## Search, insertion, deletion (R165, R166) -/

/-- The slot of a key in a bucket. -/
def slotWith (s : State) (c : Claim) (j key : Nat) : Option Nat :=
  let h := bucketHead s c j
  (upTo (slotsOf c)).find? (fun i => occBit h i && natOf (getBytes (slotKey s c j i) (keyBytes c) s.mem) == key)

/-- A bucket holds an empty slot. -/
def hasEmpty (s : State) (c : Claim) (j : Nat) : Bool :=
  let h := bucketHead s c j
  (upTo (slotsOf c)).any (fun i => !occBit h i && !tombBit h i)

/-- A search through the buckets of a window. -/
def searchIn (s : State) (c : Claim) (key : Nat) : List Nat → Option (Nat × Nat)
  | [] => none
  | j :: t =>
    match slotWith s c j key with
    | some i => some (j, i)
    | none => if hasEmpty s c j then none else searchIn s c key t

/-- The search of R165. -/
def search (s : State) (c : Claim) (key : Nat) : Option (Nat × Nat) := searchIn s c key (windowOf c key)

/-- The first free slot of a window. -/
def freeIn (s : State) (c : Claim) : List Nat → Option (Nat × Nat)
  | [] => none
  | j :: t =>
    let h := bucketHead s c j
    match (upTo (slotsOf c)).find? (fun i => !occBit h i) with
    | some i => some (j, i)
    | none => freeIn s c t

/-- The value of a slot. -/
def slotValue (s : State) (c : Claim) (j i : Nat) : Nat := natOf (getBytes (slotKey s c j i + keyBytes c) (keyBytes c) s.mem)

/-- The value of a slot written. -/
def setSlotValue (c : Claim) (j i v : Nat) (s : State) : State := tableWrite (slotKey s c j i + keyBytes c) (bytesOf (keyBytes c) v) s

/-- A key and value put into a slot: OCC set, TOMB cleared. -/
def fillSlot (c : Claim) (j i key v : Nat) (s : State) : State :=
  let h := bucketHead s c j
  let s := tableWrite (slotKey s c j i) (bytesOf (keyBytes c) key ++ bytesOf (keyBytes c) v) s
  setHead c j (headOf (putBit (bits h 6 0) i true) (putBit (bits h 13 7) i false) (ovfOf h)) s

/-- A slot becomes a tombstone. -/
def buryslot (c : Claim) (j i : Nat) (s : State) : State :=
  let h := bucketHead s c j
  setHead c j (headOf (putBit (bits h 6 0) i false) (putBit (bits h 13 7) i true) (ovfOf h)) s

/-- BASE of `fspill`, sign-extended from bit 47, and LOG2CAP (R161). -/
def spillBase (c : Claim) : Word := ((c.spill.extractLsb' 4 44) ++ 0#4 : BitVec 48).signExtend 64
def spillCap (c : Claim) : Nat := bits c.spill.toNat 60 56

/-- The address of spilled entry n. -/
def spillAddr (c : Claim) (n : Nat) : Word := spillBase c + BitVec.ofNat 64 (n * slotBytes c)

/-- The claim of the focus's core changed. -/
def updClaim (f : Claim → Claim) (s : State) : State := updCore s s.core (fun k => { k with claim := k.claim.map f })

/-- What a group's table operation comes to. -/
inductive Applied where
  | ok (code value : Nat) (s : State)
  | trap (t : Trap)
  | stall

/-- An entry is spilled (R166): code 3, or Facet spill full, or the fault of its write. -/
def spillEntry (c : Claim) (key v : Nat) (s : State) : Applied :=
  let addr := spillAddr c c.count
  if spillCap c = 0 ∨ c.count = 2 ^ spillCap c then .trap (checkTrap s 51 addr 3 .data) else
  match elemPlace s 3 0 (slotBytes c) .store addr with
  | .error t => .trap t
  | .ok (k, use) =>
    if s.cur.release.isSome then .stall else
    let s := storeChecked true addr.toNat k (bytesOf (keyBytes c) key ++ bytesOf (keyBytes c) v) (useOne use s)
    let j := homeOf c key
    let h := bucketHead s c j
    let s := setHead c j (headOf (bits h 6 0) (bits h 13 7) (min 255 (ovfOf h + 1))) s
    .ok 3 v (countEvent 0x040 1 s.curKey (updClaim (fun c => { c with count := c.count + 1 }) s))

/-- An entry is inserted or spilled. -/
def insertEntry (c : Claim) (key v : Nat) (s : State) : Applied :=
  match freeIn s c (windowOf c key) with
  | some (j, i) => .ok 2 v (fillSlot c j i key v s)
  | none => spillEntry c key v s

/-- The first bucket in error that a search through buckets reads (R165, R197). -/
def errorIn (s : State) (c : Claim) (key : Nat) : List Nat → Option Nat
  | [] => none
  | j :: t =>
    if hasError (bucketKey s c j) 64 s then some j
    else if (slotWith s c j key).isSome || hasEmpty s c j then none else errorIn s c key t

/-- The search of a key meets an uncorrectable error in a bucket that it reads (R197). -/
def windowError (s : State) (c : Claim) (key : Nat) : Option Trap :=
  (errorIn s c key (windowOf c key)).map (fun j => errorOf (errorAddr (bucketKey s c j)) 3 2 .data)

/-- The one table operation of a group (R168 to R170, R317): its key, its combined operand. -/
def applyGroup (op : VOp) (t : BitVec 4) (key operand : Nat) (s : State) : Applied × Flags :=
  match (coreAt s s.core).claim with
  | none => (.ok 0 0 s, Flags.none)
  | some c =>
    match windowError s c key with
    | some t => (.trap t, Flags.none)
    | none =>
      let miss := if ovfOf (bucketHead s c (homeOf c key)) = 0 then 2 else 3
      match op, search s c key with
      | .fins, some (j, i) => (.ok 1 operand (setSlotValue c j i operand s), Flags.none)
      | .fins, none => (insertEntry c key operand s, Flags.none)
      | .facc o, some (j, i) =>
        let old := slotValue s c j i
        let r := match o with
          | .count => Res.plain ((old + operand) % 2 ^ typeBits t)
          | o => combine t s.cur.frm o old operand
        (.ok 1 r.w (setSlotValue c j i r.w s), Flags.none.add r)
      | .facc _, none => (insertEntry c key operand s, Flags.none)
      | .fdel, some (j, i) => (.ok 1 0 (buryslot c j i s), Flags.none)
      | _, some (j, i) => (.ok 1 (slotValue s c j i) s, Flags.none)
      | _, none => (.ok miss 0 s, Flags.none)

/-! ## Groups (R168) -/

/-- Active lanes of one key: the leader, and every lane with its value in ascending order. -/
structure Group where
  key : Nat
  leader : Nat
  lanes : List (Nat × Nat)
  deriving DecidableEq, Repr

/-- A lane taken into its group. -/
def addToGroups (gs : List Group) (l : Lane) : List Group :=
  if !l.active then gs
  else if gs.any (·.key == l.a) then gs.map (fun g => if g.key == l.a then { g with lanes := g.lanes ++ [(l.i, l.b)] } else g)
  else gs ++ [{ key := l.a, leader := l.i, lanes := [(l.i, l.b)] }]

/-- The combined operand of a group. -/
def groupOperand (op : VOp) (t : BitVec 4) (rm : BitVec 3) (g : Group) : Nat × Flags :=
  match op with
  | .fins => ((g.lanes.getLast?.map (·.2)).getD 0, Flags.none)
  | .facc .count => (g.lanes.length % 2 ^ typeBits t, Flags.none)
  | .facc o =>
    let r := treeOf (combine t rm o) 16 (g.lanes.map (fun x => some x.2))
    (r.1.getD 0, r.2)
  | _ => (0, Flags.none)

/-- Groups applied in order: the state, each applied lane's code and value, and the leader and trap that stopped them. -/
structure GroupRun where
  s : State
  out : List (Nat × (Nat × Nat))
  stop : Option (Nat × Trap)
  stall : Bool

/-- The groups applied one after another (R168, R173). -/
def runGroups (op : VOp) (t : BitVec 4) : List Group → State → GroupRun
  | [], s => { s := s, out := [], stop := none, stall := false }
  | g :: gs, s =>
    let o := groupOperand op t s.cur.frm g
    match applyGroup op t g.key o.1 s with
    | (.trap tr, _) => { s := s, out := [], stop := some (g.leader, tr), stall := false }
    | (.stall, _) => { s := s, out := [], stop := none, stall := true }
    | (.ok code v s, f) =>
      let s := raiseAll (o.2.or f) s
      let maybe := match op with | .fprobe | .fdel => code == 3 | _ => false
      let s := if maybe then countEvent 0x041 g.lanes.length s.curKey s else s
      let r := runGroups op t gs s
      { r with out := g.lanes.map (fun l => (l.1, (code, v))) ++ r.out }

/-- A predicate with its first n bits from a list and zeros from n on. -/
def predOf (l : List Bool) : BitVec 4096 := BitVec.ofNat 4096 (l.foldr (fun b n => (if b then 1 else 0) + 2 * n) 0)

/-- Predicate p of a context written, and made valid. -/
def setPred (p : Nat) (v : BitVec 4096) (c : Ctx) : Ctx :=
  { c with p := c.p.mapIdx (fun i x => if i = p then v else x), pValid := c.pValid ||| (1#8 <<< p) }

/-- Predicate p of a context. -/
def predAt (c : Ctx) (p : Nat) : BitVec 4096 := c.p.toList.getD p 0

/-- The even predicate that a keyed word names. -/
def statusPred (m : Member) : Nat :=
  match m.op with
  | .fprobe => 2 * (m.word.extractLsb' 12 2).toNat
  | .facc _ => m.b
  | _ => m.d

/-- The keyed words (R167 to R170, R173, R317). `start` is the leader from which groups are still to be applied; a restart whose mask `p0` holds statuses
of the first run keeps those of the lanes that they switch off (log 42: DEDUCED, unsafe). -/
def runKeyed (m : Member) (start : Nat) (s : State) : Cross :=
  let t := s.cur.vtype
  let n := s.cur.vl
  let k := coreAt s s.core
  let mask (i : Nat) : Bool := !m.masked || (predAt s.cur 0).getLsbD i
  let keys := readElems t (chainBytes k (vreg s.cur m.a))
  let olds := elemsOf t (chainBytes k (vreg s.cur m.d))
  let reads : Option (List Nat) := match m.op with
    | .fins => some (readElems t (chainBytes k (vreg s.cur m.b)))
    | .facc .count => none
    | .facc _ => some (readElems t (chainBytes k (vreg s.cur m.d)))
    | _ => none
  let writes := match m.op with | .fprobe | .facc _ => true | _ => false
  let total := bytesOfElems t n
  let sources := m.a :: (match m.op with | .fins => [m.b] | .facc .count => [] | .facc _ => [m.d] | _ => [])
  let bad := if sources.all (fun r => (regOf k (vreg s.cur r)).bad.isEmpty) then none else
    ((upTo n).filter mask).findSome? (fun i => sources.findSome? (fun r => badElem (regOf k (vreg s.cur r)) (typeBits t) i))
  match bad with
  | some a => .trap start (errorOf a 3 2 .data) s
  | none =>
    if writes && (writeResult s.curKey m.d t total 0 (List.replicate total 0) s).isNone then .trap start (poolTrap s 3) s else
    let lanes := lanesFrom mask n 0 keys (reads.getD []) [] olds
    let any := lanes.any (·.active)
    let fewer (r : Nat) : Bool := decide (elemsOfBytes t (chainLen (vreg s.cur r)) < n)
    let short := any && (fewer m.a || (match m.op with | .fins => fewer m.b | .facc .count => false | .facc _ => fewer m.d | _ => false))
    let groups := (lanes.foldl addToGroups []).filter (fun g => start ≤ g.leader)
    let r := runGroups m.op t groups s
    if r.stall || (match r.stop with | some x => x.2.code == heldCode | none => false) then .stall else
    let s := if short then raiseAll { f := 0, v := vShort } r.s else r.s
    let pd := statusPred m
    let lo := predAt s.cur pd
    let hi := predAt s.cur (pd + 1)
    let of' (l : Lane) : Option (Nat × Nat) := (r.out.find? (fun x => x.1 == l.i)).map (·.2)
    let code (l : Lane) : Bool × Bool :=
      if !l.active then (false, m.masked && pd == 0 && decide (0 < start) && hi.getLsbD l.i) else match of' l with
        | some (c, _) => (c % 2 == 1, c / 2 % 2 == 1)
        | none => (lo.getLsbD l.i, hi.getLsbD l.i)
    let s := { s with cur := setPred (pd + 1) (predOf (lanes.map (fun l => (code l).2))) (setPred pd (predOf (lanes.map (fun l => (code l).1))) s.cur) }
    let value (l : Lane) : Nat := match of' l with | some (_, v) => v | none => l.old
    let s := if writes then (writeResult s.curKey m.d t total 0 (bytesOfList t 0 (lanes.map value)) s).getD s else s
    match r.stop with
    | some (e, tr) => .trap e tr s
    | none =>
      match m.op with
      | .fprobe => .done (wx (BitVec.ofNat 5 m.b) (BitVec.ofNat 64 (lanes.countP (fun l => code l == (true, false)))) s)
      | _ => .done s

/-! ## Claim and release (R159, R160, R316) -/

/-- The code `fclaim` reports (log 55: DESIGN CHOICE, unsafe). -/
def claimCode (s : State) (l cfg : Nat) : Nat :=
  let w := who s
  let top := if isDCore s.core then 20 else 21
  let units := ceilDiv (2 ^ l) 65536
  let refused := match s.cur.task with
    | some t => (ancestry s t.part t.region).any (fun i => match regionAt s t.part i with | some r => decide (r.eff.facet < r.facetUse + units) | none => false)
    | none => false
  if l < 16 ∨ top < l ∨ cfg / 2 ^ 33 ≠ 0 then 4 else
  match (coreAt s s.core).claim with
  | some c => if c.part = w.part ∧ c.region = w.region then 1 else 2
  | none =>
    if refused then 3
    else if (coreAt s s.core).scored.any (fun e => decide (scratchSize s.core - 2 ^ l < e.base + e.len)) then 5
    else 0

/-- `fclaim`. -/
def runClaim (m : Member) (s : State) : State :=
  let l := m.xa.toNat
  let cfg := m.xb.toNat
  let code := claimCode s l cfg
  let s := if code ≠ 0 then s else
    let w := who s
    let key := scratchKey s.core (scratchSize s.core - 2 ^ l)
    let s := clearErrors key (2 ^ l) (breakReservations none key (2 ^ l) <| scrubStale none key (2 ^ l) { s with mem := clearBytes key (2 ^ l) s.mem })
    let s := chargeLine w.part w.region (fun r => { r with facetUse := r.facetUse + ceilDiv (2 ^ l) 65536 }) s
    let c : Claim := { part := w.part, region := w.region, log2 := l, wide := bit cfg 32, seed := BitVec.ofNat 32 cfg, spill := 0, head := 0, count := 0 }
    updCore s s.core (fun k => { k with claim := some c })
  wx (BitVec.ofNat 5 m.d) (BitVec.ofNat 64 code) s

/-- `frel` (log 55: DESIGN CHOICE, unsafe). -/
def runRelease (s : State) : State := match visibleClaim s with | some _ => releaseClaim s.core s | none => s

/-! ## The drain (R172, R173, R318) -/

/-- Entries taken from a table: their state, keys and values in order, and what stopped it. -/
structure Drained where
  s : State
  out : List (Nat × Nat)
  stop : Option Trap

/-- Occupied slots in ascending bucket and slot order. -/
def occupied (s : State) (c : Claim) (j : Nat) : List (Nat × Nat) :=
  ((upTo (slotsOf c)).filter (occBit (bucketHead s c j))).map (fun i => (j, i))

/-- Slots drained into tombstones, at most `room`. -/
def drainSlots (c : Claim) : List (Nat × Nat) → Nat → State → Drained
  | [], _, s => { s := s, out := [], stop := none }
  | _, 0, s => { s := s, out := [], stop := none }
  | (j, i) :: t, room + 1, s =>
    if hasError (bucketKey s c j) 64 s then { s := s, out := [], stop := some (errorOf (errorAddr (bucketKey s c j)) 3 2 .data) } else
    let e := (natOf (getBytes (slotKey s c j i) (keyBytes c) s.mem), slotValue s c j i)
    let r := drainSlots c t room (buryslot c j i s)
    { r with out := e :: r.out }

/-- Spilled entries read from HEAD on, at most `room`: in the serial order of the unit's own spill writes, so as memory holds them (R171) (log 7: DESIGN CHOICE, unsafe). -/
def drainSpilled (c : Claim) : Nat → Nat → State → Drained
  | 0, _, s => { s := s, out := [], stop := none }
  | room + 1, head, s =>
    if c.count ≤ head then { s := s, out := [], stop := none } else
    match readPlace s 3 0 (slotBytes c) (spillAddr c head) with
    | .error t => { s := s, out := [], stop := some t }
    | .ok (k, use) =>
      let b := getBytes k (slotBytes c) s.mem
      let r := drainSpilled c room (head + 1) (useOne use s)
      { r with out := (natOf (b.take (keyBytes c)), natOf ((b.drop (keyBytes c)).take (keyBytes c))) :: r.out }

/-- HEAD and COUNT after a drain, and the headers cleared when the table is empty. -/
def settleTable (c : Claim) (spilled : Nat) (s : State) : State :=
  let head := c.head + spilled
  let gone := decide (c.count ≤ head)
  let s := updClaim (fun c => if gone then { c with head := 0, count := 0 } else { c with head := head }) s
  if gone && (upTo (buckets c)).all (fun j => bits (bucketHead s c j) 6 0 == 0) then
    (upTo (buckets c)).foldl (fun s j => if bucketHead s c j = 0 then s else setHead c j 0 s) s
  else s

/-- `fdrain`; the first `start` entries an earlier run wrote (log 55: DESIGN CHOICE, unsafe). -/
def runDrain (m : Member) (start : Nat) (s : State) : Cross :=
  match (coreAt s s.core).claim with
  | none => .done s
  | some c =>
    let ks := keyBytes c
    let t : BitVec 4 := if typeBits s.cur.vtype = 8 * ks then s.cur.vtype else if c.wide then 8 else 6
    let total := s.cur.vl * ks
    let k := coreAt s s.core
    let had (r : Nat) : List Byte := ((chainBytes k (vreg s.cur r)) ++ List.replicate (start * ks) 0).take (start * ks)
    let put (r : Nat) (bs : List Byte) (n : Nat) (s : State) : Option State := writeResult s.curKey r t n 0 bs s
    let trial := match put m.d (List.replicate total 0) total s with
      | some s => put m.b (List.replicate total 0) total s
      | none => none
    if trial.isNone then .trap start (poolTrap s 3) s else
    let slots := (upTo (buckets c)).flatMap (occupied s c)
    let room := s.cur.vl - start
    let a := drainSlots c slots room s
    let b : Drained := match a.stop with
      | some _ => { s := a.s, out := [], stop := a.stop }
      | none => drainSpilled c (room - a.out.length) c.head a.s
    let s := settleTable c b.out.length b.s
    let out := a.out ++ b.out
    let n := (start + out.length) * ks
    let s := (put m.d (had m.d ++ out.flatMap (fun e => bytesOf ks e.1)) n s).getD s
    let s := (put m.b (had m.b ++ out.flatMap (fun e => bytesOf ks e.2)) n s).getD s
    match b.stop with
    | some tr => if tr.code = heldCode then .stall else .trap (start + out.length) tr s
    | none => .done s

end Sys2Proof.Machine
end

