-- ==== Sys2Proof/Machine/Convoy.lean ====
section
/-! DEFINITION. Convoys (R96 to R103): the checks of a word at decode, the run of elementwise members over their elements
with the one fault that stops them (R103, R129, R196), the cross-element last member, and retirement. -/

namespace Sys2Proof.Machine

/-! ## What a word reads and writes -/

/-- A cross-element word (R101). -/
def crossElement (op : VOp) : Bool :=
  match op with
  | .arith _ .vs | .fused _ .vs | .mvToX | .red _ | .argmax | .compress | .expand | .vpcnt | .confl | .slideUp | .slideDn | .perm | .iota
  | .scan _ | .topk | .inter | .sortk | .spill | .fill | .prep | .trimh | .trimt | .split | .join | .share | .retype _ | .len | .free | .norm
  | .fclaim | .frel | .fins | .fprobe | .fdel | .facc _ | .fdrain | .ld .indexed _ | .st .indexed => true
  | _ => false

/-- The x registers a word reads (R274, R301), by its fields s1 and s2. -/
def xReads (m : Member) : List Nat :=
  match m.op with
  | .arith _ .vx | .arith _ .ray | .fused _ .vx | .fused _ .ray | .mvX | .slideUp | .slideDn | .iota => [m.a]
  | .topk | .trimh | .trimt | .split => [m.b]
  | .ld .strided _ | .st .strided | .stn | .fclaim => [m.a, m.b]
  | .ld _ _ | .st _ | .rs _ _ | .spill | .fill => [m.a]
  | _ => []

/-- The x register a word writes. -/
def xWrites (m : Member) : List Nat :=
  match m.op with
  | .mvToX | .pcnt | .pfirst | .len | .fclaim => [m.d]
  | .fprobe => [m.b]
  | _ => []

/-- A word of form 111. -/
def isRayForm (op : VOp) : Bool := match op with | .arith _ .ray | .fused _ .ray => true | _ => false

/-- The registers a word reads, v as 0 to 31 and p as 32 to 39 (R134) (log 47: DESIGN CHOICE, unsafe). -/
def regReads (t : BitVec 4) (m : Member) : List Nat :=
  let of' : List Nat := match m.op with
    | .arith _ .vv | .arith _ .vs => [m.a, m.b]
    | .arith _ _ => [m.b]
    | .fused _ .vv | .fused _ .vs => [m.a, m.b, m.d]
    | .fused _ _ => [m.b, m.d]
    | .cmp .sn _ _ => [m.a]
    | .cmp _ _ _ => [m.a, m.b]
    | .sel => [m.a, m.b, 32]
    | .mvX | .mvI | .iota => []
    | .mvToX | .mvV | .unary _ | .confl | .topk | .sortk => [m.a]
    | .cvt _ _ => if t = 14 then [m.a, m.a + 1] else [m.a]
    | .red _ => if m.a = 0 then [m.b] else [m.a, m.b]
    | .argmax | .slideUp | .slideDn => [m.b]
    | .compress | .expand | .scan _ => [m.b, 32]
    | .vpcnt => [32 + m.a]
    | .perm | .inter => [m.a, m.b]
    | .pred .not | .pred .mov | .pcnt | .pfirst => [32 + m.a]
    | .pred _ => [32 + m.a, 32 + m.b]
    | .ld .indexed _ => [m.b]
    | .ld _ _ => []
    | .st .indexed => [m.b, m.d]
    | .st _ | .stn | .spill => [m.d]
    | .rs _ true => [m.b, m.d]
    | .rs _ false => [m.d]
    | .fill | .free | .fclaim | .frel | .fdrain => []
    | .prep | .join => [m.a, m.b]
    | .trimh | .trimt | .split | .share | .retype _ | .len | .norm | .fprobe | .fdel => [m.a]
    | .fins => [m.a, m.b]
    | .facc .count => [m.a]
    | .facc _ => [m.a, m.d]
  if m.masked then of' ++ [32] else of'

/-- The registers an elementwise word writes, in the same numbering. -/
def regWrites (m : Member) : List Nat :=
  match m.op with
  | .cmp _ _ _ | .pred _ => [32 + m.d]
  | .cvt 14 _ => [m.d, m.d + 1]
  | .pcnt | .pfirst | .st _ | .stn | .rs _ _ => []
  | _ => [m.d]

/-! ## Checks at decode -/

/-- I or Fw. -/
def isNum (t : BitVec 4) : Bool := isInt t || isWide t

/-- The captured type is one that the operation accepts (R235, R237, R239, R240). -/
def acceptsType (op : VOp) (t : BitVec 4) : Bool :=
  match op with
  | .arith o f =>
    (match o with
     | .add | .sub | .rsub | .mul | .div | .min | .max => if f = .vi then isInt t else isNum t
     | _ => isInt t)
  | .fused _ _ => isWide t
  | .cmp o _ _ => (match o with | .eq | .lt | .le => isNum t | _ => isWide t)
  | .cvt target sat =>
    target != t && (!sat || decide (typeBits target < typeBits t) || (isFloat t && isInt target)) && (isInt t || isFloat t)
  | .unary o => (match o with | .neg | .abs => isNum t | .clz | .popc | .brev => isInt t | _ => isWide t)
  | .red o => (match o with | .sum | .min | .max => isNum t | .osum => isWide t | _ => isInt t)
  | .argmax => isNum t
  | .vpcnt | .iota => isInt t
  | .scan o => (match o with | .or => isInt t | _ => isNum t)
  | .ld k _ | .st k => if k = .unit then true else t != 14
  | .rs o _ => (match o with | .or => isInt t | _ => isNum t)
  | _ => true

/-- An e2m1 source or target stands in an even register (R215, R239). -/
def pairOk (m : Member) (t : BitVec 4) : Bool :=
  match m.op with
  | .cvt target _ => !(t == 14 && m.a % 2 == 1) && !(target == 14 && m.d % 2 == 1)
  | _ => true

/-- Words that read or write predicate bits element by element (R276). -/
def isPredicateWord (m : Member) : Bool :=
  m.masked || (match m.op with
    | .sel | .compress | .expand | .vpcnt | .scan _ | .cmp _ _ _ | .pred _ | .pcnt | .pfirst => true
    | _ => false)

/-- Facet words that need a claim (R160) (log 55: DESIGN CHOICE, unsafe). -/
def needsClaim (op : VOp) : Bool := match op with | .fins | .fprobe | .fdel | .facc _ | .fdrain => true | _ => false

/-- Facet words that take keys (R167). -/
def takesKeys (op : VOp) : Bool := match op with | .fins | .fprobe | .fdel | .facc _ => true | _ => false

/-- Words of the Apex unit (R96). -/
def isApex (op : VOp) : Bool := match op with | .topk | .inter | .sortk => true | _ => false

/-- The ray whose receive end a handle names, open for messages of a chain, with its die (R299). -/
def rayOfRecv (s : State) (thread handle : Nat) : Option (Nat × Ray) :=
  (upTo 8).findSome? (fun d => ((dieAt s d).rays.find? (fun r => match r.recv with
    | some e => e.thread == thread && e.handle == handle && e.mode == 0
    | none => false)).map (fun r => (d, r)))

/-- A register counts as valid for a word (R134): it is, or an earlier member of a convoy with elements writes it. -/
def countsValid (s : State) (r : Nat) : Bool :=
  (if r < 32 then (vreg s.cur r).valid else s.cur.pValid.getLsbD (r - 32)) ||
    (decide (0 < s.cur.vl) && s.cur.convoy.any (fun m => (regWrites m).contains r))

/-- The trap that a word takes at decode, if any (R195) (log 39: DEDUCED, unsafe). -/
def decodeTrap (m : Member) (s : State) : Option Trap :=
  let t := s.cur.vtype
  let unit := unitOf m.word
  let bad : Trap := checkTrap s 2 (m.word.setWidth 64) unit .decode
  let away : Trap := checkTrap s 25 (m.word.setWidth 64) unit .decode
  let dependent := (xReads m).any (fun x => x != 0 && s.cur.convoy.any (fun e => (xWrites e).contains x))
  if isApex m.op && isDCore s.core then some away
  else if t = 0 ∨ !acceptsType m.op t ∨ !pairOk m t ∨ (isPredicateWord m ∧ 4096 < s.cur.vl) ∨ dependent then some bad
  else if needsClaim m.op && (visibleClaim s).isNone then some away
  else if takesKeys m.op && (match visibleClaim s with | some c => typeBits t != 8 * keyBytes c | none => false) then some bad
  else
    match (if s.cur.validMode then (regReads t m).find? (fun r => !countsValid s r) else none) with
    | some r => some (checkTrap s 24 (BitVec.ofNat 64 r) unit .decode)
    | none =>
      if isRayForm m.op && (rayOfRecv s (threadOf s.cur) m.xa.toNat).isNone then some (checkTrap s 50 m.xa unit .decode) else none

/-! ## The run of elementwise members -/

/-- The elements of a run: from `start` to below `bound`, of a convoy of `n`. -/
structure Span where
  start : Nat
  bound : Nat
  n : Nat
  deriving DecidableEq, Repr

/-- A chain result as far as it has come: the bytes before the run's end, of `total`; `lo` of them an earlier run wrote. Element of
byte x is x × num / den. -/
structure Out where
  k : Nat
  first : Bool
  r : Nat
  type : BitVec 4
  total : Nat
  lo : Nat
  bs : List Byte
  num : Nat
  den : Nat

/-- A run in progress: memory, predicates and flags stand in the state; chains and x registers are still to be written. `passes` counts the element
groups that took an extra pass (R109), `skews` the segments read of sources that are not aligned (R110). -/
structure Work where
  s : State
  regs : List (Nat × Reg)
  outs : List Out
  xs : List (BitVec 5 × Word)
  hits : List Hit
  stall : Bool
  passes : Nat
  skews : Nat

/-- A run that has yet to begin. -/
def Work.of (s : State) : Work := { s := s, regs := [], outs := [], xs := [], hits := [], stall := false, passes := 0, skews := 0 }

/-- A register as the earlier members leave it. -/
def Work.reg (w : Work) (r : Nat) : Reg :=
  match lookupKey r w.regs with | some x => x | none => regOf (coreAt w.s w.s.core) (vreg w.s.cur r)

/-- The message that a ray word reads; a wait that has run out reads an empty one. -/
def messageReg (s : State) (handle : Nat) : Reg :=
  if s.cur.expiredRay.contains handle then { bytes := [], bad := [] } else
  match rayOfRecv s (threadOf s.cur) handle with
  | some (_, r) => match r.queue with | m :: _ => regOf (coreAt s s.core) { valid := true, type := m.type, pieces := m.pieces } | [] => { bytes := [], bad := [] }
  | none => { bytes := [], bad := [] }

/-- Its bytes. -/
def messageBytes (s : State) (handle : Nat) : List Byte := (messageReg s handle).bytes

/-- A source that an element consumes: element i takes `width` bits, number i / per of the bytes. -/
structure Source' where
  reg : Reg
  width : Nat
  per : Nat

/-- Operands a, b and c of an elementwise word, each from element 0, the elements that each chain among them has, the sources that an element consumes,
and for a word with an index chain that source alone. -/
structure Operands where
  as : List Nat
  bs : List Nat
  cs : List Nat
  lens : List Nat
  from' : List Source'
  index : List Source'

/-- The operands of a word (R236, R277). -/
def operandsOf (w : Work) (m : Member) (n : Nat) : Operands :=
  let t := w.s.cur.vtype
  let chain (r : Nat) (t : BitVec 4) : List Nat := readElems t (w.reg r).bytes
  let count (r : Nat) (t : BitVec 4) : Nat := elemsOfBytes t (w.reg r).bytes.length
  let src (r : Nat) : Source' := { reg := w.reg r, width := typeBits t, per := 1 }
  let index : Source' := { reg := w.reg m.b, width := 32, per := 1 }
  let scalar : List Nat := List.replicate n (m.xa.toNat % 2 ^ typeBits t)
  let c : List Nat := match m.op with | .fused _ _ => chain m.d t | _ => []
  let withC (o : Operands) : Operands := match m.op with
    | .fused _ _ => { o with cs := c, lens := o.lens ++ [count m.d t], from' := o.from' ++ [src m.d] }
    | _ => o
  match m.op with
  | .arith _ f | .fused _ f =>
    (match f with
     | .vv => withC { as := chain m.a t, bs := chain m.b t, cs := [], lens := [count m.a t, count m.b t], from' := [src m.a, src m.b], index := [] }
     | .vx => withC { as := chain m.b t, bs := scalar, cs := [], lens := [count m.b t], from' := [src m.b], index := [] }
     | .ray =>
       let msg := messageReg w.s m.xa.toNat
       withC { as := elemsOf t msg.bytes, bs := chain m.b t, cs := [], lens := [count m.b t], from' := [{ reg := msg, width := typeBits t, per := 1 }, src m.b], index := [] }
     | _ => withC { as := chain m.b t, bs := [], cs := [], lens := [count m.b t], from' := [src m.b], index := [] })
  | .cmp .sn _ _ => { as := chain m.a t, bs := [], cs := [], lens := [count m.a t], from' := [src m.a], index := [] }
  | .cmp _ _ _ | .sel => { as := chain m.a t, bs := chain m.b t, cs := [], lens := [count m.a t, count m.b t], from' := [src m.a, src m.b], index := [] }
  | .mvX => { as := [], bs := scalar, cs := [], lens := [], from' := [], index := [] }
  | .cvt _ _ =>
    { as := chain m.a t, bs := [], cs := [], lens := [count m.a t],
      from' := src m.a :: (if t = 14 then [{ reg := w.reg (m.a + 1), width := 16, per := 32 }] else []), index := [] }
  | .mvV | .unary _ => { as := chain m.a t, bs := [], cs := [], lens := [count m.a t], from' := [src m.a], index := [] }
  | .ld .indexed _ => { as := [], bs := chain m.b 6, cs := [], lens := [count m.b 6], from' := [index], index := [index] }
  | .st .indexed | .rs _ true =>
    { as := chain m.d t, bs := chain m.b 6, cs := [], lens := [count m.d t, count m.b 6], from' := [src m.d, index], index := [index] }
  | .st _ | .stn | .rs _ false => { as := chain m.d t, bs := [], cs := [], lens := [count m.d t], from' := [src m.d], index := [] }
  | _ => { as := [], bs := [], cs := [], lens := [], from' := [], index := [] }

/-- The first active lane that reads an element in error. -/
def badLane (from' : List Source') (lanes : List Lane) : Option (Nat × Word) :=
  if from'.all (fun x => x.reg.bad.isEmpty) then none else
  lanes.findSome? (fun l => if l.active then (from'.findSome? (fun x => badElem x.reg x.width (l.i / x.per))).map (fun a => (l.i, a)) else none)

/-! ## What the two events of the lanes count (R109, R110) -/

/-- A word that computes on numbers: an element group with a subnormal among its inputs or results takes an extra pass (log 62: DEDUCED, unsafe). -/
def computes (op : VOp) : Bool :=
  match op with
  | .arith _ _ | .fused _ _ | .cmp _ _ _ | .cvt _ _ | .unary _ | .red _ | .argmax | .scan _ => true
  | _ => false

/-- A subnormal of a type. -/
def isSubnormal (t : BitVec 4) (w : Nat) : Bool := isFloat t && magnitude t w != 0 && decide (magnitude t w < 2 ^ manBits t)

/-- Elements of an element group: 512 bits. -/
def perGroup (t : BitVec 4) : Nat := 512 / typeBits t

/-- The groups of active lanes with a subnormal input, of the captured type, or result. -/
def extraPasses (t rt : BitVec 4) (op : VOp) (cLanes : Bool) (lanes : List Lane) (results : List Nat) : Nat :=
  if !computes op || !(isFloat t || isFloat rt) then 0 else
  let hit (x : Lane × Nat) : Bool := x.1.active && (isSubnormal t x.1.a || isSubnormal t x.1.b || (cLanes && isSubnormal t x.1.c) || isSubnormal rt x.2)
  (((lanes.zip (results ++ List.replicate (lanes.length - results.length) 0)).filter hit).map (fun x => x.1.i / perGroup t)).eraseDups.length

/-- The segments that a member reads of a source that is not aligned, between two of its bytes. -/
def skewOf (lo hi : Nat) (c : Chain) : Nat :=
  let at' := (c.pieces.foldl (fun (x : Nat × List (Nat × Piece)) p => (x.1 + p.count, x.2 ++ [(x.1, p)])) (0, [])).2
  if at'.all (fun x => x.2.first == x.1 % 256) then 0
  else ((at'.filter (fun x => decide (x.1 < hi) && decide (lo < x.1 + x.2.count))).map (·.2.seg)).eraseDups.length

/-- The sources of a word whose elements from `lo` to below `hi` it reads, with their element types. -/
def readsOf (t : BitVec 4) (m : Member) : List (Nat × BitVec 4) :=
  match m.op with
  | .ld .indexed _ => [(m.b, 6)]
  | .st .indexed | .rs _ true => [(m.d, t), (m.b, 6)]
  | .perm => [(m.a, 6), (m.b, t)]
  | .cvt _ _ => [(m.a, t)]
  | .fins | .fprobe | .fdel => (regReads t { m with masked := false }).filterMap (fun r => if r < 32 then some (r, t) else none)
  | .prep | .trimh | .trimt | .split | .join | .share | .retype _ | .free | .norm | .len | .spill => []
  | _ => (regReads t { m with masked := false }).filterMap (fun r => if r < 32 then some (r, t) else none)

/-- The cycles that event 0x015 counts for a member's reads of elements from `lo` to below `hi`; a result of the same convoy is aligned. -/
def skewsOf (w : Work) (m : Member) (lo hi : Nat) : Nat :=
  (readsOf w.s.cur.vtype m).foldl (fun n r =>
    if (lookupKey r.1 w.regs).isSome then n
    else n + skewOf (bytesOfElems r.2 lo) (bytesOfElems r.2 hi) (vreg w.s.cur r.1)) 0

/-- A chain result laid over a register's old bytes; `len` elements when whole. -/
def putElems (sp : Span) (k : Nat) (first : Bool) (r : Nat) (rt : BitVec 4) (len : Nat) (es : List Nat) (w : Work) : Work :=
  let old := (w.reg r).bytes
  let olds := elemsOf rt old
  let whole := (padTo sp.start olds).take (min sp.start len) ++ es
  let cut := decide (whole.length < len)
  if cut && es.isEmpty then w else
  let bs := bytesOfList rt (if cut then olds.getD whole.length 0 else padNibble w.s) whole
  let out : Out := { k := k, first := first, r := r, type := rt, total := bytesOfElems rt len, lo := bytesOfElems rt (min sp.start len), bs := bs, num := 8, den := typeBits rt }
  { w with regs := insertKey r { bytes := if cut then bs ++ old.drop bs.length else bs, bad := [] } w.regs, outs := w.outs ++ [out] }

/-- The records of a conversion to e2m1, for the blocks from the start's on (R215). -/
def putRecords (sp : Span) (k : Nat) (r : Nat) (recs : List Byte) (w : Work) : Work :=
  let old := (w.reg r).bytes
  let lo := sp.start / 32 * 2
  let bs := ((old ++ List.replicate (lo - old.length) 0).take lo) ++ recs
  let total := ceilDiv sp.n 32 * 2
  let out : Out := { k := k, first := false, r := r, type := 2, total := total, lo := lo, bs := bs, num := 16, den := 1 }
  { w with regs := insertKey r { bytes := if bs.length < total then bs ++ old.drop bs.length else bs, bad := [] } w.regs, outs := w.outs ++ [out] }

/-- A fault found. -/
def Work.fault (w : Work) (k e : Nat) (t : Trap) (first : Bool) : Work := { w with hits := w.hits ++ [{ e := e, k := k, trap := t, first := first }] }

/-- The flags of a run, with SHORT where a source was too short (R126, R208, R275). -/
def Work.flags (w : Work) (f : Flags) (short : Bool) : Work :=
  { w with s := raiseAll (if short then { f with v := f.v ||| vShort } else f) w.s }

/-- Bits of a predicate from lanes: the bits before and after the run stay; past the convoy's length, once it is whole, they are 0. -/
def putBits (sp : Span) (p : Nat) (bitsOf : List Bool) (w : Work) : Work :=
  let old := predAt w.s.cur p
  let lo := (upTo sp.start).map (fun i => old.getLsbD i)
  let all := predOf (lo ++ bitsOf)
  let v := if sp.bound < sp.n then all ||| (old &&& ~~~(BitVec.ofNat 4096 (2 ^ sp.bound - 1))) else all
  if sp.bound ≤ sp.start then w else { w with s := { w.s with cur := setPred p v w.s.cur } }

/-- The reserved byte of a record that an e2m1 element uses: its offset (R220). -/
def badRecord (recs : List Byte) (i : Nat) : Option Nat :=
  let b := i / 32
  let scale := (recs.getD (2 * b) 0).toNat
  let special := (recs.getD (2 * b + 1) 0).toNat
  if scale = 0xFF then some (2 * b) else if special % 128 = 0x7F then some (2 * b + 1) else none

/-- The compare of a lane (R282). -/
def compareLane (t : BitVec 4) (o : CmpOp) (variant neg : Bool) (l : Lane) : Bool × BitVec 5 :=
  let r := compare t o variant l.a l.b
  (r.1 != neg, r.2)

/-- The faults of a memory word, each at its element: of its addresses, and of a source's error, which comes after them at one element (R196). -/
def Work.memFaults (k start : Nat) (first : Bool) (access bad : Option (Nat × Trap)) (w : Work) : Work :=
  let mark (f : Trap) (e : Nat) (w : Work) : Work :=
    w.fault k e (if first && e = start && f.code != heldCode then firstFault f else f) (first && decide (start < e) && f.code != heldCode)
  let w := match access with | some (e, f) => mark f e w | none => w
  match bad with | some (e, f) => mark f e w | none => w

/-- One elementwise member over the elements of a run (log 42: DEDUCED, unsafe). -/
def memberStep (sp : Span) (w : Work) (km : Member × Nat) : Work :=
  let m := km.1
  let k := km.2
  let w := { w with s := settleFresh w.s }
  let s := w.s
  let t := s.cur.vtype
  let rm := s.cur.frm
  let vmt := s.cur.vmt.toNat
  let p0 := predAt s.cur 0
  let mask (i : Nat) : Bool := !m.masked || p0.getLsbD i
  let o := operandsOf w m sp.n
  let len := if isRayForm m.op then min sp.n (elemsOf t (messageBytes s m.xa.toNat)).length else sp.n
  let cnt := min sp.bound len - sp.start
  let rt := resultType t m.op
  let olds := elemsOf rt (w.reg m.d).bytes
  let at' (i : Nat) (l : List Nat) : List Nat := l.drop i
  let lanesAt (i cnt : Nat) (olds : List Nat) : List Lane := lanesFrom mask cnt i (at' i o.as) (at' i o.bs) (at' i o.cs) (at' i olds)
  let lanes := lanesAt sp.start cnt olds
  let any := (upTo (min sp.bound len)).any mask
  let some' := match m.op with | .ld _ _ | .st _ | .stn | .rs _ _ => decide (sp.start < sp.bound) | _ => any
  let short := (some' && o.lens.any (fun n => decide (n < sp.bound))) || (decide (sp.start < sp.bound) && isRayForm m.op && decide (len < sp.n))
  let strideless := match m.op with | .st .strided => m.xb == 0 | _ => false
  if strideless then w.fault k 0 (checkTrap s 48 0 1 .data) false else
  match (if (regWrites m).any (fun r => decide (r < 32) && badEntryIn (coreAt s s.core) (vreg s.cur r)) then
      ((regWrites m).flatMap (fun r => if r < 32 then (regOf (coreAt s s.core) (vreg s.cur r)).bad else [])).head? else none) with
  | some b => w.fault k sp.start (errorOf b.2.2 1 vmt .data) false
  | none =>
  let w := { w with skews := w.skews + (if lanes.any (·.active) then skewsOf w m sp.start (min sp.bound len) else 0) }
  let bad := (badLane o.from' lanes).map (fun x => (x.1, errorOf x.2 1 vmt .data))
  let reach := match badLane o.index lanes with | some (e, _) => lanes.filter (fun l => decide (l.i < e)) | none => lanes
  let value (rt : BitVec 4) (r : List Nat × Flags) (w : Work) : Work :=
    (putElems sp k false m.d rt len r.1 { w with passes := w.passes + extraPasses t rt m.op (!o.cs.isEmpty) lanes r.1 }).flags r.2 short
  let compute (w : Work) : Work :=
    match bad with
    | some (e, f) => w.fault k e f false
    | none =>
    match m.op with
    | .cmp op v g =>
      let r := lanes.map (fun l => if l.active then compareLane t op v g l else ((predAt s.cur m.d).getLsbD l.i, 0))
      (putBits sp m.d (r.map (·.1)) { w with passes := w.passes + extraPasses t 0 m.op false lanes [] }).flags { f := r.foldl (fun f x => f ||| x.2) 0, v := 0 } short
    | .pred op =>
      let a := predAt s.cur m.a
      let b := predAt s.cur m.b
      let f (i : Nat) : Bool := match op with
        | .and => a.getLsbD i && b.getLsbD i
        | .or => a.getLsbD i || b.getLsbD i
        | .xor => a.getLsbD i != b.getLsbD i
        | .not => !a.getLsbD i
        | .mov => a.getLsbD i
      putBits sp m.d (lanes.map (fun l => f l.i)) w
    | .pcnt => { w with xs := w.xs ++ [(BitVec.ofNat 5 m.d, BitVec.ofNat 64 ((upTo sp.n).countP (fun i => (predAt s.cur m.a).getLsbD i)))] }
    | .pfirst =>
      let v : Word := match (upTo sp.n).find? (fun i => (predAt s.cur m.a).getLsbD i) with | some i => BitVec.ofNat 64 i | none => BitVec.allOnes 64
      { w with xs := w.xs ++ [(BitVec.ofNat 5 m.d, v)] }
    | .cvt 14 sat =>
      let r := mapLanes (codeTo4 t rm sat) lanes
      let b0 := sp.start / 32 * 32
      let blocks := lanesAt b0 (min sp.bound sp.n - b0) olds
      let q := blockRecords t rm sat (ceilDiv (min sp.bound sp.n - b0) 32) blocks ((w.reg (m.d + 1)).bytes.drop (b0 / 32 * 2))
      if sp.bound ≤ sp.start then w else
      (putRecords sp k (m.d + 1) q.1 (value 14 r w)).flags q.2 false
    | .cvt target sat =>
      if t = 14 then
        let recs := (w.reg (m.a + 1)).bytes
        match lanes.find? (fun l => l.active && (badRecord recs l.i).isSome) with
        | some l => w.fault k l.i { code := 31, tval := BitVec.ofNat 64 ((badRecord recs l.i).getD 0), info := (checkTrap s 31 0 1 .data).info } false
        | none =>
          let r := mapLanes (fun l => convertFrom4 target rm sat ((recs.getD (l.i / 32 * 2 + 1) 0).toNat) l.a) lanes
          (value target r w).flags Flags.none (any && decide (recs.length < ceilDiv sp.bound 32 * 2))
      else value target (mapLanes (laneVal t rm m.op m.a (fun i => p0.getLsbD i)) lanes) w
    | _ => value rt (mapLanes (laneVal t rm m.op m.a (fun i => p0.getLsbD i)) lanes) w
  let after (first : Bool) (p : Pass) (done : Work → Work) : Work :=
    let w := { w with s := usePages p.uses p.s, stall := w.stall || p.stall }
    if p.hit.isSome || bad.isSome then w.memFaults k sp.start first p.hit bad else (done w).flags Flags.none short
  match m.op with
  | .ld kind first =>
    let p := loadLanes t vmt kind m.xa m.xb reach s
    after first p (putElems sp k first m.d t sp.n p.es)
  | .st kind => after false (storeLanes t vmt kind m.xa m.xb reach s) id
  | .stn =>
    after false (notifyBlocks t vmt m.xa m.xb sp.start sp.bound sp.n (sp.n + 1) reach s)
      (fun w => { w with s := if sp.bound < sp.n then tryProgress vmt m.xb sp.bound w.s else w.s })
  | .rs op indexed => after false (reduceAll t vmt op (if indexed then .indexed else .unit) m.xa reach s) id
  | _ => compute w

/-- Elementwise members one after another over the elements of a run (R102). -/
def runSpan (ms : List (Member × Nat)) (sp : Span) (s : State) : Work :=
  ms.foldl (memberStep sp) (Work.of s)

/-! ## Segments of the results (R125, R129) -/

/-- The pieces of results in the order in which their segments are taken: by window of four beats, then by member. -/
structure Need where
  k : Nat
  first : Bool
  r : Nat
  e : Nat
  window : Nat
  j : Nat
  n : Nat
  below : Bool
  prior : Option Nat

/-- The pieces of one result; `prior` is the length of an earlier member's result in the same register. -/
def needsOf (t : BitVec 4) (start : Nat) (prior : Option Nat) (o : Out) : List Need :=
  (upTo (ceilDiv o.bs.length 256)).map (fun j =>
    let e := max start (256 * j * o.num / o.den)
    let n := min 256 (o.total - 256 * j)
    { k := o.k, first := o.first, r := o.r, e := e, window := e * typeBits t / 8 / 1024, j := j, n := n, below := decide (256 * j + n ≤ o.lo), prior := prior })

/-- The pieces of all results. -/
def allNeeds (t : BitVec 4) (start : Nat) : List (Nat × Nat) → List Out → List Need
  | _, [] => []
  | seen, o :: os => needsOf t start ((seen.find? (·.1 == o.r)).map (·.2)) o ++ allNeeds t start ((o.r, o.total) :: seen) os

/-- What taking segments has come to: how many are left, references already moved off shared segments, the failures. -/
structure Plan where
  left : Nat
  moved : List Nat
  hits : List Hit

/-- One piece: in place, or a segment taken, or a failure at its first element (log 41: DEDUCED, unsafe). -/
def planPiece (s : State) (p : Plan) (x : Need) : Plan :=
  let k := coreAt s s.core
  let count (id : Nat) : Nat := countOf k id - p.moved.count id
  let case : WriteCase := match x.prior with
    | some total => if x.n ≤ min 256 (total - 256 * x.j) then .inPlace { seg := 0, first := 0, count := x.n } else .fresh
    | none => writeCase count (vreg s.cur x.r).pieces x.j x.n
  let take (moved : List Nat) : Plan :=
    if p.left = 0 then
      { p with hits := p.hits ++ [{ e := x.e, k := x.k, trap := if x.first && x.e = s.cur.vstart then firstFault (poolTrap s 1) else poolTrap s 1,
                                    first := x.first && decide (s.cur.vstart < x.e) }] }
    else { p with left := p.left - 1, moved := moved }
  match case with
  | .inPlace _ => p
  | .copy q => if x.below then p else take (q.seg :: p.moved)
  | .fresh => take p.moved

/-- The windows one after another, up to the first with a failure (log 41: DEDUCED, unsafe). -/
def planWindows (s : State) (xs : List Need) : Nat → Nat → Plan → Plan
  | 0, _, p => p
  | fuel + 1, w, p =>
    let p := (xs.filter (·.window == w)).foldl (planPiece s) p
    if p.hits.isEmpty then planWindows s xs fuel (w + 1) p else p

/-- The allocations of a run that fail (log 41: DEDUCED, unsafe). -/
def poolHits (s : State) (start : Nat) (outs : List Out) : List Hit :=
  (planWindows s (allNeeds s.cur.vtype start [] outs) 17 0 { left := allocatable s s.curKey, moved := [], hits := [] }).hits

/-! ## The fault that stops a run -/

/-- How a run ends: its work, its length (shortened by a first-fault load), where it stopped, and the trap that stopped it. -/
structure Ended where
  w : Work
  n : Nat
  bound : Nat
  hit : Option Hit
  shortened : Option Hit

/-- The run is made again up to each fault found, until none is found below (R103, R129, R311). -/
def settle (ms : List (Member × Nat)) (start n0 : Nat) (s : State) : Nat → Nat → Nat → Option Hit → Option Hit → Ended
  | 0, n, bound, hit, short => { w := runSpan ms { start := start, bound := bound, n := n } s, n := n, bound := bound, hit := hit, shortened := short }
  | fuel + 1, n, bound, hit, short =>
    let w := runSpan ms { start := start, bound := bound, n := n } s
    match firstHit ((w.hits ++ poolHits s start w.outs).filter (fun h => h.e < bound)) with
    | none => { w := w, n := n, bound := bound, hit := hit, shortened := short }
    | some h =>
      if h.first then settle ms start n0 s fuel h.e h.e none (some h)
      else settle ms start n0 s fuel n0 h.e (some h) none

/-- The pieces of a register cut short at element e: its new pieces, then the old ones from there on. -/
def piecesAt (s : State) (o : Out) (e : Nat) : Nat :=
  let b := min o.bs.length (ceilDiv (e * o.den) o.num)
  let old := (vreg s.cur o.r).pieces
  let tail := (dropBytes b old).length
  let j := b / 256
  let merged := match writeCase (fun _ => 1) old j (min 256 (o.total - 256 * j)) with | .fresh => false | _ => b % 256 != 0
  if o.total ≤ b then ceilDiv b 256 else ceilDiv b 256 + tail - (if merged then 1 else 0)

/-- The element to which a result of more than 64 pieces lowers a stop (R129 step 3). -/
def lowerFor (s : State) (start : Nat) (o : Out) : Nat → Nat → Nat
  | 0, _ => start
  | fuel + 1, e =>
    if e ≤ start ∨ piecesAt s o e ≤ 64 then max start e
    else lowerFor s start o fuel ((e * o.den / o.num - 1) / 256 * 256 * o.num / o.den)

/-- Every result lowered in turn (log 41: DEDUCED, unsafe). -/
def lowerAll (s : State) (start : Nat) (outs : List Out) (e : Nat) : Nat := outs.foldl (fun e o => lowerFor s start o 66 e) (outs.foldl (fun e o => lowerFor s start o 66 e) e)

/-- The elementwise members of a convoy run: as far as the first fault, lowered where a result would need too many pieces. -/
def runMembers (ms : List (Member × Nat)) (start n : Nat) (s : State) : Ended :=
  let r := settle ms start n s (n + 1) n n none none
  match r.hit with
  | none => r
  | some h =>
    let e := lowerAll s start r.w.outs r.bound
    if e < r.bound then settle ms start n s (n + 1) n e (some { h with e := e }) none else r

/-- The chains of a run are written (R125) (log 40: DEDUCED, unsafe). -/
def commitOuts (w : Work) : State :=
  w.outs.foldl (fun s o => (writeResult s.curKey o.r o.type o.total o.lo o.bs s).getD s) w.s

/-! ## Traps of a convoy -/

/-- A convoy takes a trap at its first word, with `vstart` and `vcvx` (R103, R194) (log 40: DEDUCED, unsafe). -/
def convoyTrap (e k : Nat) (t : Trap) (s : State) : State :=
  let s := { s with cur := { s.cur with vstart := e, vcvx := BitVec.ofNat 2 k } }
  let s := if t.code = 49 then logError s.die 1 (some s.core) t.tval (openField s) s else s
  let s := if t.code = 30 then countEvent 0x023 1 s.curKey s else s
  let t := if t.code = 30 then { t with tval := BitVec.ofNat 64 (pfree s s.core) } else t
  raiseAt t s.cur.convoyPc s

/-! ## Cross-element VX words (R287 to R297) -/

/-- A result of a cross-element word: all its segments are taken, or the pool-empty trap with `vstart` 0 (R287). -/
def wholeResult (r : Nat) (t : BitVec 4) (es : List Nat) (f : Flags) (short : Bool) (s : State) : Cross :=
  match writeResult s.curKey r t (bytesOfElems t es.length) 0 (bytesOfList t (padNibble s) es) s with
  | none => .trap 0 (poolTrap s 1) s
  | some s' => .done (raiseAll (if short then { f with v := f.v ||| vShort } else f) s')

/-- The elements of its sources that a cross-element VX word consumes: the register, its type, the element (R195, R287). -/
def consumed (m : Member) (s : State) : List (Nat × BitVec 4 × Nat) :=
  let t := s.cur.vtype
  let n := s.cur.vl
  let p0 (j : Nat) : Bool := (predAt s.cur 0).getLsbD j
  let active := (upTo n).filter (fun i => !m.masked || p0 i)
  let all (r : Nat) (t : BitVec 4) : List (Nat × BitVec 4 × Nat) := active.map (fun i => (r, t, i))
  let one (r : Nat) : List (Nat × BitVec 4 × Nat) := if active.isEmpty then [] else [(r, t, 0)]
  match m.op with
  | .arith _ _ => one m.a ++ all m.b t
  | .fused _ _ => one m.a ++ all m.b t ++ all m.d t
  | .red _ => (if m.a = 0 then [] else [(m.a, t, 0)]) ++ all m.b t
  | .argmax | .scan _ => all m.b t
  | .compress => (active.filter p0).map (fun i => (m.b, t, i))
  | .expand => (upTo (active.filter p0).length).map (fun i => (m.b, t, i))
  | .confl | .topk | .sortk => all m.a t
  | .slideUp => (active.filter (fun i => decide (m.xa.toNat ≤ i))).map (fun i => (m.b, t, i - m.xa.toNat))
  | .slideDn => active.map (fun i => (m.b, t, i + m.xa.toNat))
  | .perm =>
    let idx := readElems 6 (chainBytes (coreAt s s.core) (vreg s.cur m.a))
    all m.a 6 ++ active.map (fun i => (m.b, t, idx.getD i 0))
  | .inter => all m.a t ++ all m.b t
  | _ => []

/-- The first error that those elements meet, or that of a table entry of the old destination (R132, R197). -/
def wholeError (m : Member) (s : State) : Option Word :=
  let k := coreAt s s.core
  let reg (r : Nat) : Reg := regOf k (vreg s.cur r)
  if badEntryIn k (vreg s.cur m.d) then (reg m.d).bad.head?.map (·.2.2)
  else if (regReads s.cur.vtype m).all (fun r => decide (32 ≤ r) || (reg r).bad.isEmpty) then none
  else (consumed m s).findSome? (fun x => badElem (reg x.1) (typeBits x.2.1) x.2.2)

/-- The element groups of a cross-element VX word that take an extra pass: a subnormal stands among the elements it consumes (R109) (log 62: DEDUCED, unsafe). -/
def wholePasses (m : Member) (s : State) : Nat :=
  if !computes m.op || !isFloat s.cur.vtype then 0 else
  let k := coreAt s s.core
  let elems (r : Nat) : List Nat := readElems s.cur.vtype (chainBytes k (vreg s.cur r))
  let regs := ((consumed m s).map (·.1)).eraseDups.map (fun r => (r, elems r))
  (((consumed m s).filter (fun x => isSubnormal s.cur.vtype (((lookupKey x.1 regs).getD []).getD x.2.2 0))).map (fun x => x.2.2 / perGroup s.cur.vtype)).eraseDups.length

/-- A cross-element VX word over all its elements. -/
def runWhole (m : Member) (s : State) : Cross :=
  let t := s.cur.vtype
  let rm := s.cur.frm
  let n := s.cur.vl
  let k := coreAt s s.core
  let p (i j : Nat) : Bool := (predAt s.cur i).getLsbD j
  let mask (i : Nat) : Bool := !m.masked || p 0 i
  let chain (r : Nat) (t : BitVec 4) : List Nat := readElems t (chainBytes k (vreg s.cur r))
  let count (r : Nat) (t : BitVec 4) : Nat := elemsOfBytes t (chainLen (vreg s.cur r))
  let rt := resultType t m.op
  let olds := elemsOf rt (chainBytes k (vreg s.cur m.d))
  let a := chain m.a t
  let b := chain m.b t
  let whole := b.take (count m.b t)
  let lanes (as bs cs : List Nat) : List Lane := lanesFrom mask n 0 as bs cs olds
  let active := (upTo n).any mask
  let short (r : Nat) (t : BitVec 4) : Bool := decide (count r t < n)
  let noStart := decide (count m.a t = 0)
  let special := (Config.word (freeIndex s 2)).toInt
  let optional (es : List Nat) : List (Option Nat) := (lanes es [] []).map (fun l => if l.active then some l.a else none)
  let s := countEvent 0x014 (wholePasses m s) s.curKey s
  let s := countEvent 0x015 (skewsOf (Work.of s) m 0 n) s.curKey s
  match wholeError m s with
  | some e => .trap 0 (errorOf e 1 s.cur.vmt.toNat .data) s
  | none =>
    match m.op with
    | .arith _ .vs =>
      let r := mapLanes (laneVal t rm m.op 0 (fun _ => false)) (lanes b (List.replicate n (a.headD 0)) [])
      wholeResult m.d rt r.1 r.2 (active && (short m.b t || noStart)) s
    | .fused _ .vs =>
      let r := mapLanes (laneVal t rm m.op 0 (fun _ => false)) (lanes b (List.replicate n (a.headD 0)) (chain m.d t))
      wholeResult m.d rt r.1 r.2 (active && (short m.b t || short m.d t || noStart)) s
    | .red op =>
      let start := if m.a = 0 then none else some (a.headD 0)
      let r := reduce t rm op start (optional b)
      wholeResult m.d rt [r.1] r.2 (short m.b t || (m.a != 0 && noStart)) s
    | .argmax => let r := argmax t (optional b); wholeResult m.d rt [r.1] r.2 (short m.b t) s
    | .compress => wholeResult m.d rt (((lanes b [] []).filter (fun l => p 0 l.i)).map (·.a)) Flags.none (short m.b t) s
    | .expand => wholeResult m.d rt (expand b (lanes [] [] [])) Flags.none (short m.b t) s
    | .vpcnt => wholeResult m.d rt (prefixCount t (p (m.a % 8)) 0 (lanes [] [] [])) Flags.none false s
    | .iota => wholeResult m.d rt ((lanes [] [] []).map (fun l => if l.active then (m.xa.toNat + l.i) % 2 ^ typeBits t else l.old)) Flags.none false s
    | .confl => wholeResult m.d rt (conflicts [] (lanes a [] [])) Flags.none (short m.a t) s
    | .slideUp =>
      let k := m.xa.toNat
      wholeResult m.d rt ((lanes [] [] []).map (fun l => if l.active && decide (k ≤ l.i) then whole.getD (l.i - k) 0 else l.old)) Flags.none false s
    | .slideDn =>
      let moved := whole.drop (min m.xa.toNat whole.length)
      wholeResult m.d rt ((lanes moved [] []).map (fun l => if l.active then l.a else l.old)) Flags.none false s
    | .perm =>
      let idx := chain m.a 6
      wholeResult m.d rt ((lanes idx [] []).map (fun l => if l.active then whole.getD l.a 0 else l.old)) Flags.none (short m.a 6) s
    | .scan op =>
      let r := scanFrom (combine t rm op) (p 0) none (lanes b [] [])
      wholeResult m.d rt r.1 r.2 (short m.b t) s
    | .topk =>
      let ls := lanes a [] []
      wholeResult m.d rt (topk t special m.xb.toNat ls) Flags.none (ls.any (fun l => l.active && decide (count m.a t ≤ l.i))) s
    | .sortk =>
      let ls := lanes a [] []
      wholeResult m.d rt (sortk t special ls) Flags.none (ls.any (fun l => l.active && decide (count m.a t ≤ l.i))) s
    | .inter =>
      let side (es : List Nat) : List Lane := lanesFrom mask (min n es.length) 0 es [] [] []
      let high := (Config.word (freeIndex s 1)).getLsbD 0
      wholeResult m.d rt (interWalk t special (2 * n + 1) high (side (a.take (count m.a t))) (side whole)) Flags.none (decide (count m.a t < n) || decide (count m.b t < n)) s
    | _ => .done s

/-! ## The last member, and retirement -/

/-- A word that acts whatever the length (R283, R298, R301). -/
def actsAlways (m : Member) (s : State) : State :=
  let x (r : Nat) (v : Word) : State := wx (BitVec.ofNat 5 r) v s
  let k := coreAt s s.core
  let set := (upTo s.cur.vl).filter (fun i => (predAt s.cur m.a).getLsbD i)
  match m.op with
  | .mvToX => let t := s.cur.vtype; x m.d (match readElems t (chainBytes k (vreg s.cur m.a)) with | w :: _ => elemWord t w | [] => 0)
  | .len => x m.d (lenOf (vreg s.cur m.a))
  | .pcnt => x m.d (BitVec.ofNat 64 set.length)
  | .pfirst => x m.d (match set with | i :: _ => BitVec.ofNat 64 i | [] => BitVec.allOnes 64)
  | .fclaim => runClaim m s
  | .frel => runRelease s
  | .fprobe => if s.cur.vl = 0 then x m.b 0 else s
  | _ => s

/-- What a run adds to the events of the lanes (R109, R110). -/
def countWork (w : Work) (s : State) : State := countEvent 0x015 w.skews s.curKey (countEvent 0x014 w.passes s.curKey s)

/-- A cross-element last member; `start` is where it resumes, or 0 (log 44: DESIGN CHOICE, unsafe). -/
def runCross (m : Member) (k start : Nat) (s : State) : Cross :=
  match m.op with
  | .ld .indexed _ | .st .indexed =>
    let r := runMembers [(m, k)] start s.cur.vl s
    if r.w.stall then .stall else
    let s := countWork r.w (commitOuts r.w)
    (match r.hit, r.shortened with
     | some h, _ => .trap h.e h.trap s
     | none, some h =>
       let s := { s with cur := { s.cur with vl := r.n } }
       .done (if h.trap.code = 27 then (match s.cur.task with | some t => fetchPage t.part (h.trap.tval.toNat / 65536) s | none => s) else s)
     | none, none => .done s)
  | .mvToX =>
    let s := countEvent 0x015 (skewsOf (Work.of s) m 0 1) s.curKey s
    (match badElem (regOf (coreAt s s.core) (vreg s.cur m.a)) (typeBits s.cur.vtype) 0 with
     | some e => .trap 0 (errorOf e 1 s.cur.vmt.toNat .data) s
     | none => .done (actsAlways m s))
  | .len | .fclaim | .frel => .done (actsAlways m s)
  | .spill => runSpill m s
  | .fill => runFill m s
  | .prep | .trimh | .trimt | .split | .join | .share | .retype _ | .free | .norm => runEdit m s
  | .fins | .fprobe | .fdel | .facc _ => runKeyed m start (countEvent 0x015 (skewsOf (Work.of s) m start s.cur.vl) s.curKey s)
  | .fdrain => runDrain m start s
  | _ => runWhole m s

/-- The message at the head of a ray's queue is released (R299). -/
def popMessage (handle : Nat) (s : State) : State :=
  match rayOfRecv s (threadOf s.cur) handle with
  | some (d, r) =>
    (match r.queue with
     | m :: _ =>
       let s := updDie s d (fun x => { x with rays := x.rays.map (fun y => if y.key == r.key && y.part == r.part then { y with queue := y.queue.drop 1 } else y) })
       releaseMsg s.core m s
     | [] => s)
  | none => s

/-- A convoy retires: `vstart` and `vcvx` are cleared, messages that its words read are released, and the context goes on (log 40: DEDUCED, unsafe). -/
def retireConvoy (ms : List Member) (ran : Bool) (s : State) : State :=
  let handles := ((ms.filter (fun m => isRayForm m.op)).map (fun m => m.xa.toNat)).eraseDups
  let s := if ran then handles.foldl (fun s h => if s.cur.expiredRay.contains h then s else popMessage h s) s else s
  let s := countEvent 0x001 1 s.curKey s
  { s with cur := { s.cur with vstart := 0, vcvx := 0, convoy := [], expiredRay := [], pc := s.cur.pc + 4 } }

/-- A ray word whose message has not come (log 46: DESIGN CHOICE, unsafe). -/
def rayMissing (s : State) (m : Member) : Bool :=
  isRayForm m.op && !s.cur.expiredRay.contains m.xa.toNat &&
    (match rayOfRecv s (threadOf s.cur) m.xa.toNat with | some (_, r) => r.queue.isEmpty | none => false)

/-- A word that stores. -/
def isStore (op : VOp) : Bool := match op with | .st _ | .stn | .rs _ _ => true | _ => false

/-- The grant shortened by a first-fault load, and the page it asks for (R311) (log 41: DEDUCED, unsafe). -/
def shortenGrant (n : Nat) (h : Hit) (s : State) : State :=
  let s := { s with cur := { s.cur with vl := n } }
  if h.trap.code = 27 then (match s.cur.task with | some t => fetchPage t.part (h.trap.tval.toNat / 65536) s | none => s) else s

/-- The cross-element last member, then retirement; `stalled` is the state to keep while it must wait (log 41: DEDUCED, unsafe; log 44: DESIGN CHOICE, unsafe). -/
def finishConvoy (stalled : State) (ms : List Member) (last : Option (Member × Nat)) (start : Nat) (s : State) : State :=
  match last with
  | none => retireConvoy ms true s
  | some (m, k) =>
    match runCross m k start s with
    | .done s => retireConvoy ms true s
    | .trap e t s => if t.code = heldCode then stalled else convoyTrap e k t s
    | .stall => stalled

/-- The elementwise members, then the last one. x results are delivered once the members that give them have finished. -/
def runElements (stalled : State) (ms : List Member) (elems : List (Member × Nat)) (last : Option (Member × Nat)) (start : Nat) (s : State) : State :=
  let r := runMembers elems start s.cur.vl s
  if r.w.stall then stalled else
  let s := countWork r.w (commitOuts r.w)
  match r.hit with
  | some h => if h.trap.code = heldCode then stalled else convoyTrap h.e h.k h.trap s
  | none =>
    let s := r.w.xs.foldl (fun s x => wx x.1 x.2 s) s
    let s := match r.shortened with | some h => shortenGrant r.n h s | none => s
    finishConvoy stalled ms last 0 s

/-- A whole convoy that no stop for pre-emption cuts short (R102, R103, R107, R268); `stalled` is the state before its last word. With a length of 0 the
words that act whatever the length do so; past START nothing is processed (log 40: DEDUCED, unsafe). -/
def runUnstopped (stalled : State) (s : State) : State :=
  let ms := s.cur.convoy
  let start := s.cur.vstart
  let idx := ms.zipIdx
  if s.cur.vl ≤ start then retireConvoy ms false (if s.cur.vl = 0 then ms.foldl (fun s m => actsAlways m s) s else s) else
  match ms.find? (rayMissing s) with
  | some m => beginWait (.rayForm m.xa.toNat) true { s with cur := { s.cur with pc := s.cur.convoyPc, convoy := [] } }
  | none =>
    if s.cur.release.isSome && ms.any (fun m => isStore m.op) then stalled else
    let elems := idx.filter (fun x => !crossElement x.1.op)
    let last := idx.find? (fun x => crossElement x.1.op)
    match last with
    | some (_, k) =>
      if k = 0 then finishConvoy stalled ms last start s
      else if s.cur.vcvx.toNat = k then finishConvoy stalled ms last start s
      else
        runElements stalled ms elems last start s
    | none => runElements stalled ms elems none start s

/-! ## A stop for pre-emption inside a convoy (R89, R103) -/

/-- A save for an award begins; it takes the award's frame (log 51: DESIGN CHOICE, unsafe). -/
def saveFor (key : Nat) (reason : SaveReason) (w : Option Wait) (f : Nat) (s : State) : State :=
  let s := updCore s (key / 4) (fun k => { k with awards := k.awards.map (fun a => if a.frame == some f then { a with frame := none } else a) })
  saveInto key reason w f (stopTimer (.preemptionStopTimeout key) s)

/-- The frame of the committed award that waits for the focus's convoy to retire, while its 2,048 cycles run or have run out. -/
def pressing (s : State) : Option Nat :=
  let e : Instr := .preemptionStopTimeout s.curKey
  if s.timers.any (·.event == e) || isDue s e then ((coreAt s s.core).awards.find? (fun a => a.committed && a.slot == s.curKey % 4)).bind (·.frame) else none

/-- Where a stop for pre-emption falls in the convoy at hand, if one does, and the frame of its save: how far the convoy has come when its 2,048 cycles are
over is a matter of time (log 61: DESIGN CHOICE, safe). -/
def stopPoint (s : State) : Option (Nat × Nat) :=
  match pressing s, Config.stopsAt s.nonce with
  | some f, some e => some (f, e)
  | _, _ => none

/-- The context stands at its convoy's first word with `vstart` and `vcvx`, and is saved. -/
def stopAt (f vstart k : Nat) (s : State) : State :=
  saveFor s.curKey .preempt none f { s with cur := { s.cur with vstart := vstart, vcvx := BitVec.ofNat 2 k, convoy := [], pc := s.cur.convoyPc } }

/-- A fault at or below the stop's element is taken, and the context saved at the first instruction of its handler (R196 step 5). -/
def trapThenSave (f e k : Nat) (t : Trap) (s : State) : State :=
  let s := convoyTrap e k t s
  if s.cur.state == .running then saveFor s.curKey .preempt none f s else s

/-- Memory as another state has it, but for the scratchpad of the focus's core. -/
def memoryOutside (t s : State) : State :=
  let base := scratchKey s.core 0
  let n := scratchSize s.core
  { s with mem := (sliceBytes base n s.mem).foldl (fun m c => setByte (base + c.1) c.2 m) (clearBytes base n t.mem) }

/-- What a running cross-element member leaves when it is abandoned after some elements: no register write; stores of an indexed store remain, and spill writes,
which lie past the restored COUNT, may (R103, R173) (log 61: DESIGN CHOICE, safe). -/
def abandon (m : Member) (k start count : Nat) (s : State) : State :=
  match m.op with
  | .st .indexed =>
    let w := memberStep { start := start, bound := min s.cur.vl (start + count), n := s.cur.vl } (Work.of s) (m, k)
    if w.hits.isEmpty && !w.stall then { w.s with cur := { w.s.cur with vflags := s.cur.vflags } } else s
  | .fins | .facc _ =>
    if count % 2 = 0 then s else
    (match runKeyed m start s with
     | .done t => memoryOutside t s
     | .trap _ _ t => memoryOutside t s
     | .stall => s)
  | _ => s

/-- A Facet word that has begun and resumes from `vstart`. -/
def keepsStart (op : VOp) : Bool := match op with | .fins | .fprobe | .fdel | .facc _ | .fdrain => true | _ => false

/-- The last member is stopped while it runs: `vcvx` names it and `vstart` is 0; a Facet word that an earlier run had brought to `vstart` stays there, so that
its restart does not depend on the stop (log 61: DESIGN CHOICE, safe). -/
def stopLast (f count : Nat) (m : Member) (k start : Nat) (s : State) : State :=
  stopAt f (if keepsStart m.op then start else 0) k (abandon m k start count s)

/-- A convoy with a stop at an element: the elementwise members commit what lies below the group in which it falls; a stop past them falls into the last
member (R89, R103). -/
def runStopped (f e : Nat) (stalled s : State) : State :=
  let ms := s.cur.convoy
  let start := s.cur.vstart
  let n := s.cur.vl
  let idx := ms.zipIdx
  let elems := idx.filter (fun x => !crossElement x.1.op)
  let last := idx.find? (fun x => crossElement x.1.op)
  if n ≤ start || ms.any (rayMissing s) || (s.cur.release.isSome && ms.any (fun m => isStore m.op)) then runUnstopped stalled s else
  match last with
  | some (m, k) =>
    if k = 0 || s.cur.vcvx.toNat = k then stopLast f (e - n) m k start s
    else stopElements f e stalled elems (some (m, k)) start n s
  | none => if n ≤ e then runUnstopped stalled s else stopElements f e stalled elems none start n s
where
  /-- The elementwise members as far as the stop. -/
  stopElements (f e : Nat) (stalled : State) (elems : List (Member × Nat)) (last : Option (Member × Nat)) (start n : Nat) (s : State) : State :=
    let g := perGroup s.cur.vtype
    let e' := max start (e / g * g)
    let r := runMembers elems start n s
    let below := match r.hit with | some h => if h.e ≤ e' then some h else none | none => none
    if r.w.stall then stalled else
    match below with
    | some h => if h.trap.code = heldCode then stalled else trapThenSave f h.e h.k h.trap (commitOuts r.w)
    | none =>
      if e < r.n then
        let q := settle elems start n s (n + 1) n (lowerAll s start r.w.outs e') none none
        if q.w.stall then stalled else stopAt f q.bound 0 (commitOuts q.w)
      else
        let s := commitOuts r.w
        match r.hit with
        | some h => if h.trap.code = heldCode then stalled else trapThenSave f h.e h.k h.trap s
        | none =>
          let s := r.w.xs.foldl (fun s x => wx x.1 x.2 s) s
          let s := match r.shortened with | some h => shortenGrant r.n h s | none => s
          match last with
          | some (m, k) => stopLast f (e - n) m k 0 s
          | none => retireConvoy s.cur.convoy true s

/-- A whole convoy, unless a stop for pre-emption falls in it (log 40: DEDUCED, unsafe). -/
def runConvoy (stalled : State) (s : State) : State :=
  match stopPoint s with
  | none => runUnstopped stalled s
  | some (f, e) => runStopped f e stalled s

/-! ## Entry -/

/-- A VX or VM word enters its convoy (R97, R100): a fifth word is an illegal encoding of the fourth, the checks of decode come first,
and a word with c = 0 runs the convoy (log 39: DEDUCED, unsafe). -/
def enterWord (w : Word32) (op : VOp) (d : Nat) (masked : Bool) (s : State) : Result :=
  let a := (w.extractLsb' 15 5).toNat
  let b := (w.extractLsb' 20 5).toNat
  let m : Member := { word := w, op := op, masked := masked, d := d, a := a, b := b, xa := rx s (w.extractLsb' 15 5), xb := rx s (w.extractLsb' 20 5) }
  .next (
    if 4 ≤ s.cur.convoy.length then illegalConvoy s else
    match decodeTrap m s with
    | some t => memberTrap t s
    | none =>
      let pc := if s.cur.convoy.isEmpty then s.cur.pc else s.cur.convoyPc
      let s' := { s with cur := { s.cur with convoy := s.cur.convoy ++ [m], convoyPc := pc } }
      if w.getLsbD 26 then { s' with cur := { s'.cur with pc := s'.cur.pc + 4 } } else runConvoy s s')

/-- A VX word from its fields. -/
def vx (f5 : BitVec 5) (c m : BitVec 1) (s2 s1 : BitVec 5) (f3 : BitVec 3) (d : BitVec 5) (op : VOp) (s : State) : Result :=
  let w : Word32 := f5 ++ c ++ m ++ s2 ++ s1 ++ f3 ++ d ++ 0x0B#7
  let dst := match op with | .cmp _ _ _ | .pred _ => d.toNat % 8 | _ => d.toNat
  enterWord w op dst (m == 0) s

/-- A VM word from its fields. -/
def vm (f5 : BitVec 5) (c m : BitVec 1) (s2 s1 : BitVec 5) (f3 : BitVec 3) (d : BitVec 5) (op : VOp) (s : State) : Result :=
  enterWord (f5 ++ c ++ m ++ s2 ++ s1 ++ f3 ++ d ++ 0x2B#7) op d.toNat (m == 0) s

end Sys2Proof.Machine
end

