-- ==== Sys2Proof/Machine/Matrix.lean ====
section
/-! DEFINITION. The matrix engine (R319 to R333): tiles and accumulators, `mset`, `mzero`, tile loads and stores, products and
scales, row moves, accumulator output, gangs. -/

namespace Sys2Proof.Machine

/-! ## Tiles and accumulators -/

/-- Where byte b of row r of tile n stands among the tile bytes of a context, and element (r, col) of accumulator a. -/
def tileOff (n r b : Nat) : Nat := n * 16384 + r * 128 + b
def accOff (a r col : Nat) : Nat := 131072 + a * 65536 + (r * 128 + col) * 4

/-- Bytes of the focus's tiles. -/
def tileBytes (s : State) (off n : Nat) : List Byte := getBytes off n s.cur.tiles

/-- Bytes of the focus's tiles written. -/
def putTile (off : Nat) (bs : List Byte) (s : State) : State :=
  let s := if s.badCells.isEmpty then s else clearErrors (tileKey s.curKey off) bs.length s
  { s with cur := { s.cur with tiles := setBytes off bs s.cur.tiles } }

/-- The trap of a stretch of the tile file that holds an uncorrectable error (R197). -/
def tileError (s : State) (off n : Nat) : Option Trap :=
  (s.badCells.find? (fun b => decide (b.1 < tileKey s.curKey off + n) && decide (tileKey s.curKey off < b.1 + b.2))).map (fun b =>
    { code := 49, tval := errorAddr b.1, info := sfinfoOf false 2 (checkSpace s 2) .data })

/-- The trap of a row of a tile, with its records for e2m1. -/
def rowError (s : State) (m : Mshape) (n r : Nat) : Option Trap :=
  match tileError s (tileOff n r 0) (m.cols * fmtBits m.fmt / 8) with
  | some t => some t
  | none => if m.fmt = 4 then tileError s (tileOff (n + 1) 0 (r * 16)) (m.cols / 16) else none

/-- An accumulator element. -/
def accAt (s : State) (a r col : Nat) : Nat := natOf (tileBytes s (accOff a r col) 4)

/-- The shape of a tile. -/
def shapeOf (s : State) (n : Nat) : Mshape := s.cur.mshape.toList.getD n { fmt := 0, rows := 0, cols := 0 }

/-- A tile's shape replaced. -/
def setShape (n : Nat) (m : Mshape) (s : State) : State :=
  { s with cur := { s.cur with mshape := s.cur.mshape.mapIdx (fun i x => if i = n then m else x) } }

/-- A tile becomes valid. -/
def validTile (n : Nat) (s : State) : State := { s with cur := { s.cur with mValid := s.cur.mValid ||| (1#8 <<< n) } }

/-- The type code of a tile format (R320). -/
def fmtType (f : BitVec 3) : BitVec 4 :=
  match f.toNat with | 0 => 10 | 1 => 11 | 2 => 12 | 3 => 13 | 4 => 14 | 5 => 1 | _ => 9

/-- The row bytes of a shape (R320). -/
def rowBytes (m : Mshape) : Nat := m.cols * fmtBits m.fmt / 8

/-- An e2m1 shape has whole blocks. -/
def blocksOk (m : Mshape) : Bool := m.fmt != 4 || m.cols % 32 == 0

/-! ## What every MT word does first (R319) -/

/-- A trap of an MT word, which is its own convoy. -/
def matrixTrap (e : Nat) (t : Trap) (s : State) : State :=
  let s := { s with cur := { s.cur with vstart := e, vcvx := 0 } }
  let s := if t.code = 49 then logError s.die 1 (some s.core) t.tval (openField s) s else s
  let s := if t.code = 30 then countEvent 0x023 1 s.curKey s else s
  raise t s

/-- The shape fault of an MT word. -/
def matrixShape (s : State) : State := matrixTrap 0 (checkTrap s 48 0 2 .data) s

/-- An MT word retires. -/
def retireMatrix (s : State) : State :=
  let s := countEvent 0x001 1 s.curKey s
  { s with cur := { s.cur with vstart := 0, vcvx := 0, pc := s.cur.pc + 4 } }

/-- A tile of the focus that an older tile load still writes (R99, R319). -/
def tileLoading (s : State) (n : Nat) : Bool :=
  s.engines.any (fun e => e.thread == threadOf s.cur && e.failed.isNone &&
    (match e.kind with | .tile false _ ts _ _ => ts.contains n | _ => false))

/-- An MT word: it breaks an open convoy; on an S-core its unit is unavailable; `chains` needs a granted type; `odd` makes it a
reserved word; the tiles (40 and up) and registers it reads must be valid in valid-bit mode. It waits for older loads of the tiles it reads and of
those it writes (R99, R319). -/
def matrixWord (w : Word32) (chains odd : Bool) (reads writes : List Nat) (f : State → State) (s : State) : Result :=
  .next (
    if !s.cur.convoy.isEmpty then illegalConvoy s
    else if !isDCore s.core then memberTrap (checkTrap s 25 (w.setWidth 64) 2 .decode) s
    else if (chains && s.cur.vtype == 0) || odd then memberTrap (checkTrap s 2 (w.setWidth 64) 2 .decode) s
    else
      let valid (r : Nat) : Bool := if r < 32 then (vreg s.cur r).valid else s.cur.mValid.getLsbD (r - 40)
      match (if s.cur.validMode then reads.find? (fun r => !valid r) else none) with
      | some r => memberTrap (checkTrap s 24 (BitVec.ofNat 64 r) 2 .decode) s
      | none => if (reads ++ writes).any (fun r => decide (40 ≤ r) && tileLoading s (r - 40)) then s else f s)

/-- The bits of an MT word. -/
def mtWord (f4 : BitVec 4) (acc : BitVec 3) (s2 s1 : BitVec 5) (f : BitVec 3) (d : BitVec 5) : Word32 := f4 ++ acc ++ s2 ++ s1 ++ f ++ d ++ 0x5B#7

/-- A tile number as a register field. -/
def tileField (t : BitVec 3) : BitVec 5 := t.setWidth 5

/-! ## Shapes and zeros (R321) -/

/-- `mset`. -/
def execMset (b a : BitVec 5) (f d : BitVec 3) (s : State) : Result :=
  matrixWord (mtWord 0 0 b a f (tileField d)) false false [] [] (fun s =>
    let m : Mshape := { fmt := f, rows := (rx s a).toNat, cols := (rx s b).toNat }
    if mshapeOk m then retireMatrix (setShape d.toNat m s) else matrixShape s) s

/-- `mzero`. -/
def execMzero (t : BitVec 5) (s : State) : Result :=
  matrixWord (mtWord 4 0 0 0 0 t) false false [] (if t.toNat < 8 then [40 + t.toNat] else []) (fun s =>
    let clear (off n : Nat) (s : State) : State :=
      let s := clearErrors (tileKey s.curKey off) n s
      { s with cur := { s.cur with tiles := clearBytes off n s.cur.tiles } }
    let s := if t.toNat < 8 then validTile t.toNat (clear (tileOff t.toNat 0 0) 16384 s) else s
    let s := if t = 8 ∨ t = 10 then clear (accOff 0 0 0) 65536 s else s
    let s := if t = 9 ∨ t = 10 then clear (accOff 1 0 0) 65536 s else s
    retireMatrix s) s

/-! ## Engine operations are forked (R152, R176) -/

/-- An operation is forked: it takes a scoreboard entry for its local range of an offset and a length, if it has one, rounded out to 64 bytes. Its reads
may miss what a read of the issuing word's class may miss then; it is counted in OUTS until it ends. -/
def forkOp (key : Nat) (priv : Priv) (w : Issuer) (object : Word) (k : EngineKind) (range : Option (Nat × Nat)) (writes : Bool) (s : State) : State :=
  let (n, s) := freshId s
  let op : EngineOp := { num := n, key := key, priv := priv, thread := w.thread, node := w.node, part := w.part, region := w.region, object := object, kind := k,
                         stale := (ctxAt s key).stale, failed := none }
  let s := { s with engines := s.engines ++ [op] }
  let s := match range with
    | some r =>
      let lo := r.1 / 64 * 64
      let e : Scored := { op := n, base := lo, len := ceilDiv (r.1 + r.2) 64 * 64 - lo, writes := writes }
      updCore s (key / 4) (fun c => { c with scored := c.scored ++ [e] })
    | none => s
  post (.engineOperationComplete n) (addOuts w.part w.region s)

/-- An operation of the focus that has met an uncorrectable error, which is logged; no wait reports it, and it is delivered when the task ends (R198). -/
def keepFailed (addr : Word) (s : State) : State :=
  let s := logError s.die 1 (some s.core) addr (openField s) s
  let (n, s) := freshId s
  let w := issuerOf s
  let op : EngineOp := { num := n, key := s.curKey, priv := s.cur.priv, thread := w.thread, node := w.node, part := w.part, region := w.region, object := 0,
                         kind := .tile true 0 [] [] (some addr), stale := [], failed := some (faultOf s s.curKey 49 addr) }
  { s with engines := s.engines ++ [op] }

/-- Every entry of a core's range scoreboard is held: an engine command stalls (R152). -/
def scoreboardFull (s : State) (g : Nat) : Bool := decide (32 ≤ (coreAt s g).scored.length)

/-- The key of the first byte in error of a stretch. -/
def firstBad (key n : Nat) (s : State) : Option Nat :=
  (s.badCells.filter (fun b => b.1 < key + n && key < b.1 + b.2)).foldl (fun m b =>
    let x := max key b.1
    match m with | some y => some (min x y) | none => some x) none

/-! ## Tile loads and stores (R322 to R325)

A word checks its rows and forks the transfer of those that pass: an engine operation, whose local range, from its first byte to its last, takes one
scoreboard entry (log 17: DESIGN CHOICE, unsafe). -/

/-- A stretch of bytes cut at 64-byte blocks: address and length of each part. -/
def partsOf : Nat → Word → Nat → List (Word × Nat)
  | 0, _, _ => []
  | fuel + 1, a, n =>
    if n = 0 then [] else
    let k := min n (64 - a.toNat % 64)
    (a, k) :: partsOf fuel (a + BitVec.ofNat 64 k) (n - k)

/-- The translations of some parts of a row, and what is moved there. -/
abbrev RowMove := List (TilePart × Option (TlbEntry × Source))

/-- The places of a stretch of row r that stands at an offset of the tile file, or the fault of its first failing part; after the last part of a load
`fill` zero bytes follow. -/
def placesOf (s : State) (vmt : Nat) (acc : Access) (r fill : Nat) : Nat → List (Word × Nat) → Except Trap RowMove
  | _, [] => .ok []
  | off, (a, n) :: t =>
    match elemPlace s 2 vmt 1 acc a with
    | .error e => .error e
    | .ok (k, use) => match placesOf s vmt acc r fill (off + n) t with
      | .error e => .error e
      | .ok l =>
        let store := acc == .store
        .ok (({ row := r, addr := a, key := k, off := off, len := n, data := if store then tileBytes s off n else [],
                fill := if store || !t.isEmpty then 0 else fill }, use) :: l)

/-- What row r of a tile moves: its codes, then for e2m1 its records; checked for misalignment, then place by place. -/
def rowMoves (s : State) (vmt : Nat) (acc : Access) (n : Nat) (m : Mshape) (base stride : Word) (r : Nat) : Except Trap RowMove :=
  let addr := base + BitVec.ofNat 64 r * stride
  let size := max 1 (fmtBits m.fmt / 8)
  let rb := rowBytes m
  let trap (code : Nat) : Trap := { code := code, tval := addr, info := sfinfoOf false 2 vmt acc }
  if rb ≠ 0 ∧ addr.toNat % size ≠ 0 then .error (trap (if acc == .load then 4 else 6)) else
  match placesOf s vmt acc r (128 - rb) (tileOff n r 0) (partsOf 4 addr rb) with
  | .error e => .error e
  | .ok l =>
    let bare : RowMove := if rb = 0 ∧ acc = .load then [({ row := r, addr := addr, key := 0, off := tileOff n r 0, len := 0, data := [], fill := 128 }, none)] else []
    if m.fmt ≠ 4 then .ok (bare ++ l) else
    match placesOf s vmt acc r 0 (tileOff (n + 1) 0 (r * 16)) (partsOf 4 (base + BitVec.ofNat 64 m.rows * stride + BitVec.ofNat 64 (r * (rb / 8))) (rb / 8)) with
    | .error e => .error e
    | .ok l' => .ok (bare ++ l ++ l')

/-- Rows checked in order from r on: those that pass, and the first fault with its row. -/
def checkRows (s : State) (vmt : Nat) (acc : Access) (n : Nat) (m : Mshape) (base stride : Word) : Nat → Nat → RowMove × Option (Nat × Trap)
  | 0, _ => ([], none)
  | cnt + 1, r =>
    match rowMoves s vmt acc n m base stride r with
    | .error e => ([], some (r, e))
    | .ok l => let t := checkRows s vmt acc n m base stride cnt (r + 1); (l ++ t.1, t.2)

/-- The parts of a store as far as the first tile byte in error, with that error's address (R323). -/
def soundParts (s : State) : List TilePart → List TilePart × Option Word
  | [] => ([], none)
  | p :: t =>
    match firstBad (tileKey s.curKey p.off) p.len s with
    | none => let r := soundParts s t; (p :: r.1, r.2)
    | some k =>
      let n := k - tileKey s.curKey p.off
      (if n = 0 then [] else [{ p with len := n, data := p.data.take n }], some (errorAddr k))

/-- A key lies in a core's scratchpad. -/
def inScratch (g key : Nat) : Bool := decide (scratchKey g 0 ≤ key) && decide (key < scratchKey (g + 1) 0)

/-- The local range of a transfer: from the first byte of its parts in the own scratchpad to the last, as offset and length (log 17: DESIGN CHOICE, unsafe). -/
def tileRange (g : Nat) (ps : List TilePart) : Option (Nat × Nat) :=
  match ps.filter (fun p => inScratch g p.key && p.len != 0) with
  | [] => none
  | p :: t =>
    let lo := t.foldl (fun m q => min m q.key) p.key
    let hi := t.foldl (fun m q => max m (q.key + q.len)) (p.key + p.len)
    some (lo - scratchKey g 0, hi - lo)

/-- The tiles that a transfer of a tile of some shape moves. -/
def tilesOf (n : Nat) (m : Mshape) : List Nat := if m.fmt = 4 then [n, n + 1] else [n]

/-- The transfer of rows that have passed their checks is forked. -/
def forkTile (store : Bool) (vmt : Nat) (tiles : List Nat) (l : RowMove) (s : State) : State :=
  let s := usePages (l.filterMap (·.2)) s
  let c := if store then soundParts s (l.map (·.1)) else (l.map (·.1), none)
  if c.1.isEmpty && c.2.isNone then s
  else forkOp s.curKey s.cur.priv (issuerOf s) 0 (.tile store vmt tiles c.1 c.2) (tileRange s.core c.1) (!store) s

/-- A tile transfer: every row is checked, and the rows below the first fault are moved (log 17: DESIGN CHOICE, unsafe). -/
def tileTransfer (store first : Bool) (b a : BitVec 5) (d : BitVec 3) (s : State) : State :=
  let n := d.toNat
  let m := shapeOf s n
  let vmt := s.cur.vmt.toNat
  if !blocksOk m then matrixShape s
  else if store && s.cur.release.isSome then s else
  let start := s.cur.vstart
  let c := checkRows s vmt (if store then .store else .load) n m (rx s a) (rx s b) (m.rows - start) start
  if (match c.2 with | some (_, t) => t.code == heldCode | none => false) then s
  else if (tileRange s.core (c.1.map (·.1))).isSome && scoreboardFull s s.core then s else
  let forked := forkTile store vmt (tilesOf n m) c.1 s
  let moved := if store then forked else (tilesOf n m).foldl (fun s n => validTile n s) forked
  match c.2 with
  | none => retireMatrix moved
  | some (f, t) =>
    if first && decide (start < f) then
      let s := if t.code = 27 then (match moved.cur.task with | some k => fetchPage k.part (t.tval.toNat / 65536) moved | none => moved) else moved
      retireMatrix (setShape n { m with rows := f } s)
    else matrixTrap f (if first then firstFault t else t) (if f = start then s else moved)

/-- An e2m1 tile pair must begin at an even tile (R322) (log 21: DEDUCED, safe). -/
def oddPair (s : State) (d : BitVec 3) : Bool := (shapeOf s d.toNat).fmt == 4 && d.toNat % 2 == 1

/-- `mld`. -/
def execMld (b a : BitVec 5) (d : BitVec 3) (s : State) : Result :=
  matrixWord (mtWord 1 0 b a 0 (tileField d)) false (oddPair s d) [] ((tilesOf d.toNat (shapeOf s d.toNat)).map (40 + ·)) (tileTransfer false false b a d) s
/-- `mldff`. -/
def execMldff (b a : BitVec 5) (d : BitVec 3) (s : State) : Result :=
  matrixWord (mtWord 2 0 b a 0 (tileField d)) false (oddPair s d) [] ((tilesOf d.toNat (shapeOf s d.toNat)).map (40 + ·)) (tileTransfer false true b a d) s
/-- `mst`. -/
def execMst (b a : BitVec 5) (d : BitVec 3) (s : State) : Result :=
  matrixWord (mtWord 3 0 b a 0 (tileField d)) false (oddPair s d) ((tilesOf d.toNat (shapeOf s d.toNat)).map (40 + ·)) []
    (tileTransfer true false b a d) s

/-! ## Products (R218, R326, R327) -/

/-- What an exact sum of products has come to. -/
structure Sum where
  invalid : Bool
  pos : Bool
  neg : Bool
  total : Int
  e : Int
  allNegZero : Bool

/-- A sum of nothing. -/
def Sum.zero : Sum := { invalid := false, pos := false, neg := false, total := 0, e := 0, allNegZero := true }

/-- An integer times a power of two added to a sum. -/
def Sum.addExact (x : Sum) (v e : Int) : Sum :=
  if v = 0 then x
  else if x.total = 0 then { x with total := v, e := e }
  else if e < x.e then { x with total := x.total * 2 ^ (x.e - e).toNat + v, e := e }
  else { x with total := x.total + v * 2 ^ (e - x.e).toNat }

/-- A row's elements as a product reads them: each code with its block's special value. -/
structure Elem where
  code : Nat
  special : Nat

/-- An operand's exact value. -/
def elemExact (t : BitVec 4) (x : Elem) : Exact := if t = 14 then e2m1Exact x.special x.code else exactOf t x.code

/-- One product taken into a sum. -/
def addProduct (t : BitVec 4) (x : Sum) (p : Elem × Elem) : Sum :=
  let a := p.1
  let b := p.2
  let inf (w : Elem) : Bool := t != 14 && isInf t w.code
  let nan (w : Elem) : Bool := t != 14 && isNan t w.code
  if nan a || nan b then { x with invalid := true } else
  let ea := elemExact t a
  let eb := elemExact t b
  let sign := (if t = 14 then ea.neg else isNeg t a.code) != (if t = 14 then eb.neg else isNeg t b.code)
  if inf a || inf b then
    if (!inf a && ea.m = 0) || (!inf b && eb.m = 0) then { x with invalid := true }
    else { x with pos := x.pos || !sign, neg := x.neg || sign, allNegZero := false }
  else
    let v : Int := (ea.m * eb.m : Nat)
    { (x.addExact (if sign then -v else v) (ea.e + eb.e)) with allNegZero := x.allNegZero && ea.m * eb.m == 0 && sign }

/-- The exact sum of a row's products (log 44: DESIGN CHOICE, unsafe). -/
def sumOf (t : BitVec 4) (xs ys : List Elem) : Sum :=
  if xs.isEmpty || ys.isEmpty then { Sum.zero with allNegZero := false } else (xs.zip ys).foldl (addProduct t) Sum.zero

/-- c + s with one rounding, RNE (R326). -/
def accumulate (c : Nat) (x : Sum) : Res :=
  let bad := x.invalid || (x.pos && x.neg)
  if isNan 9 c then Res.flagged (quieted 9 c) (if isSnan 9 c || bad then fNV else 0)
  else if bad then Res.flagged (canonicalNan 9) fNV
  else if x.pos || x.neg then
    if isInf 9 c && isNeg 9 c != x.neg then Res.flagged (canonicalNan 9) fNV else Res.plain (withSign 9 x.neg (maxCode 9 + 1))
  else if isInf 9 c then Res.plain c
  else sumRound 9 0 (exactOf 9 c) { neg := if x.total = 0 then x.allNegZero else decide (x.total < 0), m := x.total.natAbs, e := x.e }

/-- s alone rounded once. -/
def roundSum (x : Sum) : Res :=
  if x.invalid || (x.pos && x.neg) then Res.flagged (canonicalNan 9) fNV
  else if x.pos || x.neg then Res.plain (withSign 9 x.neg (maxCode 9 + 1))
  else if x.total = 0 then Res.plain (withSign 9 x.allNegZero 0)
  else roundTo 9 0 false (decide (x.total < 0)) x.total.natAbs x.e

/-- The elements of row r of a tile. -/
def rowElems (s : State) (t : BitVec 4) (n r cols : Nat) : List Elem :=
  let codes := (elemsOf t (tileBytes s (tileOff n r 0) (bytesOfElems t cols))).take cols
  if t = 14 then
    let recs := tileBytes s (tileOff (n + 1) 0 (r * 16)) 16
    codes.zipIdx.map (fun x => { code := x.1, special := (recs.getD (x.2 / 32 * 2 + 1) 0).toNat })
  else codes.map (fun c => { code := c, special := 0 })

/-- A row uses a record with a reserved SPECIAL. -/
def rowReserved (t : BitVec 4) (xs : List Elem) : Bool := t == 14 && xs.any (fun x => x.special % 128 == 0x7F)

/-- One element of a product. -/
def productElem (f : BitVec 3) (c : Nat) (xs ys : List Elem) : Res :=
  let t := fmtType f
  if f = 5 then
    let sum := (xs.zip ys).foldl (fun (n : Int) p => n + toSigned 8 p.1.code * toSigned 8 p.2.code) 0
    Res.plain (wrap 32 (c + sum))
  else if f = 0 ∨ f = 1 then accumulate c (sumOf t xs ys)
  else roundSum (sumOf t xs ys)

/-- A product into one accumulator: the output elements from `start` up to `stop` in row-major order. -/
def productInto (f : BitVec 3) (acc a b start stop : Nat) (s : State) : State :=
  let t := fmtType f
  let ma := shapeOf s a
  let mb := shapeOf s b
  let ys := (upTo mb.rows).map (fun j => rowElems s t b j mb.cols)
  (upTo ma.rows).foldl (fun s i =>
    let xs := rowElems s t a i ma.cols
    (upTo mb.rows).foldl (fun s j =>
      if i * 128 + j < start ∨ stop ≤ i * 128 + j then s else
      let r := productElem f (accAt s acc i j) xs (ys.getD j [])
      { (putTile (accOff acc i j) (bytesOf 4 r.w) s) with cur := raiseFlags r.f (putTile (accOff acc i j) (bytesOf 4 r.w) s).cur }) s) s

/-- The first output element from `start` on whose operands hold an uncorrectable error or use a record with a reserved SPECIAL,
with its trap: an error of any operand first (R196, R197, R220); `outs` are the accumulators with the B tile of each. -/
def productStop (s : State) (f : BitVec 3) (a : Nat) (outs : List (Nat × Nat)) (start : Nat) : Option (Nat × Trap) :=
  let t := fmtType f
  let ma := shapeOf s a
  let reserved (m : Mshape) (n i : Nat) : Bool := rowReserved t (rowElems s t n i m.cols)
  let resA := (upTo ma.rows).map (reserved ma a)
  let resB := outs.map (fun o => (upTo (shapeOf s o.2).rows).map (reserved (shapeOf s o.2) o.2))
  if s.badCells.isEmpty && !resA.any id && !resB.any (·.any id) then none else
  let errA := (upTo ma.rows).map (rowError s ma a)
  let errB := outs.map (fun o => (upTo (shapeOf s o.2).rows).map (rowError s (shapeOf s o.2) o.2))
  let trapAt (i j : Nat) : Option Trap :=
    match (errA.getD i none).orElse (fun _ => (errB.findSome? (fun l => l.getD j none)).orElse (fun _ => outs.findSome? (fun o => tileError s (accOff o.1 i j) 4))) with
    | some x => some x
    | none => if resA.getD i false || resB.any (·.getD j false) then some (checkTrap s 31 0 2 .data) else none
  (upTo ma.rows).findSome? (fun i => (upTo ((outs.map (fun o => (shapeOf s o.2).rows)).foldl max 0)).findSome? (fun j =>
    if i * 128 + j < start then none else (trapAt i j).map (fun x => (i * 128 + j, x))))

/-- The products of one A tile with the B tile of each accumulator, of the elements from `start` up to `stop` (log 44: DESIGN CHOICE, unsafe). -/
def productsInto (f : BitVec 3) (a : Nat) (outs : List (Nat × Nat)) (start stop : Nat) (s : State) : State :=
  outs.foldl (fun s o => productInto f o.1 a o.2 start stop s) s

/-- `mop`: M × N elements of a product, in `c0`, in `c1`, or in both from a pair of tiles (log 21: DEDUCED, safe). -/
def execMop (c b a f : BitVec 3) (s : State) : Result :=
  let ta := a.toNat
  let tb := b.toNat
  let pair := c == 2
  let odd := (f == 4 && (ta % 2 == 1 || tb % 2 == 1)) || (pair && tb % 2 == 1)
  let four := f == 4
  let reads := [40 + ta] ++ (if four then [41 + ta] else []) ++ [40 + tb] ++ (if four || pair then [41 + tb] else [])
  matrixWord (mtWord 5 c (tileField b) (tileField a) f 0) false odd reads [] (fun s =>
    let ma := shapeOf s ta
    let mb := shapeOf s tb
    let m2 := shapeOf s (tb + 1)
    if ma.fmt ≠ f ∨ mb.fmt ≠ f ∨ ma.cols ≠ mb.cols ∨ !blocksOk ma ∨ (pair ∧ m2 ≠ mb) then matrixShape s else
    let start := s.cur.vstart
    let outs := if pair then [(0, tb), (1, tb + 1)] else [(if c = 1 then 1 else 0, tb)]
    match productStop s f ta outs start with
    | some (e, t) => matrixTrap e t (productsInto f ta outs start e s)
    | none => retireMatrix (productsInto f ta outs start 16384 s)) s

/-! ## Scales (R219, R328) -/

/-- c + 2^(sa + sb - 254) × p, rounded once with RNE. -/
def scaleElem (c p sa sb : Nat) : Res :=
  let k : Int := sa + sb - 254
  match nanOf 9 [c, p] with
  | some r => r
  | none =>
    if isInf 9 p then
      if isInf 9 c && isNeg 9 c != isNeg 9 p then Res.flagged (canonicalNan 9) fNV else Res.plain p
    else if isInf 9 c then Res.plain c
    else let x := exactOf 9 p; sumRound 9 0 (exactOf 9 c) { x with e := x.e + k }

/-- A scale byte as `msca` meets it, read as a load reads it: its translation's fault, then its place's error (R196), whether it is reserved
(R220), its value, and whether the range scoreboard holds it up (R152). -/
structure Scale where
  fault : Option Trap
  error : Option Trap
  reserved : Option Trap
  value : Nat
  use : Option (TlbEntry × Source)
  stall : Bool
  deriving DecidableEq, Repr

/-- The scale byte at an address of the space `vmt` names. -/
def scaleByte (s : State) (vmt : Nat) (addr : Word) : Scale :=
  match elemPlace s 2 vmt 1 .load addr with
  | .error t => { fault := some t, error := none, reserved := none, value := 0, use := none, stall := false }
  | .ok (k, use) =>
    let b := ((seeBytes s .vector k 1).headD 0).toNat
    { fault := none, error := if hasError k 1 s then some (errorOf (errorAddr k) 2 vmt .load) else none,
      reserved := if b = 255 then some { code := 31, tval := addr, info := sfinfoOf false 2 vmt .data } else none,
      value := b, use := use, stall := scoreboardStalls s k 1 false }

/-- The trap at an element whose scales are x and y, and whose accumulators' error is `e`: translation, error, reserved code (R196). -/
def scaleTrap (x y : Scale) (e : Option Trap) : Option Trap :=
  [x.fault, y.fault, x.error, y.error, e, x.reserved, y.reserved].findSome? id

/-- The 128 scale bytes from an address on. -/
def scalesAt (s : State) (vmt : Nat) (addr : Word) : List Scale := (upTo 128).map (fun i => scaleByte s vmt (addr + BitVec.ofNat 64 i))

/-- The trap of each output element of `msca`: `acc` takes the sum. -/
def scaleStop (s : State) (acc : Nat) (sa sb : List Scale) (n : Nat) : Option Trap :=
  match sa[n / 128]?, sb[n % 128]? with
  | some x, some y =>
    scaleTrap x y (if s.badCells.isEmpty then none else
      (tileError s (accOff acc (n / 128) (n % 128)) 4).orElse (fun _ => tileError s (accOff (1 - acc) (n / 128) (n % 128)) 4))
  | _, _ => none

/-- An element of `msca` over the accumulators of `s`, put into `t`. -/
def scaleInto (s : State) (acc : Nat) (sa sb : List Scale) (t : State) (n : Nat) : State :=
  let i := n / 128
  let j := n % 128
  let value (l : List Scale) (k : Nat) : Nat := match l[k]? with | some x => x.value | none => 0
  let r := scaleElem (accAt t acc i j) (accAt s (1 - acc) i j) (value sa i) (value sb j)
  let t := putTile (accOff acc i j) (bytesOf 4 r.w) t
  { t with cur := raiseFlags r.f t.cur }

/-- `msca`. -/
def execMsca (c : BitVec 3) (b a : BitVec 5) (s : State) : Result :=
  matrixWord (mtWord 6 c b a 0 0) false false [] [] (fun s =>
    let vmt := s.cur.vmt.toNat
    let acc := if c = 1 then 1 else 0
    let start := s.cur.vstart
    let sa := scalesAt s vmt (rx s a)
    let sb := scalesAt s vmt (rx s b)
    let stop := (upTo (16384 - start)).find? (fun k => (scaleStop s acc sa sb (start + k)).isSome)
    let bound := match stop with | some k => start + k | none => 16384
    let hit := scaleStop s acc sa sb bound
    if (sa ++ sb).any (·.stall) || (match hit with | some t => t.code == heldCode | none => false) then s else
    let t := (upTo (bound - start)).foldl (fun t k => scaleInto s acc sa sb t (start + k)) (usePages ((sa ++ sb).filterMap (·.use)) s)
    match hit, stop with
    | some tr, some _ => matrixTrap bound tr t
    | _, _ => retireMatrix t) s

/-! ## Row moves and output (R330, R331) -/

/-- The error of a chain whose first n bytes a word reads (R132, R197). -/
def headError (r : Reg) (n : Nat) : Option Word := (r.bad.find? (fun b => decide (b.1 < n))).map (·.2.2)

/-- The trap of a register whose table entries a result would be written over and are in error (R132). -/
def entryTrap (s : State) (rs : List Nat) : Option Trap :=
  let k := coreAt s s.core
  match rs.find? (fun r => badEntryIn k (vreg s.cur r)) with
  | some r => some (errorOf (((regOf k (vreg s.cur r)).bad.map (·.2.2)).headD 0) 2 s.cur.vmt.toNat .data)
  | none => none

/-- `mrow.in`. -/
def execMrowIn (b a : BitVec 5) (f d : BitVec 3) (s : State) : Result :=
  let n := d.toNat
  let four := f == 4
  matrixWord (mtWord 7 0 b a f (tileField d)) true (four && (n % 2 == 1 || a.toNat % 2 == 1)) ([a.toNat] ++ if four then [a.toNat + 1] else [])
    ([40 + n] ++ if four then [41 + n] else []) (fun s =>
    let m := shapeOf s n
    let row := (rx s b).toNat
    if m.fmt ≠ f ∨ !blocksOk m ∨ m.rows ≤ row then matrixShape s else
    let k := coreAt s s.core
    let src := regOf k (vreg s.cur a.toNat)
    let recs := regOf k (vreg s.cur (a.toNat + 1))
    let rb := rowBytes m
    match (headError src rb).orElse (fun _ => if four then headError recs (m.cols / 16) else none) with
    | some e => matrixTrap 0 (errorOf e 2 s.cur.vmt.toNat .data) s
    | none =>
      let short := decide (src.bytes.length < rb) || (four && decide (recs.bytes.length < m.cols / 16))
      let fit (bs : List Byte) (used n : Nat) : List Byte := (bs.take used ++ List.replicate n 0).take n
      let s := validTile n (putTile (tileOff n row 0) (fit src.bytes rb 128) s)
      let s := if four then validTile (n + 1) (putTile (tileOff (n + 1) 0 (row * 16)) (fit recs.bytes (m.cols / 16) 16) s) else s
      retireMatrix (if short then { s with cur := raiseVFlags vShort s.cur } else s)) s

/-- `mrow.out`. -/
def execMrowOut (b : BitVec 5) (a f : BitVec 3) (d : BitVec 5) (s : State) : Result :=
  let n := a.toNat
  let four := f == 4
  matrixWord (mtWord 7 1 b (tileField a) f d) true (four && (n % 2 == 1 || d.toNat % 2 == 1)) ([40 + n] ++ if four then [41 + n] else []) [] (fun s =>
    let m := shapeOf s n
    let row := (rx s b).toNat
    if m.fmt ≠ f ∨ !blocksOk m ∨ m.rows ≤ row then matrixShape s else
    match (rowError s m n row).orElse (fun _ => entryTrap s ([d.toNat] ++ if four then [d.toNat + 1] else [])) with
    | some t => matrixTrap 0 t s
    | none =>
    let bs := tileBytes s (tileOff n row 0) (rowBytes m)
    let out := match writeResult s.curKey d.toNat (fmtType f) bs.length 0 bs s with
      | some s => if four then (let rs := tileBytes s (tileOff (n + 1) 0 (row * 16)) (m.cols / 16); writeResult s.curKey (d.toNat + 1) 2 rs.length 0 rs s) else some s
      | none => none
    match out with
    | some s => retireMatrix s
    | none => matrixTrap 0 (poolTrap s 2) s) s

/-- `macc.out`. -/
def execMaccOut (c : BitVec 1) (b a : BitVec 5) (f : BitVec 3) (d : BitVec 5) (s : State) : Result :=
  matrixWord (mtWord 8 (c.setWidth 3) b a f d) true false [] [] (fun s =>
    let first := (rx s a).toNat
    let cnt := (rx s b).toNat
    let t := fmtType f
    if 128 < first + cnt ∨ 16384 < bytesOfElems t (128 * cnt) then matrixShape s else
    match (tileError s (accOff c.toNat first 0) (cnt * 512)).orElse (fun _ => entryTrap s [d.toNat]) with
    | some t => matrixTrap 0 t s
    | none =>
    let words := elemsOf 9 (tileBytes s (accOff c.toNat first 0) (cnt * 512))
    let rs := words.map (fun w => if t = 9 then Res.plain w else convert 9 t s.cur.frm (t == 12 || t == 13) w)
    let bs := bytesOfList t 0 (rs.map (·.w))
    match writeResult s.curKey d.toNat t bs.length 0 bs s with
    | some s => retireMatrix (raiseAll (rs.foldl (fun g r => g.add r) Flags.none) s)
    | none => matrixTrap 0 (poolTrap s 2) s) s

/-! ## Gangs (R332, R333) -/

/-- The status of a gang record, and its rows, columns and cores (log 53: DESIGN CHOICE, unsafe). -/
def gangStatus (s : State) (r : List Byte) : Nat × Nat × Nat × List Nat :=
  let rows := recNat r 0 1
  let cols := recNat r 1 1
  let used := (r.drop 8).take (rows * cols)
  let cores := used.map (fun b => s.die * 48 + b.toNat)
  let mine (g : Nat) : Bool := match s.cur.task with | some t => (match partAt s t.part with | some p => p.cores.contains g | none => false) | none => false
  let bad := !(decide (1 ≤ rows) && decide (rows ≤ 8) && decide (1 ≤ cols) && decide (cols ≤ 4)) || !recZero r 2 6 || !recZero r 40 24 ||
    !((r.drop (8 + rows * cols)).take (32 - rows * cols)).all (· == 0xFF) || used.eraseDups.length != used.length
  let st := if bad then 1
    else if used.any (fun b => decide (40 ≤ b.toNat)) || !cores.all mine then 2
    else if cores.any (fun g => s.gangs.any (fun x => x.cores.contains g)) then 3
    else if (upTo 255).all (fun i => s.gangs.any (·.num == i + 1)) then 4
    else 0
  (st, rows, cols, cores)

/-- The first gang number not taken, from a start round (log 6: which one is open). -/
def probeGang (s : State) : Nat → Nat → Nat
  | 0, n => n % 255 + 1
  | fuel + 1, n => if s.gangs.any (·.num == n % 255 + 1) then probeGang s fuel (n + 1) else n % 255 + 1

/-- What `mgang` reports on the running task's gang. -/
def gangReport (s : State) : Word :=
  match s.cur.task with
  | none => BitVec.ofNat 64 (5 * 2 ^ 16)
  | some t =>
    match gangOf t.operands with
    | none => BitVec.ofNat 64 (5 * 2 ^ 16)
    | some (g, k) =>
      match s.gangs.find? (·.num == g) with
      | some x => BitVec.ofNat 64 (k % x.cols * 2 ^ 11 + k / x.cols * 2 ^ 8 + g)
      | none => BitVec.ofNat 64 (5 * 2 ^ 16)

/-- `mgang`: the record is read in global virtual memory (log 53: DESIGN CHOICE, unsafe). -/
def execMgang (a d : BitVec 5) (s : State) : Result :=
  matrixWord (mtWord 9 0 0 a 0 d) false false [] [] (fun s =>
    if a = 0 then retireMatrix (wx d (gangReport s) s) else
    match elemPlace s 2 0 64 .load (rx s a) with
    | .error t => if t.code = heldCode then s else matrixTrap 0 t s
    | .ok (k, use) =>
      if hasError k 64 s then matrixTrap 0 (errorOf (errorAddr k) 2 0 .load) s else
      let st := gangStatus s (seeBytes s .vector k 64)
      let s := useOne use s
      if st.1 ≠ 0 then retireMatrix (wx d (BitVec.ofNat 64 (st.1 * 2 ^ 16)) s) else
      let n := probeGang s 255 (Config.segment (freeIndex s 2))
      let w := who s
      let g : Gang := { num := n, part := w.part, region := w.region, die := s.die, rows := st.2.1, cols := st.2.2.1, cores := st.2.2.2 }
      retireMatrix (wx d (BitVec.ofNat 64 n) { s with gangs := s.gangs ++ [g] })) s

end Sys2Proof.Machine
end

