-- ==== Sys2Proof/Machine/Rays.lean ====
section
/-! DEFINITION. Rays (R128, R201, R334, R339 to R343): opening, closing, granting, sending and receiving. -/

namespace Sys2Proof.Machine

/-! ## Ends -/

/-- The ray at which a thread holds an end of a handle, with its die. -/
def rayWith (f : Ray → Option RayEnd) (s : State) (thread handle : Nat) : Option (Nat × Ray) :=
  (upTo 8).findSome? (fun d => ((dieAt s d).rays.find? (fun r => match f r with
    | some e => e.thread == thread && e.handle == handle
    | none => false)).map (fun r => (d, r)))

/-- A ray changed. -/
def updRay (d : Nat) (r : Ray) (f : Ray → Ray) (s : State) : State :=
  updDie s d (fun x => { x with rays := x.rays.map (fun y => if y.key == r.key && y.part == r.part then f y else y) })

/-- Ends that a thread holds. -/
def endsOf (s : State) (thread : Nat) : Nat :=
  (upTo 8).foldl (fun n d => (dieAt s d).rays.foldl (fun n r =>
    let one (e : Option RayEnd) : Nat := match e with | some e => if e.thread = thread then 1 else 0 | none => 0
    n + one r.send + one r.recv) n) 0

/-- Handles in use (log 6: DESIGN CHOICE, safe). -/
def rayHandles (s : State) : List Nat :=
  (upTo 8).flatMap (fun d => (dieAt s d).rays.flatMap (fun r => (r.send.toList ++ r.recv.toList).map (·.handle)))

/-- The first nonzero 32-bit number not taken, from a start round (log 6: which one is open). -/
def probeHandle (taken : List Nat) : Nat → Nat → Nat
  | 0, n => n % (2 ^ 32 - 1) + 1
  | fuel + 1, n => if taken.contains (n % (2 ^ 32 - 1) + 1) then probeHandle taken fuel (n + 1) else n % (2 ^ 32 - 1) + 1

/-- Segments of a thread's core that may be set aside for it: outside every reserve, within its region's budget (R340) (log 46: DESIGN CHOICE, unsafe). -/
def asideBudget (s : State) (thread : Nat) : Nat :=
  let g := coreOfThread s thread
  match taskOfThread s thread with
  | some t => min (pfree s g - reserves s g) (segBudget s t.part t.region)
  | none => pfree s g - reserves s g

/-- n segments charged to a thread's region (log 46: DESIGN CHOICE, unsafe). -/
def chargeThread (thread n : Nat) (s : State) : State :=
  match taskOfThread s thread with | some t => chargeSegs t.part t.region n s | none => s

/-- The ends of a ray stand on different cores. -/
def crossCore (s : State) (r : Ray) : Bool :=
  match r.send, r.recv with
  | some a, some b => coreOfThread s a.thread != coreOfThread s b.thread
  | _, _ => false

/-- A failure of `ray.open` and `bar.init`: bit [63] and a status. -/
def failure (status : Nat) : Word := BitVec.ofNat 64 (2 ^ 63 + status)

/-- `ray.open` of a configuration and a key: what `xd` receives. Permits granted before a sender on another core connects have
their segments set aside as far as the pool covers them (log 46: DESIGN CHOICE, unsafe). -/
def openRay (cfg : Nat) (key : Word) (s : State) : Word × State :=
  let send := bit cfg 0
  let mode := bits cfg 2 1
  let target := bits cfg 5 3
  let rays := (dieAt s s.die).rays
  let part := (who s).part
  let thread := threadOf s.cur
  if cfg / 64 ≠ 0 ∨ mode = 3 ∨ (mode ≠ 0 ∧ (send ∨ !isDCore s.core)) ∨ (mode = 0 ∧ target ≠ 0) ∨ (mode = 2 ∧ 1 < target) then (failure 1, s)
  else if rays.any (fun r => r.key == key && (if send then r.send.isSome else r.recv.isSome)) then (failure 2, s)
  else if 16 ≤ endsOf s thread then (failure 3, s)
  else
    let h := probeHandle (rayHandles s) 16384 (Config.segment (freeIndex s 3))
    let e : RayEnd := { thread := thread, handle := h, mode := mode, target := target }
    let add (r : Ray) : Ray := if send then { r with send := some e } else { r with recv := some e, cursor := 0 }
    match rays.find? (fun r => r.key == key && r.part == part) with
    | some r =>
      let r' := add r
      let n := match r'.recv with | some e => if crossCore s r' then min (r'.granted - r'.arrived) (asideBudget s e.thread) else 0 | none => 0
      let s := match r'.recv with | some e => chargeThread e.thread n s | none => s
      let s := updRay s.die r (fun _ => { r' with aside := n }) s
      (BitVec.ofNat 64 h, match r.send with | some e => senderDue e s | none => s)
    | none =>
      if 1024 ≤ rays.length then (failure 4, s) else
      let r : Ray := add { part := part, key := key, send := none, recv := none, cursor := 0, granted := 0, arrived := 0, aside := 0, queue := [] }
      (BitVec.ofNat 64 h, updDie s s.die (fun x => { x with rays := x.rays ++ [r] }))

/-- `ray.open`. -/
def execRayOpen (b a d : BitVec 5) (s : State) : Result :=
  scalarWord (fun s => let r := openRay (rx s a).toNat (rx s b) s; next4 (wx d r.1 r.2)) s

/-- The ray permit trap at decode: a handle that is not open here in the needed direction (R195, R343). -/
def noRay (h : Word) (s : State) : State := raise (checkTrap s 50 h 0 .decode) s

/-- `ray.close` (log 46: DESIGN CHOICE, unsafe). -/
def execRayClose (a : BitVec 5) (s : State) : Result :=
  scalarWord (fun s =>
    let h := (rx s a).toNat
    let th := threadOf s.cur
    if (rayWith Ray.send s th h).isNone && (rayWith Ray.recv s th h).isNone then noRay (rx s a) s
    else next4 (closeEnds (fun e => e.thread == th && e.handle == h) s)) s

/-- The pool-empty trap of a scalar word (log 31: DEDUCED, unsafe). -/
def poolEmpty (s : State) : State := raise (poolTrap s 0) (countEvent 0x023 1 s.curKey s)

/-- `ray.grant`. -/
def execRayGrant (b a : BitVec 5) (s : State) : Result :=
  scalarWord (fun s =>
    let th := threadOf s.cur
    let n := (rx s b).toNat
    match rayWith Ray.recv s th (rx s a).toNat with
    | none => noRay (rx s a) s
    | some (d, r) =>
      let cross := crossCore s r
      if cross && decide (asideBudget s th < n) then poolEmpty s else
      let s := if cross then chargeThread th n s else s
      let s := updRay d r (fun r => { r with granted := r.granted + n, aside := if cross then r.aside + n else r.aside }) s
      next4 (match r.send with | some e => senderDue e s | none => s)) s

/-! ## Sending (R128, R341) -/

/-- The receiver of a message that has come runs its word again. -/
def wakeReceiver (e : RayEnd) (s : State) : State :=
  match waitOfThread s e.thread with
  | some (.rayRecv _ h) | some (.rayForm h) => if h = e.handle then wakeRetry e.thread s else s
  | _ => s

/-- A message enters the receive queue; `n` permits are used, `used` of the segments set aside. -/
def enqueueMsg (d : Nat) (r : Ray) (e : RayEnd) (n used : Nat) (m : Msg) (s : State) : State :=
  wakeReceiver e (updRay d r (fun r => { r with arrived := r.arrived + n, aside := r.aside - used, queue := r.queue ++ [m] }) s)

/-- Bytes that nothing fixes (log 12: DESIGN CHOICE, safe). -/
def openBytes (s : State) (n : Nat) : List Byte := (upTo n).map (fun i => (Config.word (freeIndex s i)).setWidth 8)

/-- What a send comes to. -/
inductive Sent where
  | done (s : State)
  | trap (t : Trap)

/-- The ray permit trap after decode (log 31: DEDUCED, unsafe; log 46: DESIGN CHOICE, unsafe). -/
def permitTrap (unit : Nat) (h : Word) (s : State) : Sent := .trap (checkTrap s 50 h unit .data)

/-- Bytes copied into the receiving core's pool: segments set aside first, then others charged to the receiver (log 17: DESIGN CHOICE, unsafe; log 46: DESIGN CHOICE, unsafe). -/
def copyAcross (unit : Nat) (h : Word) (type : BitVec 4) (bs : List Byte) (d : Nat) (r : Ray) (e : RayEnd) (s : State) : Sent :=
  let blocks := blocksOf 65 bs
  let n := blocks.length
  let extra := n - r.aside
  if asideBudget s e.thread < extra then permitTrap unit h s else
  let put (x : List Piece × State) (b : List Byte) : List Piece × State :=
    let y := newSeg (coreOfThread s e.thread) e.thread (segData b) x.2
    (x.1 ++ [{ seg := y.1, first := 0, count := b.length }], y.2)
  let x := blocks.foldl put ([], chargeThread e.thread extra s)
  .done (enqueueMsg d r e n (min n r.aside) { type := type, pieces := x.1 } x.2)

/-- What a copy to another core takes of bytes whose first error stands at a position: it stops there, and the operation is kept as failed (R132, R197,
R198). -/
def bytesToCopy (bs : List Byte) (bad : Option (Nat × Word)) (s : State) : List Byte × State :=
  match bad with
  | none => (bs, s)
  | some x => (bs.take x.1 ++ openBytes s (bs.length - x.1), keepFailed x.2 s)

/-- The precise trap of a word that consumes an uncorrectable error (R197). -/
def errorSent (unit : Nat) (addr : Word) (s : State) : Sent := .trap (checkTrap s 49 addr unit .data)

/-- A chain sent on a ray (log 17: DESIGN CHOICE, unsafe). -/
def sendChain (h : Word) (c : Chain) (d : Nat) (r : Ray) (s : State) : Sent :=
  let n := ceilDiv (chainLen c) 256
  let reg := regOf (coreAt s s.core) c
  match r.recv with
  | none => permitTrap 0 h s
  | some e =>
    if r.granted - r.arrived < n then permitTrap 0 h s
    else if crossCore s r then let b := bytesToCopy reg.bytes (reg.bad.head?.map (fun x => (x.1, x.2.2))) s; copyAcross 0 h c.type b.1 d r e b.2
    else if badEntryIn (coreAt s s.core) c then errorSent 0 ((reg.bad.map (·.2.2)).headD 0) s
    else
      match addRefs s.curKey c.pieces s with
      | none => .trap (poolTrap s 0)
      | some (ps, s) => .done (passTagsOn s.core ps (enqueueMsg d r e n 0 { type := c.type, pieces := ps } s))

/-- What a send's trap leaves beside it: a pool-empty fault is counted, an uncorrectable error logged (R51, R197). -/
def noteTrap (t : Trap) (s : State) : State :=
  let s := if t.code = 30 then countEvent 0x023 1 s.curKey s else s
  if t.code = 49 then logError s.die 1 (some s.core) t.tval (openField s) s else s

/-- `vsend`. -/
def execVsend (b a : BitVec 5) (s : State) : Result :=
  scalarWord (fun s =>
    let c := vreg s.cur b.toNat
    if s.cur.validMode && !c.valid then raise (checkTrap s 24 (BitVec.ofNat 64 b.toNat) 0 .decode) s else
    match rayWith Ray.send s (threadOf s.cur) (rx s a).toNat with
    | none => noRay (rx s a) s
    | some (d, r) =>
      match sendChain (rx s a) c d r s with
      | .done s => next4 s
      | .trap t => raise t (noteTrap t s)) s

/-! ## Receiving (R342) -/

/-- A register takes a message; its references pass as they are. -/
def takeChain (r : Nat) (m : Msg) (s : State) : State := replaceReg s.curKey r { valid := true, type := m.type, pieces := m.pieces } s

/-- A message is released. -/
def dropMsg (m : Msg) (s : State) : State := releaseMsg s.core m s

/-- Rows of 128 bytes written into a tile from the cursor on. -/
def rowsToTile (tile : Nat) : Nat → Nat → List Byte → State → State
  | 0, _, _, s => s
  | n + 1, row, bs, s => rowsToTile tile n ((row + 1) % 128) (bs.drop 128) (putTile (tileOff tile row 0) (bs.take 128) s)

/-- f32 elements added into a row of an accumulator. -/
def addElems (acc row : Nat) : Nat → List Nat → State → State
  | _, [], s => s
  | col, x :: t, s =>
    let r := arith 9 0 .add (accAt s acc row col) x 0
    let s := putTile (accOff acc row col) (bytesOf 4 r.w) s
    addElems acc row (col + 1) t { s with cur := raiseFlags r.f s.cur }

/-- Rows of 512 bytes added into an accumulator from the cursor on. -/
def rowsToAcc (acc : Nat) : Nat → Nat → List Byte → State → State
  | 0, _, _, s => s
  | n + 1, row, bs, s => rowsToAcc acc n ((row + 1) % 128) (bs.drop 512) (addElems acc row 0 (elemsOf 9 (bs.take 512)) s)

/-- The message at the head of a ray is received in the end's mode. -/
def receive (dst d : Nat) (r : Ray) (e : RayEnd) (m : Msg) (s : State) : State :=
  let pop (rows : Nat) : State → State := updRay d r (fun r => { r with queue := r.queue.drop 1, cursor := (r.cursor + rows) % 128 })
  let k := coreAt s s.core
  if e.mode = 0 then
    let touched : Chain := { valid := true, type := 0, pieces := m.pieces ++ (vreg s.cur dst).pieces }
    if badEntryIn k touched then
      let t := checkTrap s 49 (((regOf k touched).bad.map (·.2.2)).headD 0) 0 .data
      raise t (noteTrap t s)
    else next4 (takeChain dst m (pop 0 s))
  else if e.mode = 1 && tileLoading s e.target then s else
  let bs := (m.pieces.map (pieceBytes k)).flatten
  let size := if e.mode = 1 then 128 else 512
  if bs.length % size ≠ 0 then raise (checkTrap s 48 0 0 .data) s else
  match badRanges k 0 m.pieces with
  | x :: _ => let t := checkTrap s 49 x.2.2 0 .data; raise t (noteTrap t s)
  | [] =>
    let rows := bs.length / size
    let s := if e.mode = 1 then validTile e.target (rowsToTile e.target rows r.cursor bs s) else rowsToAcc e.target rows r.cursor bs s
    next4 (dropMsg m (pop rows s))

/-- A receive whose wait has run out: SHORT, nothing consumed, and in MODE 0 the empty chain. -/
def timedOut (dst h : Nat) (r : Ray) (s : State) : State :=
  let s := { s with cur := raiseVFlags vShort { s.cur with expiredRay := s.cur.expiredRay.filter (· != h) } }
  match r.recv with
  | some e => if e.mode = 0 then replaceReg s.curKey dst Chain.empty s else s
  | none => s

/-- `ray.recv`. -/
def execRayRecv (a d : BitVec 5) (s : State) : Result :=
  scalarWord (fun s =>
    match rayWith Ray.recv s (threadOf s.cur) (rx s a).toNat with
    | none => noRay (rx s a) s
    | some (die, r) =>
      if s.cur.expiredRay.contains (rx s a).toNat then next4 (timedOut d.toNat (rx s a).toNat r s) else
      match r.recv, r.queue with
      | some e, m :: _ => receive d.toNat die r e m s
      | _, _ => beginWait (.rayRecv d.toNat (rx s a).toNat) true s) s

/-! ## Tile rows to a ray (R334) -/

/-- Bytes sent on a ray, the first error among them at a position: to the same core in segments of the sender's, which only the message then names. -/
def sendBytes (unit : Nat) (h : Word) (type : BitVec 4) (bs : List Byte) (bad : Option (Nat × Word)) (d : Nat) (r : Ray) (s : State) : Sent :=
  let n := ceilDiv bs.length 256
  match r.recv with
  | none => permitTrap unit h s
  | some e =>
    if r.granted - r.arrived < n then permitTrap unit h s
    else if crossCore s r then let b := bytesToCopy bs bad s; copyAcross unit h type b.1 d r e b.2
    else
      match bad with
      | some x => errorSent unit x.2 s
      | none =>
      match freshPieces s.curKey (blocksOf 65 bs) s with
      | none => .trap (poolTrap s unit)
      | some (ps, s) => .done (passTagsOn s.core ps (enqueueMsg d r e n 0 { type := type, pieces := ps } s))

/-- `mbcast`. -/
def execMbcast (b : BitVec 5) (a : BitVec 3) (s : State) : Result :=
  matrixWord (mtWord 10 0 b (tileField a) 0 0) false false [40 + a.toNat] [] (fun s =>
    match rayWith Ray.send s (threadOf s.cur) (rx s b).toNat with
    | none => memberTrap (checkTrap s 50 (rx s b) 2 .decode) s
    | some (d, r) =>
      let m := shapeOf s a.toNat
      if !blocksOk m then matrixShape s else
      let off := tileOff a.toNat 0 0
      let bad := (firstBad (tileKey s.curKey off) (m.rows * 128) s).map (fun k => (k - tileKey s.curKey off, errorAddr k))
      match sendBytes 2 (rx s b) (fmtType m.fmt) (tileBytes s off (m.rows * 128)) bad d r s with
      | .done s => retireMatrix s
      | .trap t => matrixTrap 0 t s) s

end Sys2Proof.Machine
end

