-- ==== Sys2Proof/Machine/Engines.lean ====
section
/-! DEFINITION. Engine operations (R63, R152, R176, R198, R335 to R338): `ccopy`, `ctest`, `cwait`, and an operation running to
its end. -/

namespace Sys2Proof.Machine

/-! ## What an operation moves -/

/-- One stretch of an operation: its far address, its scratchpad offset, its length. -/
structure Move where
  far : Word
  off : Nat
  n : Nat
  deriving DecidableEq, Repr

/-- Stretches packed from a scratchpad offset on. -/
def packMoves : Nat → List (Word × Nat) → List Move
  | _, [] => []
  | off, (a, n) :: t => { far := a, off := off, n := n } :: packMoves (off + n) t

/-- A stretch of far memory, cut at 64-byte blocks. -/
def plainMoves (far : Word) (off len : Nat) : List Move := packMoves off (partsOf (len / 64 + 2) far len)

/-- What a copy moves, in order: a stretch, or the elements of a shape in the order of its dimensions; a tile transfer moves its own parts. -/
def movesOf (k : EngineKind) : List Move :=
  match k with
  | .operand _ base off len => plainMoves base off len
  | .tile _ _ _ _ _ => []
  | .copy _ _ far off len size dims =>
    if dims.isEmpty then plainMoves far off len
    else
      let ds : List Dim := dims.map (fun d => { ext := d.1, str := d.2 })
      packMoves off ((upTo (len / size)).map (fun i => (far + BitVec.ofInt 64 (dimOffset ds i), size)))

/-- The far end's space, and whether the operation writes there. -/
def farSpace (k : EngineKind) : Nat := match k with | .copy _ sp _ _ _ _ _ => sp | .operand _ _ _ _ => 0 | .tile _ sp _ _ _ => sp
def writesFar (k : EngineKind) : Bool := match k with | .copy w _ _ _ _ _ _ => w | .operand w _ _ _ => w | .tile w _ _ _ _ => w

/-- The local range of a copy. -/
def localRange (k : EngineKind) : Nat × Nat := match k with | .copy _ _ _ o n _ _ => (o, n) | .operand _ _ o n => (o, n) | .tile _ _ _ _ _ => (0, 0)

/-- The first offset of a core's local range that may not be accessed, with its class (R136, R160). -/
def localFault (s : State) (g off len : Nat) : Option (Nat × Nat) :=
  if len = 0 then none else
  let facet : Option Nat := match facetArea s g with
    | some (b, n) => if overlap off len b n then some (max off b) else none
    | none => none
  let past : Option Nat := if scratchSize g < off + len then some (max off (scratchSize g)) else none
  match facet, past with
  | some o, _ => some (29, o)
  | none, some o => some (26, o)
  | none, none => none

/-- The first byte of a write that stands in a protected word which the write covers only in part and which is in error (log 56: DESIGN CHOICE, unsafe). -/
def badTarget (key n : Nat) (s : State) : Option Nat :=
  firstBad key n { s with badCells := s.badCells.filter (fun b => !(key ≤ b.1 && b.1 + b.2 ≤ key + n)) }

/-- The earliest of some stops, each a number of bytes before it, its class and its address. -/
def firstStop : List (Nat × Nat × Word) → Option (Nat × Nat × Word)
  | [] => none
  | x :: t => match firstStop t with | some y => if y.1 < x.1 then some y else some x | none => some x

/-- An uncorrectable error that an operation has met is logged (R51). -/
def logMet (op : EngineOp) (f : Nat × Word) (s : State) : State :=
  if f.1 = 49 then logError (dieOf (op.key / 4)) 1 (some (op.key / 4)) f.2 (openField s) s else s

/-- A stretch is moved; a fault tells its class and address. Bytes before the failing one are moved (R198). The reads may miss the thread's own writes
that were unfenced at the fork (R176); another core's scratchpad may have to wait for its scoreboard (R152). -/
def runMove (op : EngineOp) (m : Move) (s : State) : State × Option (Nat × Word) :=
  let toFar := writesFar op.kind
  let g := op.key / 4
  let w : Who := { key := op.key, part := op.part, region := op.region, priv := op.priv }
  match spacePlace s w (farSpace op.kind) (if toFar then .store else .load) m.far.toNat with
  | .error c => (s, some (c, m.far))
  | .ok (k, use) =>
    if !inScratch g k && scoreboardStalls s k m.n toFar then (s, some (heldCode, m.far)) else
    let s := match use with | some p => useEntry op.key p.1 p.2 s | none => s
    let near := scratchKey g m.off
    let src := if toFar then near else k
    let dst := if toFar then k else near
    let stops := ((firstBad src m.n s).map (fun b => (b - src, 49, errorAddr b))).toList ++ ((badTarget dst m.n s).map (fun b => (b - dst, 49, errorAddr b))).toList ++
      ((localFault s g m.off m.n).map (fun f => (f.2 - m.off, f.1, BitVec.ofNat 64 f.2))).toList
    let stop := firstStop stops
    let n := match stop with | some x => x.1 | none => m.n
    let bs := if isScratch src then getBytes src n s.mem else seeBeside s op.stale .scalar src n
    let s := if n = 0 then s else writeMem dst bs (clearErrors dst n s)
    match stop with
    | some x => (logMet op x.2 s, some x.2)
    | none => (s, none)

/-- Stretches in order, up to the first fault. -/
def runMoves (op : EngineOp) : List Move → State → State × Option (Nat × Word)
  | [], s => (s, none)
  | m :: t, s =>
    match runMove op m s with
    | (s, none) => runMoves op t s
    | r => r

/-! ## Tile transfers (R323) -/

/-- A tile byte string of the context that issued a load, while its slot still holds it. -/
def fillTile (op : EngineOp) (off : Nat) (bs : List Byte) (s : State) : State :=
  if threadOf (ctxAt s op.key) ≠ op.thread then s else
  updCtx (clearErrors (tileKey op.key off) bs.length s) op.key (fun c => { c with tiles := setBytes off bs c.tiles })

/-- One part of a tile transfer, up to its failing byte. -/
def runPart (op : EngineOp) (p : TilePart) (s : State) : State × Option (Nat × Word) :=
  let toFar := writesFar op.kind
  if !inScratch (op.key / 4) p.key && scoreboardStalls s p.key p.len toFar then (s, some (heldCode, p.addr)) else
  let bad := if toFar then badTarget p.key p.len s else firstBad p.key p.len s
  let n := match bad with | some b => b - p.key | none => p.len
  let s := if toFar then (if n = 0 then s else writeMem p.key (p.data.take n) (clearErrors p.key n s))
    else
      let bs := if isScratch p.key then getBytes p.key n s.mem else seeBeside s op.stale .vector p.key n
      fillTile op p.off (if bad.isSome then bs else bs ++ List.replicate p.fill 0) s
  match bad with
  | some b => (logMet op (49, errorAddr b) s, some (49, errorAddr b))
  | none => (s, none)

/-- The parts of a tile transfer in order, up to the first error; a store ends at the tile byte in error, if there is one. -/
def moveParts (op : EngineOp) (bad : Option Word) : List TilePart → State → State × Option (Nat × Word)
  | [], s => (match bad with | some a => (logMet op (49, a) s, some (49, a)) | none => (s, none))
  | p :: t, s =>
    match runPart op p s with
    | (s, none) => moveParts op bad t s
    | r => r

/-- What an operation does, up to its first fault. -/
def runAll (op : EngineOp) (s : State) : State × Option (Nat × Word) :=
  match op.kind with
  | .tile _ _ _ parts bad => moveParts op bad parts s
  | k => runMoves op (movesOf k) s

/-! ## Forking and ending -/

/-- A copy is forked for a task. -/
def forkEngine (key : Nat) (priv : Priv) (t : Task) (object : Word) (k : EngineKind) (s : State) : State :=
  forkOp key priv { part := t.part, region := t.region, thread := t.thread, key := key, node := t.node, word := 0 } object k (some (localRange k)) (!writesFar k) s

/-- An operation may start: no older entry overlaps its own where one of the two writes (R152). -/
def mayStart (op : EngineOp) (s : State) : Bool :=
  let l := (coreAt s (op.key / 4)).scored
  match l.find? (·.op == op.num) with
  | none => true
  | some e => !(l.takeWhile (·.op != op.num)).any (fun x => (x.writes || e.writes) && overlap x.base x.len e.base e.len)

/-- An operation has left its scoreboard entry and is no longer outstanding. -/
def leaveEngine (op : EngineOp) (s : State) : State :=
  let s := updCore { s with engines := s.engines.filter (·.num != op.num) } (op.key / 4) (fun c => { c with scored := c.scored.filter (·.op != op.num) })
  checkSettled op.part (dropOuts op.part op.region s)

/-- A copy of a declared operand. -/
def copiesOperand (op : EngineOp) : Bool := match op.kind with | .operand _ _ _ _ => true | _ => false

/-- A task that retires has had its operands copied back, as far as they could be: its retirement completes (R67). -/
def checkCopied (thread : Nat) (s : State) : State :=
  if s.engines.any (fun e => e.thread == thread && copiesOperand e && e.failed.isNone) then s else
  match slotOfThread s thread with
  | some k => if (ctxAt s k).state == .waiting .retiring then postOnce (.retireComplete k) s else s
  | none => s

/-- An operation that has ended with a fault is kept until a wait reports it, or its task has ended (R198). -/
def keepFault (op : EngineOp) (f : FaultInfo) (s : State) : State := { s with engines := s.engines ++ [{ op with failed := some f }] }

/-- The end of an operation: of a copy (R337), its writes are released at system scope and its object is incremented, with ESTAT 5 after a
fault. A declared operand's fault goes to the POLICY of its region (R69); one of a task that retires waits for the other copies (R67). -/
def endEngine (op : EngineOp) (fault : Option (Nat × Word)) (s : State) : State :=
  let info (f : Nat × Word) : FaultInfo := { cause := f.1, core := op.key / 4, slot := op.key % 4, node := op.node, detail := f.2 }
  let s := leaveEngine op s
  match op.kind with
  | .tile _ _ _ _ _ => (match fault with | some f => keepFault op (info f) s | none => s)
  | .operand _ _ _ _ =>
    let s := stepClock (dieOf (op.key / 4)) s
    (match fault with
     | none => checkCopied op.thread s
     | some f =>
       if (taskOfThread s op.thread).isNone then deliverOrphan op.part op.region (info f) s
       else if waitOfThread s op.thread = some .retiring then checkCopied op.thread (keepFault op (info f) s)
       else deliver op.part op.region (info f) (some op.thread) true s)
  | .copy _ _ _ _ _ _ _ =>
    let s := completeObject op.part op.region op.object (if fault.isSome then 5 else 0) (stepClock (dieOf (op.key / 4)) s)
    match fault with
    | none => s
    | some f => keepFault op (info f) s

/-- An operation runs; at a remote page it waits for the fetch, unless the fetch of that page has failed; where it needs a die TLB that an invalidation
holds, or another core's scratchpad is claimed by an engine, it comes again (R143, R152) (log 17: DESIGN CHOICE, unsafe). -/
def runEngine (op : EngineOp) (failedPage : Option Nat) (s : State) : State :=
  match runAll op s with
  | (t, some (27, a)) =>
    if failedPage = some (a.toNat / 65536) then endEngine op (some (27, a)) t
    else countEvent 0x051 1 op.key (fetchPage op.part (a.toNat / 65536) s)
  | (t, f) => if (match f with | some x => x.1 == heldCode | none => false) then postOnce (.engineOperationComplete op.num) s else endEngine op f t

/-- ENGINE_OPERATION_COMPLETE. -/
def execEngineOperationComplete (op : Nat) (s : State) : Result :=
  .next (match s.engines.find? (fun e => e.num == op && e.failed.isNone) with
    | none => s
    | some e => if mayStart e s then runEngine e none s else postOnce (.engineOperationComplete op) s)

/-! ## `ccopy` (R335, R336) -/

/-- A command with a bad field (R336). -/
def badCommand (r : List Byte) : Bool :=
  let w := recNat r 32 8
  recNat r 8 8 / 2 ^ 22 != 0 || recNat r 16 8 / 2 ^ 32 != 0 || w / 2 ^ 8 != 0 || bits w 4 1 != 0 || !recZero r 40 24 ||
    decide (4 < bits w 7 5) || (recNat r 16 4 != 0 && recNat r 24 8 != 0)

/-- The operation of a valid command is forked, or completes at once when it moves nothing; a fault of its local range, which is no scalar access, reports the
space of the own scratchpad (log 15: DESIGN CHOICE, unsafe; log 17: DESIGN CHOICE, unsafe). -/
def startCopy (object : Word) (k : EngineKind) (d : BitVec 5) (s : State) : State :=
  let r := localRange k
  match localFault s s.core r.1 r.2 with
  | some (c, o) => raise { code := c, tval := BitVec.ofNat 64 o, info := sfinfoOf false 0 2 (if writesFar k then .load else .store) } s
  | none =>
    if s.cur.release.isSome || scoreboardFull s s.core then s else
    match s.cur.task with
    | none => next4 (wx d 0 s)
    | some t =>
      if r.2 = 0 then next4 (wx d 0 (completeObject t.part t.region object 0 (stepClock s.die s)))
      else next4 (wx d 0 (forkEngine s.curKey s.cur.priv t object k s))

/-- `ccopy`; a shape record that is not aligned takes the shape fault (R158, R336) (log 45: DESIGN CHOICE, unsafe). -/
def execCcopy (b a d : BitVec 5) (s : State) : Result :=
  scalarWord (fun s => readRecord 64 (rx s a) (fun r s =>
    if badCommand r then next4 (wx d 1 s) else
    let w := recNat r 32 8
    let toFar := bit w 0
    let space := bits w 7 5
    let loff := recNat r 8 8
    let shape : Word := BitVec.ofNat 64 (recNat r 24 8)
    if shape = 0 then startCopy (rx s b) (.copy toFar space (BitVec.ofNat 64 (recNat r 0 8)) loff (recNat r 16 4) 1 []) d s
    else if shape.toNat % 64 ≠ 0 then raise (shapeTrap shape s) s
    else readRecord 64 shape (fun h s =>
      match readShape h with
      | none => raise (shapeTrap shape s) s
      | some h =>
        if !h.valid toFar then raise (shapeTrap shape s) s
        else startCopy (rx s b) (.copy toFar space (BitVec.ofNat 64 h.base) loff (h.count * h.size) h.size (h.dims.map (fun x => (x.ext, x.str)))) d s) s) s) s

/-! ## Objects (R257, R338) -/

/-- The result of a wait that is satisfied; it acts as an acquire at system scope (log 49: DEDUCED, unsafe). -/
def satisfied (d : BitVec 5) (obj : Word) (o : List Byte) (s : State) : State :=
  next4 (wx d (waitResult o) (acquire .sys (reported (threadOf s.cur) obj o s)))

/-- `ctest`. -/
def execCtest (b a d : BitVec 5) (s : State) : Result :=
  scalarWord (fun s => readRecord 16 (rx s a) (fun o s =>
    if reached o (rx s b) then satisfied d (rx s a) o s
    else next4 (wx d (BitVec.ofNat 64 (objEstat o * 256 + 3)) s)) s) s

/-- `cwait`: it keeps its slot, and reads again until the object reaches the target (log 49: DEDUCED, unsafe). -/
def execCwait (b a d : BitVec 5) (s : State) : Result :=
  scalarWord (fun s => readRecord 16 (rx s a) (fun o t => if reached o (rx t b) then satisfied d (rx t a) o t else s) s) s

end Sys2Proof.Machine
end

