-- ==== Sys2Proof/Machine/Sync.lean ====
section
/-! DEFINITION. Token routing (R344, R345), barriers (R347 to R351) and collectives (R222, R352, R353). -/

namespace Sys2Proof.Machine

/-! ## `vroute` -/

/-- A route record: capacity, groups per token, groups, experts per group, the descriptor table; none where a field is bad (log 45: DESIGN CHOICE, unsafe). -/
def readRoute (r : List Byte) : Option (Nat × Nat × Nat × Nat × Word) :=
  let w := recNat r 0 8
  let cap := bits w 47 32
  let topg := bits w 18 16
  let ng := bits w 15 8
  let ne := bits w 7 0
  let tab := recNat r 8 8
  if bits w 63 48 ≠ 0 ∨ bits w 31 19 ≠ 0 ∨ !recZero r 16 48 ∨ cap = 0 ∨ topg = 0 ∨ 4 < topg ∨ ng = 0 ∨ 32 < ng ∨ ne = 0 ∨ 64 < ne ∨ tab % 16 ≠ 0 then none
  else some (cap, topg, ng, ne, BitVec.ofNat 64 tab)

/-- A descriptor: its die and plane offset, none where a bit is bad (log 45: DESIGN CHOICE, unsafe). -/
def readDescriptor (r : List Byte) : Option (Nat × Nat) :=
  if recNat r 0 4 % 64 ≠ 0 ∨ 7 < recNat r 4 1 ∨ !recZero r 5 11 then none else some (recNat r 4 1, recNat r 0 4)

/-- The descriptors as a scalar read finds them, one after another; none where the word has trapped or must wait. -/
def readTable : Nat → Word → State → Except State (List (List Byte) × State)
  | 0, _, s => .ok ([], s)
  | n + 1, va, s =>
    match scalarPlace s (who s) .load va.toNat with
    | .error c => .error (raise (scalarTrap c va .load) s)
    | .ok (.mem k, use) =>
      if scoreboardStalls s k 16 false then .error s
      else if hasError k 16 s then .error (errorTrap k .load s)
      else
        (match readTable n (va + 16) (useScalar s.curKey use s) with
         | .error s => .error s
         | .ok (l, s) => .ok (seeBytes s .scalar k 16 :: l, s))
    | .ok (_, _) => (match readTable n (va + 16) s with | .error s => .error s | .ok (l, s) => .ok (List.replicate 16 0 :: l, s))

/-- The groups of a token by rank: those its mask allows, the largest score first, ties to the lowest group. -/
def rankGroups (mask ng ne : Nat) (scores : List Nat) : List Nat :=
  let best (g : Nat) : Int := ((scores.drop (g * ne)).take ne).foldl (fun m w => max m (rank 9 false w)) (rank 9 false 0x7FC00000)
  (sortRanked (fun x y => decide (y < x)) (((upTo ng).filter (bit mask)).map (fun g => (g, best g)))).map (·.1)

/-- A token leaves for an ingress unit. -/
def sendToken (t : Token) (s : State) : State :=
  let (n, s) := freshId s
  post (.tokenArrival n) { s with tokens := s.tokens ++ [{ t with num := n }] }

/-- What `vroute` sends once its record and table are good. -/
def route (cap topg ng ne : Nat) (ds : List (Nat × Nat)) (r : Nat) (s : State) : Nat × State :=
  let k := coreAt s s.core
  let bytesAt (i : Nat) : List Byte := chainBytes k (vreg s.cur (r + i))
  let handles := elemsOf 6 (bytesAt 0)
  let scores := elemsOf 9 (bytesAt 1)
  let masks := elemsOf 6 (bytesAt 2)
  let short := decide (scores.length < handles.length * ng * ne) || decide (masks.length < handles.length)
  let s := if short then { s with cur := raiseVFlags vShort s.cur } else s
  handles.zipIdx.foldl (fun x h =>
    let mine := padTo (ng * ne) ((scores.drop (h.2 * (ng * ne))).take (ng * ne))
    ((rankGroups (masks.getD h.2 0) ng ne mine).take topg).foldl (fun x g =>
      let t : Token := { num := 0, die := (ds.getD (g * ne) (0, 0)).1, issuer := issuerOf s, handle := h.1, group := g, cap := cap,
                         queues := ((ds.drop (g * ne)).take ne).map (·.2), scores := (mine.drop (g * ne)).take ne }
      (x.1 + 1, sendToken t x.2)) x) (0, s)

/-- The experts of one group share a die. -/
def groupsOnDie (ng ne : Nat) (ds : List (Nat × Nat)) : Bool :=
  (upTo ng).all (fun g => ((ds.drop (g * ne)).take ne).all (fun d => d.1 == (ds.getD (g * ne) (0, 0)).1))

/-- The first register of three that a scalar word may not read in valid-bit mode. -/
def invalidReg (s : State) (rs : List Nat) : Option Nat :=
  if s.cur.validMode then rs.find? (fun r => !(vreg s.cur r).valid) else none

/-- A trap of a scalar word that reads an invalid register. -/
def invalidTrap (r : Nat) (s : State) : State := raise (checkTrap s 24 (BitVec.ofNat 64 r) 0 .decode) s

/-- An uncorrectable error in a chain that a scalar word reads. -/
def chainError (s : State) (rs : List Nat) : Option Word :=
  (rs.flatMap (fun r => badRanges (coreAt s s.core) 0 (vreg s.cur r).pieces)).head?.map (fun x => x.2.2)

/-- The trap of it. -/
def chainErrorTrap (a : Word) (s : State) : State := raise (checkTrap s 49 a 0 .data) (logError s.die 1 (some s.core) a (openField s) s)

/-- `vroute` (log 47: DESIGN CHOICE, unsafe). -/
def execVroute (b a d : BitVec 5) (s : State) : Result :=
  let rs := [b.toNat, b.toNat + 1, b.toNat + 2]
  scalarWord (fun s =>
    match invalidReg s rs with
    | some r => invalidTrap r s
    | none =>
      if s.cur.release.isSome then s else
      match chainError s rs with
      | some e => chainErrorTrap e s
      | none =>
        readRecord 64 (rx s a) (fun r s =>
          let bad : Word := BitVec.ofNat 64 (2 ^ 32)
          match readRoute r with
          | none => next4 (wx d bad s)
          | some (cap, topg, ng, ne, tab) =>
            match readTable (ng * ne) tab s with
            | .error s => s
            | .ok (l, s) =>
              let ds := l.filterMap readDescriptor
              if ds.length ≠ ng * ne ∨ !groupsOnDie ng ne ds then next4 (wx d bad s) else
              let x := route cap topg ng ne ds b.toNat s
              next4 (wx d (BitVec.ofNat 64 x.1) x.2)) s) s

/-! ## Barriers -/

/-- Handles in use (log 6: DESIGN CHOICE, safe). -/
def barrierHandles (s : State) : List Nat := (upTo 9).flatMap (fun d => (dieAt s d).barriers.map (·.handle))

/-- `bar.init`. -/
def execBarInit (b a d : BitVec 5) (s : State) : Result :=
  scalarWord (fun s =>
    let pkg := bit (rx s a).toNat 0
    let cnt := (rx s b).toNat
    let home := if pkg then 8 else s.die
    if 1 < (rx s a).toNat ∨ cnt = 0 ∨ 65535 < cnt then next4 (wx d (failure 1) s)
    else if (if pkg then 1024 else 256) ≤ (dieAt s home).barriers.length then next4 (wx d (failure 2) s)
    else
      let h := probeHandle (barrierHandles s) 4096 (Config.segment (freeIndex s 4))
      let w := who s
      let x : Barrier := { handle := h, die := if pkg then none else some s.die, part := w.part, region := w.region, expected := cnt, phase := 0, arrivals := 0,
                           arrived := [], registered := [], contribs := [], plain := false, results := [], broken := false }
      next4 (wx d (BitVec.ofNat 64 h) (updDie s home (fun y => { y with barriers := y.barriers ++ [x] })))) s

/-- A barrier that the focus may use: of its region, and of its die unless it is the package's. -/
def myBarrier (s : State) (h : Nat) : Option Barrier :=
  match barrierAt s h with
  | none => none
  | some b =>
    let w := who s
    let here : Bool := match b.die with | some d => d == s.die | none => true
    if b.part == w.part && b.region == w.region && here then some b else none

/-- The scope of a barrier (log 48: DESIGN CHOICE, unsafe). -/
def barrierScope (b : Barrier) : Scope := match b.die with | some _ => .die | none => .pkg

/-- The last phase that the focus arrived in. -/
def lastPhase (s : State) (h : Nat) : Option Nat := lookupKey h s.cur.lastArrival

/-! ## The combination of a collective (R222) -/

/-- Two contributions combined element by element, each add rounded with RNE. -/
def combineElems (t : BitVec 4) (op : CombOp) (a b : List Nat) : List Nat := (a.zip b).map (fun p => (combine t 0 op p.1 p.2).w)

/-- One level: neighbours are paired, an unpaired one is carried up. -/
def pairUp (f : List Nat → List Nat → List Nat) : List (List Nat) → List (List Nat)
  | a :: b :: t => f a b :: pairUp f t
  | l => l

/-- Levels until one is left. -/
def pairAll (f : List Nat → List Nat → List Nat) : Nat → List (List Nat) → List Nat
  | 0, l => l.headD []
  | fuel + 1, l => match l with | [] => [] | [a] => a | _ => pairAll f fuel (pairUp f l)

/-- Contributions of one core by context, of one die by core, of the package by die. -/
def treeCombine (t : BitVec 4) (op : CombOp) (cs : List Contribution) : List Nat :=
  let f := combineElems t op
  let all (l : List (List Nat)) : List Nat := pairAll f l.length l
  let cores := (upTo 384).filter (fun g => cs.any (·.core == g))
  let ofCore (g : Nat) : List Nat := all ((upTo 4).flatMap (fun i => (cs.filter (fun c => c.core == g && c.slot == i)).map (fun c => elemsOf t c.bytes)))
  let dies := (upTo 8).filter (fun d => cores.any (fun g => dieOf g == d))
  all (dies.map (fun d => all ((cores.filter (fun g => dieOf g == d)).map ofCore)))

/-- A completed phase's results: combined where every arrival was a collective of one operation, length and type; a mismatch
otherwise (log 48: DESIGN CHOICE, unsafe). -/
def phaseResults (b : Barrier) (waiting : Nat → Bool) (nibble : Nat) : List CollResult :=
  match b.contribs with
  | [] => []
  | c :: t =>
    let same := !b.plain && t.all (fun x => x.op == c.op && x.vl == c.vl && x.vtype == c.vtype)
    let bs := if same then bytesOfList c.vtype nibble (treeCombine c.vtype c.op b.contribs) else []
    let waiters := (b.contribs.filter (fun x => waiting x.thread)).map (·.thread)
    waiters.map (fun th => { thread := th, phase := b.phase, status := if same then 0 else 4, bytes := bs })

/-- What the unit holds for the threads that wait in `bar.wait` when a phase completes: OK, whatever befalls the barrier before they resume (R349). -/
def waitersOwed (h : Nat) (b : Barrier) (s : State) : List CollResult :=
  ((threads s).filter (fun th => match waitOfThread s th with | some (.barrier _ g p) => g == h && p == b.phase | _ => false)).map
    (fun th => { thread := th, phase := b.phase, status := 0, bytes := [] })

/-- An arrival is counted; the last of a phase completes it (R348). -/
def countArrival (h : Nat) (s : State) : State :=
  let thread := threadOf s.cur
  let s := updBarrier h (fun b => { b with arrivals := b.arrivals + 1, arrived := b.arrived ++ [thread], registered := if b.registered.contains thread then b.registered else b.registered ++ [thread] }) s
  match barrierAt s h with
  | none => s
  | some b =>
    if b.arrivals < b.expected then s else
    let waiting (th : Nat) : Bool := match waitOfThread s th with | some (.collective _ g _) => g == h | _ => false
    let rs := phaseResults b waiting (padNibble s) ++ waitersOwed h b s
    resumeWaiters h (updBarrier h (fun b => { b with phase := b.phase + 1, arrivals := 0, arrived := [], contribs := [], plain := false, results := b.results ++ rs }) s)

/-- `bar.arrive`: the release, then the count (log 48: DESIGN CHOICE, unsafe). -/
def execBarArrive (a : BitVec 5) (s : State) : Result :=
  scalarWord (fun s =>
    let h := (rx s a).toNat
    let sc := match barrierAt s h with | some b => barrierScope b | none => .die
    match releaseNow s.curKey sc s with
    | none => s
    | some s =>
      match myBarrier s h with
      | none => next4 s
      | some b =>
        if b.broken then next4 s else
        let s := { s with cur := { s.cur with lastArrival := insertKey h b.phase s.cur.lastArrival } }
        next4 (countArrival h (updBarrier h (fun b => { b with plain := true }) s))) s

/-- What `bar.wait` and a collective report. -/
def phaseResult (phase status : Nat) : Word := BitVec.ofNat 64 (phase % 2 ^ 32 * 2 ^ 32 + status)

/-- What the unit held for a thread is taken. -/
def dropResult (h thread : Nat) (s : State) : State := updBarrier h (fun x => { x with results := x.results.filter (fun y => y.thread != thread) }) s

/-- `bar.wait`: a phase that completed while it waited is OK though the barrier has broken since (R349, R350) (log 48: DESIGN CHOICE, unsafe). -/
def execBarWait (a d : BitVec 5) (s : State) : Result :=
  scalarWord (fun s =>
    let h := (rx s a).toNat
    match myBarrier s h with
    | none => next4 (wx d (phaseResult 0 3) s)
    | some b =>
      match lastPhase s h with
      | none => next4 (wx d (phaseResult 0 (if b.broken then 1 else 3)) s)
      | some p =>
        if b.results.any (fun r => r.thread == threadOf s.cur && r.phase == p) then
          next4 (wx d (phaseResult p 0) (acquire (barrierScope b) (dropResult h (threadOf s.cur) s)))
        else if b.broken then next4 (wx d (phaseResult p 1) s)
        else if p < b.phase then next4 (wx d (phaseResult p 0) (acquire (barrierScope b) s))
        else beginWait (.barrier d h p) true s) s

/-- BARRIER_RESUME: a waiter whose phase has completed, or whose barrier broke, goes on. -/
def execBarrierResume (ctx : Nat) (s : State) : Result :=
  let thread := if ctx < 2 ^ 32 then threadOf (ctxAt s ctx) else match s.saved.find? (fun v => savedName v.num == ctx) with | some v => v.task.thread | none => 0
  .next (match waitOfThread s thread with
    | some (.barrier _ _ _) | some (.collective _ _ _) => wakeRetry thread s
    | _ => s)

/-! ## Collectives (R352, R353) -/

/-- A result that the unit holds is taken: written to `vs2` where combined. -/
def takeResult (d : BitVec 5) (vs : Nat) (b : Barrier) (r : CollResult) (s : State) : State :=
  let gone := dropResult b.handle r.thread
  if r.status ≠ 0 then next4 (wx d (phaseResult r.phase r.status) (gone s))
  else if badEntryIn (coreAt s s.core) (vreg s.cur vs) then chainErrorTrap ((chainError s [vs]).getD 0) s else
  match writeResult s.curKey vs s.cur.vtype r.bytes.length 0 r.bytes s with
  | none => poolEmpty s
  | some s => next4 (wx d (phaseResult r.phase 0) (acquire (barrierScope b) (gone s)))

/-- A collective's word: its result if the unit holds it; else a release, a contribution and the wait (log 48: DESIGN CHOICE, unsafe). -/
def collective (op : CombOp) (w : Word32) (b a d : BitVec 5) (s : State) : Result :=
  scalarWord (fun s =>
    let t := s.cur.vtype
    let h := (rx s a).toNat
    let vs := b.toNat
    if t = 0 ∨ !acceptsType (.scan op) t then illegal w 0 s else
    match invalidReg s [vs] with
    | some r => invalidTrap r s
    | none =>
      match myBarrier s h with
      | none => next4 (wx d (phaseResult 0 3) s)
      | some bar =>
        match bar.results.find? (·.thread == threadOf s.cur) with
        | some r => takeResult d vs bar r s
        | none =>
          match chainError s [vs] with
          | some e => chainErrorTrap e s
          | none =>
            match releaseNow s.curKey (barrierScope bar) s with
            | none => s
            | some s =>
              if bar.broken then next4 (wx d (phaseResult ((lastPhase s h).getD 0) 5) s) else
              let es := elemsOf t (chainBytes (coreAt s s.core) (vreg s.cur vs))
              let n := s.cur.vl
              let s := if es.length < n then { s with cur := raiseVFlags vShort s.cur } else s
              let c : Contribution := { thread := threadOf s.cur, core := s.core, slot := s.curKey % 4, op := op, vl := n, vtype := t, bytes := bytesOfList t 0 ((padTo n es).take n) }
              let s := { s with cur := { s.cur with lastArrival := insertKey h bar.phase s.cur.lastArrival } }
              let s := updBarrier h (fun x => { x with contribs := x.contribs ++ [c] }) s
              countArrival h (beginWait (.collective d h bar.phase) true s)) s

/-- `coll.add`. -/
def execCollAdd (b a d : BitVec 5) (s : State) : Result := collective .add (pack 4 b a 4 d 123) b a d s
/-- `coll.min`. -/
def execCollMin (b a d : BitVec 5) (s : State) : Result := collective .min (pack 5 b a 4 d 123) b a d s
/-- `coll.max`. -/
def execCollMax (b a d : BitVec 5) (s : State) : Result := collective .max (pack 6 b a 4 d 123) b a d s
/-- `coll.or`. -/
def execCollOr (b a d : BitVec 5) (s : State) : Result := collective .or (pack 7 b a 4 d 123) b a d s

end Sys2Proof.Machine
end

