-- ==== Sys2Proof/Machine/Tasks.lean ====
section
/-! DEFINITION. Tasks (R65 to R76, R254 to R258): submission, waits, yield, kill, retirement, and the steps at the homes of
completion objects and predecessor words. -/

namespace Sys2Proof.Machine

/-! ## `tsub` -/

/-- What `tsub` reports (log 49: DEDUCED, unsafe). -/
def submitted (d : BitVec 5) (node : Word) (s : State) : State :=
  let w := who s
  match submitNode w.part node s.die (some s.core) true s with
  | (s, .accepted tseq) => next4 (wx d (BitVec.ofNat 64 (tseq.toNat * 2 ^ 32)) s)
  | (_, .bad) => next4 (wx d 1 s)
  | (_, .budget) => next4 (wx d 2 s)
  | (_, .full) => s

/-- `tsub`: the node is read as 128 bytes, after a release at system scope; a full Locus holds the context. -/
def execTsub (a d : BitVec 5) (s : State) : Result :=
  scalarWord (fun s =>
    let node := rx s a
    let go (use : Option (TlbEntry × Source)) : State :=
      match releaseNow s.curKey .sys s with
      | none => s
      | some s => submitted d node (useScalar s.curKey use s)
    if node.toNat % 128 ≠ 0 then (match releaseNow s.curKey .sys s with | none => s | some s => next4 (wx d 1 s)) else
    match scalarPlace s (who s) .load node.toNat with
    | .error c => raise (scalarTrap c node .load) s
    | .ok (.mem k, use) => if scoreboardStalls s k 128 false then s else if hasError k 128 s then errorTrap k .load s else go use
    | .ok (_, _) => go none) s

/-! ## `twait`, `tyield`, `tkill` -/

/-- `twait` (log 49: DEDUCED, unsafe). -/
def execTwait (b a d : BitVec 5) (s : State) : Result :=
  scalarWord (fun s => readRecord 16 (rx s a) (fun o s =>
    if reached o (rx s b) then satisfied d (rx s a) o s else beginWait (.twait d (rx s a) (rx s b)) true s) s) s

/-- `tyield`: with a free save frame the context is saved, ready at once; otherwise nothing. -/
def execTyield (s : State) : Result :=
  scalarWord (fun s =>
    let s := next4 s
    let key := s.curKey
    match s.cur.task with
    | some t => if (freeFrames s t.part).isEmpty then s else beginSave key .wait none s
    | none => s) s

/-- What `tkill` of a handle comes to. -/
def killByHandle (h : Nat) (s : State) : Nat × State :=
  let w := who s
  if h / 65536 ≠ w.part ∨ 4096 ≤ h % 65536 then (1, s) else
  match regionAt s w.part (h % 65536) with
  | none => (1, s)
  | some r =>
    if r.state != .active && r.state != .killing then (1, s)
    else if (ancestry s w.part w.region).contains r.idx then (2, s)
    else if underKill s w.part r.idx then (0, s)
    else (0, checkQuiesced (killSubtree w.part r.idx s))

/-- `tkill`. -/
def execTkill (a d : BitVec 5) (s : State) : Result :=
  scalarWord (fun s => let r := killByHandle (rx s a).toNat s; next4 (wx d (BitVec.ofNat 64 r.1) r.2)) s

/-! ## Retirement (R67) -/

/-- The operands that are copied back at retirement (R63). -/
def copiedBack (t : Task) : List Operand := t.operands.filter (fun o => o.mode == 2 || o.mode == 3)

/-- The end of a task waits: its copies back are writes, which a release in progress holds, and each takes an entry of the range scoreboard (R152, R179). -/
def retireWaits (t : Task) (s : State) : Bool :=
  !(copiedBack t).isEmpty && (s.cur.release.isSome || decide (32 < (coreAt s s.core).scored.length + (copiedBack t).length))

/-- A context begins to retire its task: write operands are copied back, then the rest falls due. -/
def retireTask (s : State) : State :=
  let key := s.curKey
  match s.cur.task with
  | none => next4 s
  | some t =>
    if retireWaits t s then s else
    let s := countEvent 0x002 1 key s
    let s := (copiedBack t).foldl (fun s o => forkEngine key .u t 0 (.operand true o.base (o.loff * 64) o.size) s) s
    checkCopied t.thread { s with cur := { s.cur with state := .waiting .retiring, waitSince := cycleOf s key } }

/-- `tdone`. -/
def execTdone (s : State) : Result := scalarWord retireTask s

/-- Successors of a retired node are decremented in list order (log 54: DESIGN CHOICE, unsafe). -/
def decrementAll (t : Task) (core : Nat) (s : State) : State :=
  match deviceRead s t.part t.node 128 with
  | some n => (successors s t.part n).foldl (fun s a => decrement t.part t.region a core false s) s
  | none => s

/-- Copies back of a thread that ended with a fault (R67 step 1). -/
def failedCopies (s : State) (thread : Nat) : List EngineOp := s.engines.filter (fun e => e.thread == thread && copiesOperand e && e.failed.isSome)

/-- The steps of R67 after the release: a fault of step 1 has gone to the POLICY of the region first, and unless that has ended the task the rest follows with
ESTAT 3. -/
def finishRetire (key : Nat) (t : Task) (s : State) : State :=
  let finish (estat : Nat) (s : State) : State :=
    checkQuiesced (checkRetire t.part t.region (endContext key false (decrementAll t (key / 4) (completeObject t.part t.region t.comp estat s))))
  match (failedCopies s t.thread).findSome? (·.failed) with
  | none => finish 0 s
  | some f =>
    let s := { s with engines := s.engines.filter (fun e => !(e.thread == t.thread && copiesOperand e && e.failed.isSome)) }
    let s := deliver t.part t.region f (some t.thread) true s
    if waitOfThread s t.thread = some .retiring then finish 3 s else s

/-- RETIRE_COMPLETE (R67 steps 2 to 5): a release at system scope, the object, the successors, the context (log 54: DESIGN CHOICE, unsafe). -/
def execRetireComplete (ctx : Nat) (s : State) : Result :=
  let c := ctxAt s ctx
  .next (match c.task with
    | none => s
    | some t =>
      if c.state != .waiting .retiring then s else
      match releaseNow ctx .sys s with
      | none => postOnce (.retireComplete ctx) s
      | some s => finishRetire ctx t s)

/-! ## Steps at a home -/

/-- COMPLETION_OBJECT_UPDATE. -/
def execCompletionObjectUpdate (part region : Nat) (object : BitVec 64) (estat : BitVec 8) (s : State) : Result :=
  .next (checkSettled part (completeObject part region object estat.toNat s))

/-- PRED_DECREMENT. -/
def execPredDecrement (part region : Nat) (node : BitVec 64) (core : Nat) (s : State) : Result :=
  .next (decrement part region node core false s)

/-- CANCELLING_DECREMENT. -/
def execCancellingDecrement (part region : Nat) (node : BitVec 64) (core : Nat) (s : State) : Result :=
  .next (decrement part region node core true s)

/-! ## Holds that end, regions that retire (R70, R73, R84) -/

/-- Held entries of a region become WAITING and due, unless their partition still quiesces. -/
def releaseHeld (which : Entry → Bool) (s : State) : State :=
  (upTo 9).foldl (fun s l =>
    kickLocus l (updLocus l (fun x => { x with entries := x.entries.map (fun e =>
      if e.state == .held && which e && !quiescing s e.part then { e with state := .waiting, due := true, asked := [], answers := [], leftOut := [], awardedNow := [] } else e) }) s)) s

/-- KILL_END: STATE returns to active, or becomes retiring where that was asked. -/
def execKillEnd (part region : Nat) (s : State) : Result :=
  .next (match regionAt s part region with
    | none => s
    | some r =>
      if r.state != .killing then s else
      let s := updRegion s part region (fun r => { r with state := if !r.retirers.isEmpty then .retiring else .active })
      checkRetire part region (releaseHeld (fun e => e.part == part && e.region == region) s))

/-- A region retires: what it holds is freed, and the command that asked is answered. -/
def retireRegion (r : Region) (s : State) : State :=
  let s := s.cores.foldl (fun s c => match c.2.claim with
    | some k => if k.part = r.part ∧ k.region = r.idx then releaseClaim c.1 s else s
    | none => s) s
  let units := (upTo 8).foldl (fun n d => n + (dieAt s d).plane.countP (fun u => u.2 == (r.part, r.idx))) 0
  let s := chargeLine r.part r.idx (fun x => { x with planeUse := x.planeUse - units }) (freePlane (fun p i => p == r.part && i == r.idx) s)
  let s := dropBarriers (fun b => b.part == r.part && b.region == r.idx) s
  let s := { s with gangs := s.gangs.filter (fun g => !(g.part == r.part && g.region == r.idx)) }
  let s := (upTo 8).foldl (fun s d => updDie s d (fun x => { x with tlb := x.tlb.map (fun t =>
    if t.part == r.part && t.pinned == some r.idx then { t with pinned := none } else t) })) s
  let unexclude (c : Core) : Core := { c with excluded := c.excluded.filter (fun x => x != (r.part, r.idx)) }
  let s := { s with cores := s.cores.map (fun (c : Nat × Core) => (c.1, unexclude c.2)) }
  let s := writeBlock r.part r.idx (updRegion s r.part r.idx (fun r => { r with state := .retired }))
  let s := { s with regions := s.regions.filter (fun x => !(x.part == r.part && x.idx == r.idx)) }
  r.retirers.foldl (fun s x => finish x.1 x.2 0 (BitVec.ofNat 64 (handleOf r.part r.idx)) 0 s) s

/-- REGION_RETIRE. -/
def execRegionRetire (part region : Nat) (s : State) : Result :=
  .next (match regionAt s part region with
    | some r => if r.state == .retiring && r.live == 0 && r.outs == 0 then retireRegion r s else s
    | none => s)

/-! ## The region watchdog (R76) -/

/-- The thread that a slot, or a saved image, bears. -/
def threadNamed (s : State) (name : Nat) : Nat :=
  if name < 2 ^ 32 then threadOf (ctxAt s name)
  else match s.saved.find? (fun v => savedName v.num == name) with | some v => v.task.thread | none => 0

/-- A wait on a ray has run out: the word runs again and finds that. -/
def expireRay (thread handle : Nat) (s : State) : State :=
  match slotOfThread s thread with
  | some k => wakeRetry thread (updCtx s k (fun c => { c with expiredRay := handle :: c.expiredRay }))
  | none => wakeRetry thread { s with saved := s.saved.map (fun v => if v.task.thread == thread then { v with expiredRay := handle :: v.expiredRay } else v) }

/-- The phase that a thread waits for has completed, or the barrier has broken, and its resume is on the way. -/
def phaseOver (s : State) (handle phase : Nat) : Bool :=
  match barrierAt s handle with | some b => b.broken || decide (phase < b.phase) | none => true

/-- REGION_WATCHDOG_EXPIRY: the waiting word ends with its timeout status, unless what it waited for has come (R76). -/
def execRegionWatchdogExpiry (ctx : Nat) (s : State) : Result :=
  let th := threadNamed s ctx
  .next (match waitOfThread s th with
    | some (.twait rd _ _) => wakeWith th rd 2 s
    | some (.barrier rd h p) | some (.collective rd h p) => if phaseOver s h p then wakeRetry th s else wakeWith th rd (phaseResult p 2) s
    | some (.rayRecv _ h) | some (.rayForm h) => expireRay th h s
    | _ => s)

end Sys2Proof.Machine
end

