-- ==== Sys2Proof/Machine/Saves.lean ====
section
/-! DEFINITION. Saving a context into a frame and restoring it (R186, R199 to R201), and dispatching a task or a saved context
into a slot (R61, R63, R83, R89). -/

namespace Sys2Proof.Machine

/-! ## The image (R119, R199, R201) -/

/-- The 260 bytes of a descriptor. -/
def descriptorBytes (k : Core) (c : Chain) : List Byte :=
  let word (p : Piece) : Nat := (match lookupKey p.seg k.segs with | some x => x.num | none => 0) * 2 ^ 17 + p.first * 2 ^ 9 + p.count
  ((c.pieces.map word |> padWords).foldr (fun w bs => bytesOf 4 w ++ bs) []) |> (bytesOf 4 (headerWord c c.pieces.length) ++ ·)
where
  /-- 64 piece words. -/
  padWords (l : List Nat) : List Nat := (l ++ List.replicate (64 - l.length) 0).take 64

/-- A ray record. -/
def rayRecord (role handle permits : Nat) : List Byte := bytesOf 8 (role * 2 ^ 32 + handle) ++ bytesOf 8 permits

/-- The sixteen ray records of a thread. -/
def rayRecords (s : State) (thread : Nat) : List Byte :=
  let one (r : Ray) : List (List Byte) :=
    (match r.send with | some e => if e.thread = thread then [rayRecord 1 e.handle (r.granted - r.arrived)] else [] | none => []) ++
      (match r.recv with | some e => if e.thread = thread then [rayRecord 2 e.handle 0] else [] | none => [])
  let l := ((upTo 8).flatMap (fun d => (dieAt s d).rays.flatMap one)).flatten
  (l ++ List.replicate (256 - l.length) 0).take 256

/-- The CSRs of an image, in its order. -/
def imageCsrs : List Nat :=
  [0xCC0, 0xCC1, 0x800, 0x801, 0x802, 0x803, 0x804, 0x805, 0x806, 0x807] ++ (upTo 8).map (0x810 + ·) ++
    [0xCC7, 0x100, 0x105, 0x140, 0x141, 0x142, 0x143, 0x5D0]

/-- The number of a reason. -/
def reasonCode : SaveReason → Nat
  | .preempt => 0 | .wait => 1 | .page => 2 | .runtime => 3

/-- Bits as a number, bit n for element n. -/
def packBits : List Bool → Nat
  | [] => 0
  | b :: t => (if b then 1 else 0) + 2 * packBits t

/-- The first 13,312 bytes of the image of the focus. A context that a stop for pre-emption saves at the first instruction of its handler has a trap pending
(R196 steps 5 and 6) (log 52: DESIGN CHOICE, unsafe). -/
def imageHead (reason : SaveReason) (s : State) : List Byte :=
  let c := s.cur
  let d := isDCore s.core
  let pending := reason == .preempt && c.priv == .s && c.pc == c.stvec
  let flags := (if d then 1 else 0) + (if c.validMode then 2 else 0) + (if pending then 4 else 0) + reasonCode reason * 8
  let node := match c.task with | some t => t.node.toNat | none => 0
  let tseq := match c.task with | some t => t.tseq.toNat | none => 0
  let handle := match c.task with | some t => handleOf t.part t.region | none => 0
  bytesOf 4 0x5A384358 ++ bytesOf 4 flags ++ bytesOf 8 node ++ bytesOf 4 tseq ++ bytesOf 2 s.core ++ bytesOf 1 (s.curKey % 4) ++ bytesOf 1 0 ++
    bytesOf 4 handle ++ bytesOf 4 (if d then 275456 else 13312) ++ bytesOf 8 c.pc.toNat ++ bytesOf 1 (if c.priv == .s then 1 else 0) ++ bytesOf 7 0 ++
    bytesOf 4 (packBits (c.v.toList.map (·.valid))) ++ bytesOf 1 c.pValid.toNat ++ bytesOf 1 c.mValid.toNat ++ bytesOf 10 0 ++
    ((upTo 32).flatMap (fun i => bytesOf 8 (rx s (BitVec.ofNat 5 i)).toNat)) ++
    (imageCsrs.flatMap (fun n => bytesOf 8 (csrRead s n).toNat)) ++ bytesOf 48 0 ++
    (c.p.toList.flatMap (fun p => bytesOf 512 p.toNat)) ++
    (c.v.toList.flatMap (descriptorBytes (coreAt s s.core))) ++
    rayRecords s (threadOf c) ++
    ([0xCC3, 0xCC4, 0x820, 0xCC5].flatMap (fun n => bytesOf 8 (csrRead s n).toNat)) ++ bytesOf 32 0

/-- Listed bytes laid from a key on over a stretch set to zero. -/
def layCells (key n : Nat) (cells : List Host.Cell) (s : State) : State :=
  { s with mem := cells.foldl (fun m c => setByte (key + c.1) c.2 m) (clearBytes key n s.mem) }

/-- What a write of a whole stretch ends: errors, reservations, what others may still miss there. -/
def coverStretch (key n : Nat) (s : State) : State := clearErrors key n (breakReservations none key n (scrubStale none key n s))

/-- Bytes of a context image (R199). -/
def imageLength (core : Nat) : Nat := if isDCore core then 275456 else 13312

/-- The frames that serve among those the runtime keeps: 4 KiB-aligned, and each of the length of a frame, apart from the others (R199) (log 10: DESIGN CHOICE, safe). -/
def frameList : List Nat → List Nat
  | [] => []
  | a :: t => let rest := frameList t; if a % 4096 == 0 && rest.all (fun b => !overlap a 275456 b 275456) then a :: rest else rest

/-- The image of a slot's context written into a frame (log 52: DESIGN CHOICE, unsafe). -/
def writeImage (key frame : Nat) (reason : SaveReason) (s : State) : State :=
  let s := coverStretch (physKey frame) (imageLength (key / 4)) s
  let s := { s with mem := setBytes (physKey frame) (imageHead reason (focus s key)) s.mem }
  if isDCore (key / 4) then layCells (physKey frame + 13312) 262144 (ctxAt s key).tiles s else s

/-! ## A save runs (R200) -/

/-- A tile load of a slot's context still owes its rows: a save waits for it (R200). -/
def loadsTile (s : State) (key : Nat) : Bool :=
  s.engines.any (fun e => e.thread == threadOf (ctxAt s key) && e.failed.isNone && (match e.kind with | .tile false _ _ _ _ => true | _ => false))

/-- SAVE_OWED_WRITES_DELIVERED: a release in progress and the tile loads complete first; then the image is written (log 52: DESIGN CHOICE, unsafe). -/
def execSaveOwedWritesDelivered (ctx : Nat) (s : State) : Result :=
  .next (match (ctxAt s ctx).state with
    | .saving _ _ _ =>
      if (ctxAt s ctx).release.isSome || loadsTile s ctx then postOnce (.saveOwedWritesDelivered ctx) s else postOnce (.saveImageWritten ctx) s
    | _ => s)

/-! ## Dispatch into a slot (R89) -/

/-- The residency table with one operand entered (R83). -/
def enterResident (l : List Resident) (o : Operand) : List Resident :=
  let l := l.filter (fun r => !overlap r.loff r.size (o.loff * 64) o.size)
  let r : Resident := { base := o.base, size := o.size, loff := o.loff * 64 }
  (l ++ [r]).drop (l.length + 1 - 16)

/-- The start state of a task in a slot (R61, R89, R133, R134). -/
def startCtx (t : Task) (n : List Byte) (valid : Bool) (pres : Nat) (sp : Word) : Ctx :=
  let x0 : Vector Word 32 := Vector.replicate 32 0
  let x := (((x0.set 1 0xFFFFFF0400000000#64).set 2 sp).set 10 (BitVec.ofNat 64 (nodeArg n))).set 11 (t.tseq.setWidth 64)
  { Ctx.reset with
    state := .running, task := some t, pc := BitVec.ofNat 64 (nodeEntry n), x := x, pres := pres, validMode := valid,
    vtype := if valid then 9 else 0, v := Vector.replicate 32 (if valid then Chain.invalid else Chain.empty) }

/-- The operands that are copied to the scratchpad before the first instruction (R63). -/
def copiedIn (n : List Byte) : List Operand := (nodeOperands n).filter (fun o => o.mode == 1 || o.mode == 3)

/-- The node of an award's task as the device reads it. -/
def awardNode (a : Award) (s : State) : List Byte := (deviceRead s a.part a.node 128).getD (List.replicate 128 0)

/-- A task starts in a free slot. -/
def startTask (key : Nat) (a : Award) (s : State) : State :=
  let n := awardNode a s
  let (thread, s) := freshId s
  let valid := match regionAt s a.part a.region with | some r => r.eff.start | none => false
  let ops := nodeOperands n
  let t : Task := { thread := thread, node := a.node, tseq := a.tseq, part := a.part, region := a.region, comp := nodeComp n, operands := ops, stack := a.stack }
  let sp : Word := match a.stack, partAt s a.part with
    | some k, some p => p.stkBase + BitVec.ofNat 64 ((k + 1) * p.stkSize)
    | _, _ => 0
  let s := setCtx (clearErrors (tileKey key 0) 262144 s) key (startCtx t n valid a.rsv sp)
  let s := updCore s (key / 4) (fun k => { k with
    resident := (ops.filter (fun o => o.mode == 1 || o.mode == 3 || o.mode == 5)).foldl enterResident k.resident })
  let s := writeNodeState a.part a.region a.node 2 false a.tseq s
  (copiedIn n).foldl (fun s o => forkEngine key .u t 0 (.operand false o.base (o.loff * 64) o.size) s) s

/-- A number of 8 bytes in an image. -/
def imageWord (b : List Byte) (off : Nat) : Word := BitVec.ofNat 64 (recNat b off 8)

/-- Register i of an image (R119): the segments its piece words number, as the pool of the core has them; a number of no segment in use names nothing (log 52: DESIGN CHOICE, unsafe). -/
def imageChain (k : Core) (b : List Byte) (valid : Bool) (i : Nat) : Chain :=
  let off := 4672 + 260 * i
  let h := recNat b off 4
  let piece (j : Nat) : Option Piece :=
    let w := recNat b (off + 4 + 4 * j) 4
    (k.segs.find? (fun x => x.2.num == bits w 28 17)).map (fun x => { seg := x.1, first := bits w 16 9, count := bits w 8 0 })
  { valid := valid, type := BitVec.ofNat 4 (bits h 30 27), pieces := (upTo (bits h 21 15)).filterMap piece }

/-- The context that an image gives; what it does not hold comes from the record of the save (log 52: DESIGN CHOICE, unsafe). -/
def imageCtx (k : Core) (b : List Byte) (tiles : List Host.Cell) (v : Saved) : Ctx :=
  let csr (i : Nat) : Nat := recNat b (320 + 8 * i) 8
  let shape (i : Nat) : Mshape := { fmt := BitVec.ofNat 3 (bits (csr (10 + i)) 26 24), rows := bits (csr (10 + i)) 23 16, cols := bits (csr (10 + i)) 8 0 }
  let valid := recNat b 48 4
  { Ctx.reset with
    state := .running, task := some v.task, priv := if recNat b 40 1 = 1 then .s else .u, pc := imageWord b 32 &&& ~~~3#64,
    x := Vector.ofFn (fun i => if i.val = 0 then 0 else imageWord b (64 + 8 * i.val)),
    vl := csr 0 % 2 ^ 16, vtype := BitVec.ofNat 4 (csr 1), vstart := csr 2 % 2 ^ 16, vcvx := BitVec.ofNat 2 (csr 3), vmt := BitVec.ofNat 3 (csr 4),
    vpstep := BitVec.ofNat 32 (csr 5), vouter := BitVec.ofNat 62 (csr 6), vflags := BitVec.ofNat 4 (csr 7), frm := BitVec.ofNat 3 (csr 8),
    fflags := BitVec.ofNat 5 (csr 9), mshape := Vector.ofFn (fun i => shape i.val), pres := csr 18 % 256 + v.refilled, spp := bit (csr 19) 8,
    stvec := BitVec.ofNat 64 (csr 20) &&& ~~~3#64, sscratch := BitVec.ofNat 64 (csr 21), sepc := BitVec.ofNat 64 (csr 22) &&& ~~~3#64,
    scause := BitVec.ofNat 64 (csr 23), stval := BitVec.ofNat 64 (csr 24), sfinfo := BitVec.ofNat 9 (csr 25), validMode := bit (recNat b 4 4) 1,
    v := Vector.ofFn (fun i => imageChain k b (bit valid i.val) i.val),
    p := Vector.ofFn (fun i => BitVec.ofNat 4096 (recNat b (576 + 512 * i.val) 512)),
    pValid := BitVec.ofNat 8 (recNat b 52 1), mValid := BitVec.ofNat 8 (recNat b 53 1), tiles := tiles,
    lastArrival := v.lastArrival, expiredRay := v.expiredRay, stepping := v.stepping }

/-- What has been granted so far to each send end of a thread, by its handle. -/
def grantedTo (s : State) (thread : Nat) : List (Nat × Nat) :=
  (upTo 8).flatMap (fun d => (dieAt s d).rays.filterMap (fun r => match r.send with | some e => if e.thread = thread then some (e.handle, r.granted) else none | none => none))

/-- The permits of a restored context's send ends as the ray records of its image have them, with those granted since (R201) (log 52: DESIGN CHOICE, unsafe). -/
def restorePermits (v : Saved) (b : List Byte) (s : State) : State :=
  (upTo 16).foldl (fun s i =>
    let off := 12992 + 16 * i
    let h := recNat b off 4
    if recNat b (off + 4) 1 ≠ 1 then s else
    match rayWith Ray.send s v.task.thread h, v.granted.find? (·.1 == h) with
    | some (d, r), some (_, before) => updRay d r (fun r => { r with granted := r.arrived + recNat b (off + 8) 4 + (r.granted - before) }) s
    | _, _ => s) s

/-- A restored context whose frame holds an uncorrectable error has consumed it: code 49 (R197) (log 52: DESIGN CHOICE, unsafe). -/
def restoreError (key frame : Nat) (s : State) : State :=
  match firstBad (physKey frame) (imageLength (key / 4)) s with
  | none => s
  | some k =>
    let s := logError (dieOf (key / 4)) 1 (some (key / 4)) (errorAddr k) (openField s) s
    updCtx s key (fun c => enterTrap { code := 49, tval := errorAddr k, info := sfinfoOf false 0 7 .load } c.pc c)

/-- A saved context returns into a slot (R200): the image is read back, the result of its wait written, the frame given back; one
of priority 0 that was pre-empted is protected, and one that was protected stays so until its cycles are over (R91) (log 52: DESIGN CHOICE, unsafe). -/
def restore (key : Nat) (v : Saved) (s : State) : State :=
  let b := getBytes (physKey v.frame) 13312 s.mem
  let tiles := if isDCore (key / 4) then sliceBytes (physKey v.frame + 13312) 262144 s.mem else []
  let c := imageCtx (coreAt s (key / 4)) b tiles v
  let c := match v.result with | some (rd, w) => setX rd w { c with pc := c.pc + 4 } | none => c
  let s := clearErrors (tileKey key 0) 262144 { s with saved := s.saved.filter (·.num != v.num) }
  let s := updPart s v.task.part (fun p => { p with frames := p.frames ++ [v.frame] })
  let protect := v.reason == .preempt && (match regionAt s v.task.part v.task.region with | some r => r.eff.prio == 0 | none => false)
  let s := setCtx s key { c with isProtected := protect || v.isProtected }
  let s := renameTimer (.protectionExpiry (savedName v.num)) (.protectionExpiry key) (restorePermits v b s)
  restoreError key v.frame (if protect then startTimer (dieOf (key / 4)) true 65536 (.protectionExpiry key) s else s)

/-- An award whose slot is free is dispatched. -/
def dispatchAward (core : Nat) (a : Award) (s : State) : State :=
  let s := updCore s core (fun k => { k with awards := k.awards.filter (fun b => !(b.locus == a.locus && b.entry == a.entry)) })
  let s := match a.frame with | some f => updPart s a.part (fun p => { p with frames := p.frames ++ [f] }) | none => s
  let key := core * 4 + a.slot
  match a.resume with
  | none => startTask key a s
  | some n => match s.saved.find? (·.num == n) with | some v => restore key v s | none => s

/-- The range scoreboard has no entries left for the copies of an award's operands (R152). -/
def copiesWait (core : Nat) (a : Award) (s : State) : Bool :=
  a.resume.isNone && decide (32 < (coreAt s core).scored.length + (copiedIn (awardNode a s)).length)

/-- An award that waits for a slot which has come free; its operand copies wait for entries of the scoreboard (R152) (log 52: DESIGN CHOICE, unsafe; log 53: DESIGN CHOICE, unsafe). -/
def dispatchInto (key : Nat) (s : State) : State :=
  match (coreAt s (key / 4)).awards.find? (fun a => a.committed && a.slot == key % 4) with
  | some a =>
    if (ctxAt s key).task.isSome then s
    else if copiesWait (key / 4) a s then postOnce (.convoyBoundaryStop key) s
    else dispatchAward (key / 4) a s
  | none => s

/-! ## A context to be saved stops (R89, R113) -/

/-- The context of a slot that an award has named stops at its oldest unconfirmed convoy, or the award finds the slot free. A
context whose runtime call or end is under way stops after it. One whose wait has ended since is swapped out all the same (R81, R89) (log 51: DESIGN CHOICE, unsafe). -/
def stopForSave (key : Nat) (s : State) : State :=
  match (coreAt s (key / 4)).awards.find? (fun a => a.committed && a.slot == key % 4) with
  | none => s
  | some a =>
    if (ctxAt s key).task.isNone then dispatchInto key s else
    match a.frame, (ctxAt s key).state with
    | some f, .running => saveFor key (if a.swap then .wait else .preempt) none f s
    | some f, .waiting .poolEmpty | some f, .waiting (.rayPermit _) => saveFor key .preempt none f (updCtx (stopWaitTimers key s) key leaveTrap)
    | some _, .waiting .debugger | some _, .waiting (.invalidation _) | some _, .waiting .retiring => postOnce (.convoyBoundaryStop key) s
    | some f, .waiting (.page p n) => saveFor key .page (some (.page p n)) f s
    | some f, .waiting w => saveFor key .wait (some w) f s
    | _, _ => s

/-- CONVOY_BOUNDARY_STOP (log 51: DESIGN CHOICE, unsafe). -/
def execConvoyBoundaryStop (ctx : Nat) (s : State) : Result := .next (stopForSave ctx s)

/-- PREEMPTION_STOP_TIMEOUT: a victim whose convoy has not retired is stopped at it, none of its elements committed (log 51: DESIGN CHOICE, unsafe). -/
def execPreemptionStopTimeout (ctx : Nat) (s : State) : Result :=
  .next (stopForSave ctx (retract (fun e => e == .convoyBoundaryStop ctx) s))

/-! ## The image is written (R200 steps 3 and 4) -/

/-- A wait that ended while its context was being swapped out is found ended (log 51: DESIGN CHOICE, unsafe). -/
def recheckWait (thread : Nat) (s : State) : State :=
  match waitOfThread s thread with
  | some (.barrier _ h p) | some (.collective _ h p) =>
    (match barrierAt s h with
     | some b => if b.broken || decide (p < b.phase) then wakeRetry thread s else s
     | none => wakeRetry thread s)
  | _ => s

/-- The bounds of a slot's wait and of its protection go on under the image's name. -/
def renameTimers (key num : Nat) (s : State) : State :=
  renameTimer (.protectionExpiry key) (.protectionExpiry (savedName num)) (renameTimer (.regionWatchdogExpiry key) (.regionWatchdogExpiry (savedName num)) s)

/-- SAVE_IMAGE_WRITTEN: the image is released at package scope, the slot is free, and the committed task takes it (log 52: DESIGN CHOICE, unsafe). -/
def execSaveImageWritten (ctx : Nat) (s : State) : Result :=
  let c := ctxAt s ctx
  .next (match c.state, c.task with
    | .saving reason w f, some t =>
      let s := completeRelease ctx .pkg (writeImage ctx f reason s)
      let (num, s) := freshId s
      let v : Saved := { num := num, frame := f, core := ctx / 4, slot := ctx % 4, task := t, reason := reason, wait := w, ready := false, chains := c.v, pres := c.pres, refilled := 0, granted := grantedTo s t.thread,
                         lastArrival := c.lastArrival, expiredRay := c.expiredRay, isProtected := c.isProtected, stepping := c.stepping, result := none }
      let s := renameTimers ctx num { s with saved := s.saved ++ [v] }
      let s := freeSlot ctx s
      let s := if w.isNone then enterResume num s else recheckWait t.thread s
      dispatchInto ctx s
    | _, _ => s)

/-- PROTECTION_EXPIRY. -/
def execProtectionExpiry (ctx : Nat) (s : State) : Result :=
  .next (if ctx < 2 ^ 32 then updCtx s ctx (fun c => { c with isProtected := false })
    else { s with saved := s.saved.map (fun v => if savedName v.num = ctx then { v with isProtected := false } else v) })

end Sys2Proof.Machine
end

