-- ==== Sys2Proof/Machine/Locus.lean ====
section
/-! DEFINITION. The Loci and the Chord network (R77 to R94): the order of entries, tenders, bids, awards, commits, withdrawals,
escalation to the hub. Locus 0 to 7 is a die's, 8 is the hub's. -/

namespace Sys2Proof.Machine

/-! ## Order (R79) -/

/-- The effective fields of a region; a region that is gone counts as all zero. -/
def effOf (s : State) (part region : Nat) : RegionFields :=
  match regionAt s part region with
  | some r => r.eff
  | none => { cores := 0, ctxs := 0, segs := 0, rsv := 0, facet := 0, plane := 0, prio := 0, policy := 0, wdi := 0, lsplit := 0, start := false, bwin := 0, w := [], rnode := 0, rlim := 0 }

/-- An entry that has stood 114,688 cycles (log 28: DESIGN CHOICE, safe). -/
def promoted (e : Entry) : Bool := decide (7 ≤ e.rises)

/-- The tender priority of an entry (log 28: DESIGN CHOICE, safe). -/
def tenderPriority (s : State) (e : Entry) : Nat := min 7 ((effOf s e.part e.region).prio + e.rises)

/-- Entry a has the older entry time; at the hub it is reckoned back from the age that R86 gives, and those of one cycle stand as they came. -/
def older (a b : Entry) : Bool := decide (a.entered < b.entered) || (decide (a.entered = b.entered) && decide (a.order < b.order))

/-- Entry a stands before entry b. -/
def before (s : State) (a b : Entry) : Bool :=
  match promoted a, promoted b with
  | true, true => older a b
  | true, false => true
  | false, true => false
  | false, false =>
    let x := tenderPriority s a
    let y := tenderPriority s b
    decide (y < x) || (x == y && older a b)

/-- The first of entries in the order. -/
def firstEntry (s : State) : List Entry → Option Entry
  | [] => none
  | e :: t => match firstEntry s t with
    | none => some e
    | some f => if before s f e then some f else some e

/-! ## Slots (R81) -/

/-- A slot that a core offers. -/
inductive Slot where
  | free (i : Nat)
  | waiting (i : Nat)
  | victim (i : Nat)
  deriving DecidableEq, Repr

/-- Its context number. -/
def Slot.index : Slot → Nat
  | .free i | .waiting i | .victim i => i

/-- Slots of a core that no award has named, highest first. -/
def openSlots (s : State) (core : Nat) : List Nat :=
  ([3, 2, 1, 0] : List Nat).filter (fun i => !(coreAt s core).awards.any (·.slot == i))

/-- A wait that gives up its slot. -/
def givesUp : SlotState → Bool
  | .waiting (.twait _ _ _) | .waiting (.barrier _ _ _) | .waiting (.collective _ _ _) | .waiting (.rayRecv _ _) | .waiting (.rayForm _) | .waiting (.page _ _) => true
  | _ => false

/-- The best of candidates; `better a b` says that a goes before b, and the first of equals stays. -/
def bestBy {α : Type} (better : α → α → Bool) : List α → Option α
  | [] => none
  | a :: t => t.foldl (fun m b => match m with | some x => if better b x then some b else some x | none => some b) (some a)

/-- The slot of a core for a tender (R81, R364). -/
def slotFor (s : State) (core part : Nat) (e : Entry) : Option Slot :=
  let c (i : Nat) : Ctx := ctxAt s (core * 4 + i)
  let l := openSlots s core
  match (l.reverse.find? (fun i => (c i).state == .free)) with
  | some i => some (.free i)
  | none =>
    if (freeFrames s part).isEmpty then none else
    match bestBy (fun i j => decide ((c i).waitSince < (c j).waitSince)) (l.filter (fun i => givesUp (c i).state)) with
    | some i => some (.waiting i)
    | none =>
      let prio (i : Nat) : Nat := match (c i).task with | some t => (effOf s t.part t.region).prio | none => 0
      let able (i : Nat) : Bool := (c i).state == .running && !(c i).isProtected && (promoted e || decide (prio i < tenderPriority s e))
      (bestBy (fun i j => decide (prio i < prio j)) (l.filter able)).map Slot.victim

/-! ## Eligibility and the bid (R80, R82) -/

/-- Granting a context of a core, and its reserve, keeps every charged region within its limits (R58) (log 29: DESIGN CHOICE, unsafe). -/
def budgetsAllow (s : State) (core : Nat) (e : Entry) : Bool :=
  let rsv := (effOf s e.part e.region).rsv
  (ancestry s e.part e.region).all (fun i => match regionAt s e.part i with
    | none => false
    | some r =>
      let cores := if r.coreUse.any (·.1 == core) then r.coreUse.length else r.coreUse.length + 1
      decide (cores ≤ r.eff.cores) && decide (r.ctxUse + 1 ≤ r.eff.ctxs) && decide (r.segUse + rsv ≤ r.eff.segs))

/-- The lowest-numbered stack of a partition that no task holds. -/
def freeStack (p : Part) : Option Nat := (upTo p.stkN).find? (fun k => !p.stackSlots.contains k)

/-- The conditions of R80 that are no slot. -/
def eligible (s : State) (core : Nat) (e : Entry) : Bool :=
  let kind := e.cls == 0 || (e.cls == 1 && isDCore core) || (e.cls == 2 && !isDCore core)
  let bound := match e.only with | some c => c == core | none => true
  let split := match (coreAt s core).lsplit with | some l => l == (effOf s e.part e.region).lsplit | none => true
  match partAt s e.part with
  | none => false
  | some p =>
    p.cores.contains core && bound && split && !(dieAt s (dieOf core)).held &&
      (e.resume.isSome || (kind && budgetsAllow s core e && decide ((effOf s e.part e.region).rsv ≤ pfree s core - reserves s core) &&
        (p.stkN == 0 || (freeStack p).isSome)))

/-- The operands that an entry's task declares. -/
def entryOperands (s : State) (e : Entry) : List Operand :=
  match e.resume with
  | some n => (match s.saved.find? (·.num == n) with | some v => v.task.operands | none => [])
  | none => (match deviceRead s e.part e.node 128 with | some n => nodeOperands n | none => [])

/-- The bytes that a union of ranges covers, the ranges rising. -/
def coverage : Nat → List (Nat × Nat) → Nat
  | _, [] => 0
  | pos, (a, b) :: t => let lo := max pos a; if b ≤ lo then coverage pos t else (b - lo) + coverage b t

/-- A range put among rising ranges. -/
def insertRange (r : Nat × Nat) : List (Nat × Nat) → List (Nat × Nat)
  | [] => [r]
  | q :: t => if r.1 ≤ q.1 then r :: q :: t else q :: insertRange r t

/-- RES: bytes of the operands within the residency table, each counted once, up to 2^24. -/
def residentBytes (s : State) (core : Nat) (e : Entry) : Nat :=
  let os := (entryOperands s e).filter (fun o => o.mode == 1 || o.mode == 3 || o.mode == 5)
  let cuts := os.flatMap (fun o => (coreAt s core).resident.map (fun r =>
    (max o.base.toNat r.base.toNat, min (o.base.toNat + o.size) (r.base.toNat + r.size))))
  min (2 ^ 24) (coverage 0 ((cuts.filter (fun c => decide (c.1 < c.2))).foldl (fun l c => insertRange c l) []))

/-- QD: contexts that hold a task, and resume entries bound to the core, up to 15. -/
def queueDepth (s : State) (core : Nat) : Nat :=
  min 15 ((upTo 4).countP (fun i => (ctxAt s (core * 4 + i)).task.isSome) +
    (locusAt s (dieOf core)).entries.countP (fun e => e.resume.isSome && e.only == some core))

/-- The distance of two cores on a die's grid (R77). -/
def gridDistance (a b : Nat) : Nat :=
  let d (x y : Nat) : Nat := (x - y) + (y - x)
  d (coreInDie a / 8) (coreInDie b / 8) + d (coreInDie a % 8) (coreInDie b % 8)

/-- The link of a port of a compute die is down. -/
def linkIsDown (s : State) (d port : Nat) : Bool := ((dieAt s d).ports.toList.getD port Port.reset).down

/-- Hops along the ring of a row, the shorter way, eastward on a tie; the other way where a link of it is down (R9, R12). -/
def ringHops (s : State) (row x y : Nat) : Option Nat :=
  let e := (y + 4 - x) % 4
  let w := (x + 4 - y) % 4
  let east := !(upTo e).any (fun i => linkIsDown s (row * 4 + (x + i) % 4) 0)
  let west := !(upTo w).any (fun i => linkIsDown s (row * 4 + (x + 4 - i) % 4) 1)
  if e ≤ w then (if east then some e else if west then some w else none) else (if west then some w else if east then some e else none)

/-- The hop count between two compute dies (R8, R9, R12): along the ring, across at the column of the target or the nearest column
eastward whose V link is up, along the other ring. A leg with no way left counts 3, which the spec does not state (log 29: DESIGN CHOICE, unsafe). -/
def dieHops (s : State) (a b : Nat) : Nat :=
  if a / 4 = b / 4 then (ringHops s (a / 4) (a % 4) (b % 4)).getD 3 else
  match (upTo 4).find? (fun i => !linkIsDown s (a / 4 * 4 + (b + i) % 4) 2) with
  | some i => ((ringHops s (a / 4) (a % 4) ((b + i) % 4)).getD 3) + 1 + ((ringHops s (b / 4) ((b + i) % 4) (b % 4)).getD 3)
  | none => 3

/-- HOPS; of a gang task on a die tender whose submitting core stands on another die the spec states none, and it is 0 (log 29: DESIGN CHOICE, unsafe). -/
def hopsTerm (s : State) (locus core : Nat) (e : Entry) : Nat :=
  match e.origin with
  | some (d, _) => 16 * dieHops s d (dieOf core)
  | none => match e.submitter with | some c => if dieOf c = locus then gridDistance c core else 0 | none => 0

/-- The cost of a bid (R82). -/
def bidCost (s : State) (locus core : Nat) (e : Entry) : Int :=
  let w (i : Nat) : Int := (effOf s e.part e.region).w.getD i 0
  clampInt (-8388608) 8388607
    (w 0 * -((residentBytes s core e / 256 : Nat) : Int) + w 1 * (queueDepth s core : Nat) + w 2 * (hopsTerm s locus core e : Nat) + w 3 * -((pfree s core / 16 : Nat) : Int))

/-! ## Tenders (R84 to R86) -/

/-- The cores that a tender of an entry goes to (log 28: DESIGN CHOICE, safe). -/
def tenderCores (s : State) (locus : Nat) (e : Entry) : List Nat :=
  match partAt s e.part with
  | none => []
  | some p =>
    let excluded (c : Nat) : Bool := (coreAt s c).excluded.any (fun x => x.1 == e.part && (ancestry s e.part e.region).contains x.2)
    let here (c : Nat) : Bool := locus == 8 || dieOf c == locus
    match e.resume, e.only with
    | some _, some c => [c]
    | _, some c => if p.cores.contains c && here c && !excluded c then [c] else []
    | _, none => p.cores.filter (fun c => here c && !excluded c)

/-- The cycle counter that a Locus ages by. -/
def locusCycle (s : State) (locus : Nat) : Word := (dieAt s locus).cycle

/-- An entry escalates: it is a task entry of a die, and has not escalated within 16,384 cycles (log 27: DEDUCED, unsafe). -/
def mayEscalate (s : State) (locus : Nat) (e : Entry) : Bool :=
  decide (locus < 8) && e.resume.isNone &&
    (match e.escalated with | none => true | some c => decide (16384 ≤ (locusCycle s locus - c).toNat))

/-- An entry goes back to WAITING and is no longer due. -/
def backToWaiting (locus n : Nat) (s : State) : State :=
  updEntry locus n (fun e => { e with state := .waiting, due := false, asked := [], answers := [], leftOut := [], awardedNow := [] }) s

/-- The hub's tender of an escalated entry has ended. -/
def endHubEntry (e : Entry) (committed : Bool) (s : State) : State :=
  let s := leaveLocus 8 e.num s
  match e.origin with
  | some (d, n) => post (.hubTenderResult d n committed) s
  | none => s

/-- The bids of an entry that count: none from a core that has received an award from this Locus in the window (log 27: DEDUCED, unsafe). -/
def countedBids (e : Entry) : List (Nat × Int) :=
  e.answers.filterMap (fun a => match a.2 with | some c => if e.awardedNow.contains a.1 then none else some (a.1, c) | none => none)

/-- The winner (R85): the lowest cost, then the lowest rotated number (log 27: DEDUCED, unsafe). -/
def winner (locus : Nat) (e : Entry) : Option Nat :=
  let rot (c : Nat) : Nat :=
    if locus = 8 then (c + 384 - e.tseq.toNat % 384) % 384 else (coreInDie c + 48 - e.tseq.toNat % 48) % 48
  (bestBy (fun (a b : Nat × Int) => decide (a.2 < b.2) || (a.2 == b.2 && decide (rot a.1 < rot b.1))) (countedBids e)).map (·.1)

/-- A window closes: an award, an escalation, or back to WAITING (log 27: DEDUCED, unsafe). -/
def closeWindow (locus n : Nat) (s : State) : State :=
  match entryAt s locus n with
  | none => s
  | some e =>
    let s := stopTimer (.bidWindowExpiry locus n e.round) s
    match winner locus e with
    | some c =>
      let s := updEntry locus n (fun e => { e with state := .awarded c }) s
      let s := updLocus locus (fun x => { x with entries := x.entries.map (fun f =>
        if f.num != n && f.state == .tendering then { f with awardedNow := f.awardedNow ++ [c] } else f) }) s
      post (.awardArrival locus n e.round c) s
    | none =>
      if locus = 8 then kickLocus 8 (endHubEntry e false s)
      else if mayEscalate s locus e then
        kickLocus locus (post (.escalatedTenderReceive locus n) <| countDie 0x107 1 locus (updEntry locus n (fun e => { e with state := .escalated, escalated := some (locusCycle s locus), asked := [], answers := [], leftOut := [], awardedNow := [] }) s))
      else kickLocus locus (backToWaiting locus n s)

/-- A tender goes out to the cores not left out, and its window opens. -/
def openWindow (locus n : Nat) (s : State) : State :=
  match entryAt s locus n with
  | none => s
  | some e =>
    let cores := (tenderCores s locus e).filter (fun c => !e.leftOut.contains c)
    let s := updEntry locus n (fun e => { e with state := .tendering, round := e.round + 1, asked := cores, answers := [], awardedNow := [] }) s
    if cores.isEmpty then closeWindow locus n s else
    let s := cores.foldl (fun s c => post (.tenderArrival locus n (e.round + 1) c) s) s
    startTimer locus true ((effOf s e.part e.region).bwin + if locus = 8 then 96 else 0) (.bidWindowExpiry locus n (e.round + 1)) s

/-- CTXS of a task entry's region or of an ancestor is used up: the task is not tendered (R58). -/
def atCtxsLimit (s : State) (e : Entry) : Bool :=
  e.resume.isNone && (ancestry s e.part e.region).any (fun i => match regionAt s e.part i with | some r => decide (r.eff.ctxs ≤ r.ctxUse) | none => false)

/-- TENDER_START. -/
def execTenderStart (locus : Nat) (s : State) : Result :=
  let x := locusAt s locus
  .next (if 8 ≤ runningTenders x then s else
    match firstEntry s (x.entries.filter (fun e => e.state == .waiting && e.due && !atCtxsLimit s e)) with
    | none => s
    | some e => kickLocus locus (openWindow locus e.num s))

/-- TENDER_PRIORITY_RISE: where its priority did rise, or the seventh step promoted it, the entry is due again (log 28: DESIGN CHOICE, safe). -/
def execTenderPriorityRise (locus entry : Nat) (s : State) : Result :=
  .next (match entryAt s locus entry with
    | none => s
    | some e =>
      let up := { e with rises := e.rises + 1 }
      let again := decide (tenderPriority s e < tenderPriority s up) || (promoted up && !promoted e)
      let s := updEntry locus entry (fun e => { e with rises := e.rises + 1, due := e.due || again }) s
      let s := if e.rises + 1 < 7 then startTimer locus true 16384 (.tenderPriorityRise locus entry) s else s
      kickLocus locus s)

/-- Withdrawals of a core as one more tender is answered. -/
def ageWithdrawals (l : List Nat) : List Nat := (l.map (· + 1)).filter (· < 1024)

/-- TENDER_ARRIVAL: a bid or a decline. -/
def execTenderArrival (locus entry round core : Nat) (s : State) : Result :=
  .next (
    let s := updCore s core (fun k => { k with withdrawals := ageWithdrawals k.withdrawals })
    match entryAt s locus entry with
    | none => s
    | some e =>
      let able := eligible s core e && (coreAt s core).awards.all (·.committed) && (slotFor s core e.part e).isSome
      if able then
        let s := countCore 0x030 1 core s
        post (.bidReceive locus entry round core (some (bidCost s locus core e))) s
      else post (.bidReceive locus entry round core none) s)

/-- BID_RECEIVE. -/
def execBidReceive (locus entry round core : Nat) (bid : Option Int) (s : State) : Result :=
  .next (match entryAt s locus entry with
    | none => s
    | some e =>
      if e.state != .tendering || e.round != round || e.answers.any (·.1 == core) then s else
      let s := updEntry locus entry (fun e => { e with answers := e.answers ++ [(core, bid)] }) s
      if e.asked.all (fun c => c == core || e.answers.any (·.1 == c)) then closeWindow locus entry s else s)

/-- BID_WINDOW_EXPIRY. -/
def execBidWindowExpiry (locus entry round : Nat) (s : State) : Result :=
  .next (match entryAt s locus entry with
    | some e => if e.state == .tendering && e.round == round then closeWindow locus entry s else s
    | none => s)

/-! ## Escalation (R86) -/

/-- The age in cycles that an entry had reached in its die's Locus when it escalated. -/
def ageEscalated (s : State) (die : Nat) (e : Entry) : Nat := (((e.escalated.getD (locusCycle s die)).toNat : Int) - e.entered).toNat

/-- ESCALATED_TENDER_RECEIVE: the hub takes the entry with the age it had reached at escalation, and counts on from it (R86). -/
def execEscalatedTenderReceive (die entry : Nat) (s : State) : Result :=
  .next (match entryAt s die entry with
    | none => s
    | some e =>
      if e.state != .escalated then s else
      let s := countDie 0x200 1 8 s
      if 1048576 ≤ (locusAt s 8).entries.length then post (.hubTenderResult die entry false) s
      else
        let n := (locusAt s 8).nextEntry
        let age := ageEscalated s die e
        let up := min 7 (age / 16384)
        let s := enterLocus 8 { e with state := .waiting, due := true, round := 0, rises := up, origin := some (die, entry), escalated := none } s
        let s := updEntry 8 n (fun e => { e with entered := (locusCycle s 8).toNat - age }) s
        if up = 7 then stopTimer (.tenderPriorityRise 8 n) s else startTimer 8 true (16384 - age % 16384) (.tenderPriorityRise 8 n) s)

/-- HUB_TENDER_RESULT (log 29: DESIGN CHOICE, unsafe). -/
def execHubTenderResult (die entry : Nat) (committed : Bool) (s : State) : Result :=
  .next (match entryAt s die entry with
    | none => s
    | some e =>
      if committed then (if e.state == .dispatched then leaveLocus die entry s else s)
      else if e.state == .escalated then kickLocus die (backToWaiting die entry s) else s)

/-! ## Award, withdrawal, commit (R87 to R89, R94) -/

/-- What a commit sets aside: the slot, the lane split of an unbound core (R60, R87), the charges, the reserve, the stack, the frame of a slot that must be saved (R57, R58) (log 29: DESIGN CHOICE, unsafe; log 33: DESIGN CHOICE, unsafe). -/
def takeAward (locus core : Nat) (e : Entry) (slot : Slot) (s : State) : State :=
  let rsv := if e.resume.isSome then 0 else (effOf s e.part e.region).rsv
  let stack := match e.resume, partAt s e.part with | none, some p => freeStack p | _, _ => none
  let frame := match slot with | .free _ => none | _ => (freeFrames s e.part).head?
  let a : Award := { locus := locus, entry := e.num, slot := slot.index, node := e.node, tseq := e.tseq, part := e.part, region := e.region, resume := e.resume,
                     rsv := rsv, stack := stack, frame := frame, swap := (match slot with | .waiting _ => true | _ => false), committed := false }
  let s := updCore s core (fun k => { k with awards := k.awards ++ [a], lsplit := k.lsplit.orElse (fun _ => some (effOf s e.part e.region).lsplit) })
  let s := updPart s e.part (fun p => { p with stackSlots := p.stackSlots ++ stack.toList, frames := if frame.isSome then p.frames.drop 1 else p.frames })
  if e.resume.isSome then s else
  chargeLine e.part e.region (fun r => { r with
    ctxUse := r.ctxUse + 1, segUse := r.segUse + rsv,
    coreUse := if r.coreUse.any (·.1 == core) then r.coreUse.map (fun p => if p.1 == core then (p.1, p.2 + 1) else p) else r.coreUse ++ [(core, 1)] }) s

/-- A withdrawal: counted, and the third within 1,024 tenders raises the withdrawn-bid fault (R88) (log 29: DESIGN CHOICE, unsafe). -/
def withdraw (locus entry round core : Nat) (e : Entry) (s : State) : State :=
  let s := countCore 0x032 1 core s
  let l := 0 :: (coreAt s core).withdrawals
  let s := updCore s core (fun k => { k with withdrawals := if 3 ≤ l.length then [] else l })
  let s := if 3 ≤ l.length then
      updCore (logError (dieOf core) 5 (some core) (openField s) (openField s) s) core (fun k => { k with excluded := k.excluded ++ [(e.part, e.region)] })
    else s
  post (.withdrawalReceive locus entry round core) s

/-- AWARD_ARRIVAL: the winner checks again, and commits by naming its slot or withdraws (log 29: DESIGN CHOICE, unsafe). -/
def execAwardArrival (locus entry round core : Nat) (s : State) : Result :=
  .next (match entryAt s locus entry with
    | none => s
    | some e =>
      if e.state != .awarded core || e.round != round then s else
      let s := startTimer (if locus = 8 then 8 else dieOf core) true 64 (.commitTimeout locus entry round) s
      let draining := match partAt s e.part with | some p => p.drain.isSome | none => true
      match slotFor s core e.part e with
      | some slot =>
        if eligible s core e && (dieAt s (dieOf core)).tlbHeld.isEmpty && !draining then
          post (.commitReceive locus entry round core) (takeAward locus core e slot s)
        else withdraw locus entry round core e s
      | none => withdraw locus entry round core e s)

/-- The entry is tendered again, without the core. -/
def tenderWithout (locus entry core : Nat) (s : State) : State :=
  openWindow locus entry (updEntry locus entry (fun e => { e with leftOut := e.leftOut ++ [core] }) s)

/-- WITHDRAWAL_RECEIVE. -/
def execWithdrawalReceive (locus entry round core : Nat) (s : State) : Result :=
  .next (match entryAt s locus entry with
    | none => s
    | some e =>
      if e.state != .awarded core || e.round != round then s
      else tenderWithout locus entry core (stopTimer (.commitTimeout locus entry round) s))

/-- COMMIT_TIMEOUT. -/
def execCommitTimeout (locus entry round : Nat) (s : State) : Result :=
  .next (match entryAt s locus entry with
    | none => s
    | some e => match e.state with
      | .awarded core => if e.round = round then tenderWithout locus entry core s else s
      | _ => s)

/-- COMMIT_RECEIVE: the entry leaves and the task is dispatched; a commit for an entry removed or held, or come too late, is
refused and what was set aside is given back. A slot that holds a context is saved first. -/
def execCommitReceive (locus entry round core : Nat) (s : State) : Result :=
  .next (match (coreAt s core).awards.find? (fun a => a.locus == locus && a.entry == entry && !a.committed) with
    | none => s
    | some a =>
      match entryAt s locus entry with
      | none => refundAward core a s
      | some e =>
        if e.state != .awarded core || e.round != round then refundAward core a s else
        let s := stopTimer (.commitTimeout locus entry round) s
        let s := leaveLocus locus entry s
        let s := match e.origin with
          | some (d, n) => post (.hubTenderResult d n true) (updEntry d n (fun f => { f with state := .dispatched }) s)
          | none => s
        let s := countCore 0x031 1 core s
        let s := updCore s core (fun k => { k with awards := k.awards.map (fun b => if b.locus == locus && b.entry == entry then { b with committed := true } else b) })
        let key := core * 4 + a.slot
        let c := ctxAt s key
        if c.task.isNone || a.swap || givesUp c.state then stopForSave key s
        else
          let s := countCore 0x033 1 core s
          startTimer (dieOf core) true 2048 (.preemptionStopTimeout key) (postOnce (.convoyBoundaryStop key) s))

/-! ## Submissions that wait (R78) -/

/-- What the submission of a GRUN comes to (R34): refused, answered where its object has reached the target or the target is 0, or waiting for that (log 12: DESIGN CHOICE, safe). -/
def runSubmitted (q : Nat) (c : Cmd) (r : State × Submitted) : State :=
  let s := r.1
  match r.2 with
  | .bad => finish q c.hseq 4 0 0 s
  | .budget => finish q c.hseq 6 0 0 s
  | .full => s
  | .accepted _ =>
    let p := ((queueAt s q).part).getD 64
    let obj : Word := c.args.getD 1 0
    let target : Word := c.args.getD 2 0
    let there := match deviceRead s p obj 16 with | some o => reached o target | none => false
    if target = 0 || there then
      let o := objectResults s p obj
      finish q c.hseq 0 o.1 o.2 s
    else updCmd q c.hseq (fun c => { c with onObject := some (p, obj, target) }) s

/-- A submission that has waited is made: a released node's, a GRUN's or a restart's; refused, it goes as it would have gone at once. -/
def submitHeld (locus : Nat) (h : HeldSubmission) (s : State) : State :=
  let r := submitFrom true h.part h.node locus h.submitter h.submitter.isNone s
  match h.grun with
  | some (q, hseq) => (match cmdAt s q hseq with | some c => runSubmitted q c r | none => s)
  | none =>
    match r, h.restart with
    | (s, .accepted _), some f => writeEvent h.part h.region 3 f s
    | (s, .accepted _), none => s
    | (s, _), some f => escalateFault h.part h.region f (graphError h.part h.region s)
    | (s, _), none =>
      let s := graphError h.part h.region s
      match deviceRead s h.part h.node 128 with
      | some n => if nodeState n != 0 then s else cancelNode h.part (h.submitter.getD (locus * 48)) n s
      | none => s

/-- LOCUS_WAITING_SUBMISSION_ENTER: the first that waits enters; one whose gang has come to stand on a die without room waits on there. -/
def execLocusWaitingSubmissionEnter (locus : Nat) (s : State) : Result :=
  let x := locusAt s locus
  .next (match x.heldSubs with
    | [] => s
    | h :: t =>
      if 1048576 ≤ x.entries.length then s else
      let s := updLocus locus (fun x => { x with heldSubs := t }) s
      let place := ((deviceRead s h.part h.node 128).bind (gangPlace s)).map (·.1)
      kickLocus locus (match h.resume with
        | some n => enterResumeAt true n s
        | none =>
          match place with
          | some d => if d ≠ locus && locusFull (locusAt s d) then holdSub d h s else submitHeld locus h s
          | none => submitHeld locus h s))

end Sys2Proof.Machine
end

