-- ==== Sys2Proof/Machine/Runtime.lean ====
section
/-! DEFINITION. What the core runtime does with each trap that reaches it (R130, R367, R369), and the runtime calls that
complete at once. A context that enters S mode at the entry of the runtime runs its action as one step. -/

namespace Sys2Proof.Machine

/-! ## Runtime calls (R369) -/

/-- A word that the debugger steps has been executed: the context stops before the next (R355). -/
def stepOver (c : Ctx) : Ctx := if c.stepping then { c with state := .waiting .debugger, stepping := false } else c

/-- A runtime call returns: the status in a0, the value in a1, on at `sepc` + 4 in the mode that called. -/
def callReturn (key status : Nat) (v : Word) (s : State) : State :=
  updCtx s key (fun c =>
    let c := leaveTrap (setX 10 (BitVec.ofNat 64 status) (setX 11 v c))
    stepOver { c with pc := c.pc + 4, state := .running })

/-- Starts of runs of n free units among the 1,024 of a die's plane memory (R150) (log 12: DESIGN CHOICE, safe). -/
def freeRuns (plane : List (Nat × (Nat × Nat))) (n : Nat) : List Nat :=
  (upTo (1025 - n)).filter (fun b => (upTo n).all (fun i => (lookupKey (b + i) plane).isNone))

/-- PLANE_ALLOCATE; which of several free runs is granted is open (log 12: DESIGN CHOICE, safe) (log 32: DESIGN CHOICE, unsafe). -/
def execPlaneAllocate (ctx : Nat) (units : BitVec 64) (s : State) : Result :=
  .next (match (ctxAt s ctx).task with
    | none => s
    | some t =>
      let n := units.toNat
      let d := dieOf (ctx / 4)
      if n = 0 ∨ 1024 < n then callReturn ctx 3 0 s
      else if (ancestry s t.part t.region).any (fun i => match regionAt s t.part i with | some r => decide (r.eff.plane < r.planeUse + n) | none => false) then
        callReturn ctx 1 0 s
      else match freeRuns (dieAt s d).plane n with
        | [] => callReturn ctx 2 0 s
        | l@(b :: _) =>
          let b := l.getD ((Config.word s.nonce).toNat % l.length) b
          let s := updDie s d (fun x => { x with plane := (upTo n).foldl (fun m i => insertKey (b + i) (t.part, t.region) m) x.plane })
          callReturn ctx 0 (BitVec.ofNat 64 (b * 65536)) (chargeLine t.part t.region (fun r => { r with planeUse := r.planeUse + n }) s))

/-- PLANE_FREE (log 32: DESIGN CHOICE, unsafe). -/
def execPlaneFree (ctx : Nat) (offset units : BitVec 64) (s : State) : Result :=
  .next (match (ctxAt s ctx).task with
    | none => s
    | some t =>
      let n := units.toNat
      let d := dieOf (ctx / 4)
      let b := offset.toNat / 65536
      if offset.toNat % 65536 ≠ 0 ∨ n = 0 ∨ 1024 < b + n then callReturn ctx 3 0 s
      else if !(upTo n).all (fun i => lookupKey (b + i) (dieAt s d).plane == some (t.part, t.region)) then callReturn ctx 3 0 s
      else
        let s := updDie s d (fun x => { x with plane := x.plane.filter (fun u => u.1 < b || b + n ≤ u.1) })
        callReturn ctx 0 0 (chargeLine t.part t.region (fun r => { r with planeUse := r.planeUse - n }) s))

/-- The dies on which a partition has cores. -/
def partDies (p : Part) : List Nat := (upTo 8).filter (fun d => p.cores.any (fun c => dieOf c == d))

/-- The 64 KiB pages of a range. -/
def pagesOf (base len : Nat) : List Nat := (upTo (len / 65536)).map (fun i => base + i * 65536)

/-- Base and length are multiples of 64 KiB. -/
def rangeAligned (base len : BitVec 64) : Bool := base.toNat % 65536 == 0 && len.toNat % 65536 == 0

/-- A pin, or the marker it became, of a region over a page (log 32: DESIGN CHOICE, unsafe). -/
def pinnedBy (part region va : Nat) (t : TlbEntry) : Bool := covers part va t && t.pinned == some region

/-- The leaves of a range, each once, or none when a page has no valid leaf. -/
def leavesOf (s : State) (p : Part) : List Nat → Option (List TlbEntry)
  | [] => some []
  | va :: t =>
    match walkEntry s p va, leavesOf s p t with
    | .ok e, some l => some (if l.any (fun x => x.vbase == e.vbase) then l else e :: l)
    | _, _ => none

/-- A die's TLB with leaves pinned for a region; a page already pinned records the region that asked last, and a revoked marker
stays in force (log 32: DESIGN CHOICE, unsafe). -/
def pinInto (region : Nat) (l : List TlbEntry) (tlb : List TlbEntry) : List TlbEntry :=
  tlb.filter (fun t => t.revoked || !l.any (fun e => e.part == t.part && e.vbase == t.vbase)) ++ l.map (fun e => { e with pinned := some region })

/-- PIN: nothing is pinned unless every page is (R144). -/
def execPin (ctx : Nat) (base len : BitVec 64) (s : State) : Result :=
  .next (match (ctxAt s ctx).task with
    | none => s
    | some t =>
      if !rangeAligned base len then callReturn ctx 3 0 s else
      match partAt s t.part with
      | none => s
      | some p =>
        if 2 ^ 47 < base.toNat + len.toNat then callReturn ctx 1 0 s else
        match leavesOf s p (pagesOf base.toNat len.toNat) with
        | none => callReturn ctx 1 0 s
        | some l =>
          let after (d : Nat) : List TlbEntry := pinInto t.region l (dieAt s d).tlb
          if (partDies p).any (fun d => 2048 < (after d).countP (fun e => e.pinned.isSome && !e.revoked)) then callReturn ctx 2 0 s
          else callReturn ctx 0 0 ((partDies p).foldl (fun s d => updDie s d (fun x => { x with tlb := pinInto t.region l x.tlb })) s))

/-- UNPIN: the entries stay, no longer pinned; revoked markers go (log 32: DESIGN CHOICE, unsafe). -/
def execUnpin (ctx : Nat) (base len : BitVec 64) (s : State) : Result :=
  .next (match (ctxAt s ctx).task with
    | none => s
    | some t =>
      if !rangeAligned base len ∨ 2 ^ 47 < base.toNat + len.toNat then callReturn ctx 3 0 s else
      match partAt s t.part with
      | none => s
      | some p =>
        let pages := pagesOf base.toNat len.toNat
        if !(partDies p).all (fun d => pages.all (fun va => (dieAt s d).tlb.any (pinnedBy t.part t.region va))) then callReturn ctx 3 0 s else
        let mine (e : TlbEntry) : Bool := overlapsRange t.part base.toNat len.toNat e && e.pinned == some t.region
        callReturn ctx 0 0 ((partDies p).foldl (fun s d => updDie s d (fun x =>
          { x with tlb := (x.tlb.filter (fun e => !(mine e && e.revoked))).map (fun e => if mine e then { e with pinned := none } else e) })) s))

/-! ## Ranged invalidation (R143) -/

/-- A request is carried out: the die TLBs of the partition's dies are held, overlapping entries go or become markers, and the
end of the hold falls due (log 33: DESIGN CHOICE, unsafe). -/
def invalidateRange (p : Part) (base len : Nat) (forced : Bool) (asker : Option Nat) (drain : Bool) (s : State) : Nat × State :=
  let (n, s) := freshId s
  let change (x : Die) : Die :=
    let l := if forced then x.tlb.map (fun e => if overlapsRange p.id base len e && e.pinned.isSome then { e with revoked := true } else e) else x.tlb
    { x with tlb := l.filter (fun e => !overlapsRange p.id base len e || (forced && e.revoked)), tlbHeld := x.tlbHeld ++ [n] }
  let s := (partDies p).foldl (fun s d =>
    (upTo 48).foldl (fun s i => updCore s (d * 48 + i) (fun k => { k with tlb := k.tlb.filter (fun e => !overlapsRange p.id base len e) })) (updDie s d change)) s
  let s := { s with invals := s.invals ++ [{ num := n, part := p.id, base := base, len := len, forced := forced, asker := asker, drain := drain, done := false }] }
  (n, post (.dieTlbHoldEnd n) s)

/-- INVALIDATE; the call returns once the request completes. -/
def execInvalidate (ctx : Nat) (base len mode : BitVec 64) (s : State) : Result :=
  let c := ctxAt s ctx
  .next (match c.task with
    | none => s
    | some t =>
      if !rangeAligned base len ∨ 1 < mode.toNat then callReturn ctx 3 0 s else
      match partAt s t.part with
      | none => s
      | some p =>
        let forced := mode == 1
        if !forced && (partDies p).any (fun d => (dieAt s d).tlb.any (fun e => overlapsRange t.part base.toNat len.toNat e && e.pinned.isSome && !e.revoked)) then
          callReturn ctx 1 0 s
        else
          let (n, s) := invalidateRange p base.toNat len.toNat forced (some t.thread) false s
          updCtx s ctx (fun c => { c with state := .waiting (.invalidation n) }))

/-- A held TLB of a die is free of a request (log 33: DESIGN CHOICE, unsafe). -/
def endHold (req : Nat) (s : State) : State := (upTo 8).foldl (fun s d => updDie s d (fun x => { x with tlbHeld := x.tlbHeld.filter (· != req) })) s

/-- DIE_TLB_HOLD_END: accesses in flight are whole steps of the model, so the request may complete next (log 33: DESIGN CHOICE, unsafe). -/
def execDieTlbHoldEnd (req : Nat) (s : State) : Result :=
  .next (match s.invals.find? (·.num == req) with
    | none => s
    | some _ => post (.rangedInvalidationComplete req) (endHold req { s with invals := s.invals.map (fun i => if i.num == req then { i with done := true } else i) }))

/-- A tile transfer that was translated through a range has still to be made (R143 step 4). -/
def transfersIn (s : State) (i : Inval) : Bool :=
  s.engines.any (fun e => e.part == i.part && e.failed.isNone && (match e.kind with
    | .tile _ sp _ ps _ => (sp == 0 || 4 ≤ sp) && ps.any (fun p => decide (i.base < p.addr.toNat + p.len) && decide (p.addr.toNat < i.base + i.len))
    | _ => false))

/-- RANGED_INVALIDATION_COMPLETE: the caller goes on, or the drain does (log 33: DESIGN CHOICE, unsafe). -/
def execRangedInvalidationComplete (req : Nat) (s : State) : Result :=
  .next (match s.invals.find? (·.num == req) with
    | none => s
    | some i =>
      if transfersIn s i then postOnce (.rangedInvalidationComplete req) s else
      let s := endHold req { s with invals := s.invals.filter (·.num != req) }
      let s := match i.asker with
        | some th => (match waitOfThread s th, slotOfThread s th with
          | some (.invalidation n), some k => if n = req then callReturn k 0 0 s else s
          | _, _ => s)
        | none => s
      if i.drain then completeDrain i.part s else s)

/-- DRAIN_OPERATIONS_SETTLED: the drain goes on to the forced invalidation of the whole space (R202 step 5). -/
def execDrainOperationsSettled (part : Nat) (s : State) : Result :=
  .next (match partAt s part with
    | none => s
    | some p =>
      if p.drain != some .operations then s else
      let s := updPart s part (fun p => { p with drain := some .invalidating })
      (invalidateRange p 0 (2 ^ 47) true none true s).2)

/-! ## The action of the runtime on a trap (R367) -/

/-- What a fault delivered to the pinning region's domain left standing stays stopped until something ends it (log 30: DESIGN CHOICE, unsafe). -/
def standFaulted (key thread : Nat) (s : State) : State :=
  match (ctxAt s key).task with
  | some t => if t.thread = thread then updCtx s key (fun c => { c with state := .waiting .faulted }) else s
  | none => s

/-- A trap of the focus goes unresolved to the fault domain of a region. -/
def unresolvedAt (region : Nat) (s : State) : State :=
  match s.cur.task with
  | none => { s with cur := { s.cur with state := .waiting .faulted } }
  | some t =>
    let key := s.curKey
    standFaulted key t.thread (deliver t.part region (faultOf s key s.cur.scause.toNat s.cur.stval) (some t.thread) false s)

/-- A trap of the focus goes unresolved to its own region (log 30: DESIGN CHOICE, unsafe). -/
def unresolved (s : State) : State := unresolvedAt (match s.cur.task with | some t => t.region | none => 0) s

/-- The kind of access that ACCESS of `sfinfo` names. -/
def accessOf (n : Nat) : Access :=
  match n with
  | 0 => .fetch | 1 => .load | 2 => .store | 3 => .atomic | 4 => .reduce | 5 => .alloc | 6 => .data | _ => .decode

/-- The access that faulted passes now, walked anew. -/
def passesNow (s : State) : Bool :=
  let c := s.cur
  let w : Who := { who s with priv := if c.spp then .s else .u }
  let va := c.stval.toNat
  let space := bits c.sfinfo.toNat 5 3
  let a := accessOf (bits c.sfinfo.toNat 2 0)
  let walked (tier : Bool) : Bool :=
    match partAt s w.part with
    | none => false
    | some p => decide (va < 2 ^ 47) && (match walkEntry s p va with
      | .ok t =>
        let pa := t.frame + (va - t.vbase)
        permits w.priv a t && (!tier || inTier pa) && !((a == .atomic || a == .reduce) && inTier pa)
      | .error _ => false)
  if space = 7 then
    (if 0xFFFFFF00 ≤ va / 2 ^ 32 then (match scalarPlace s w a va with | .ok _ => true | .error _ => false) else walked false)
  else if space = 0 ∨ space = 4 then walked (space = 4)
  else (match spacePlace s w space a va with | .ok _ => true | .error _ => false)

/-- The effective WDI of the focus's region. -/
def wdiOf (s : State) : Nat :=
  match s.cur.task with
  | some t => (match regionAt s t.part t.region with | some r => r.eff.wdi | none => 0)
  | none => 0

/-- The focus stands in its fault and gives up its lanes; a bound that runs since an earlier try goes on running. -/
def standInFault (w : Wait) (expiry : Instr) (s : State) : State :=
  let s := { s with cur := { s.cur with state := .waiting w, waitSince := cycleOf s s.curKey } }
  let s := if wdiOf s = 0 ∨ s.timers.any (fun t => t.event == expiry) then s else startTimer s.die false (wdiOf s) expiry s
  markDueDie s.die s

/-- A revoked marker's region, for the address that faulted. -/
def pinningRegion (s : State) : Option Nat :=
  ((dieAt s s.die).tlb.find? (fun t => covers (who s).part s.cur.stval.toNat t && t.revoked)).bind (·.pinned)

/-- The runtime call that a7 names. -/
def runtimeCall (s : State) : Result :=
  let a (i : BitVec 5) : Word := rx s i
  match (rx s 17).toNat with
  | 0 => execPlaneAllocate s.curKey (a 10) s
  | 1 => execPlaneFree s.curKey (a 10) (a 11) s
  | 2 => execPin s.curKey (a 10) (a 11) s
  | 3 => execUnpin s.curKey (a 10) (a 11) s
  | 4 => execInvalidate s.curKey (a 10) (a 11) (a 12) s
  | _ => .next (callReturn s.curKey (2 ^ 64 - 1) 0 s)

/-- The step of a context that stands at the entry of the runtime (log 14: DESIGN CHOICE, unsafe; log 18: DESIGN CHOICE, safe; log 60: DESIGN CHOICE, safe). -/
def runtimeAction (s : State) : Result :=
  let key := s.curKey
  match s.cur.scause.toNat with
  | 3 => .next (if Config.debuggerHolds s.nonce key then { s with cur := { s.cur with state := .waiting .debugger } } else unresolved s)
  | 8 => runtimeCall s
  | 26 | 29 => .next (if passesNow s then { s with cur := leaveTrap s.cur } else unresolved s)
  | 28 => .next (match pinningRegion s with | some r => unresolvedAt r s | none => unresolved s)
  | 30 => .next (standInFault .poolEmpty (.poolEmptyWaitExpiry key) s)
  | 50 =>
    .next (if bits s.cur.sfinfo.toNat 2 0 = 6 then standInFault (.rayPermit s.cur.stval.toNat) (.rayPermitWaitExpiry key) s
      else unresolved s)
  | _ => .next (unresolved s)

/-- The word that stood in a pool-empty or ray-permit fault has run to its end: the bound of the fault stops (log 18: DESIGN CHOICE, safe). -/
def faultServed (s : State) : State :=
  let key := s.curKey
  if s.timers.isEmpty then s
  else if s.cur.priv == .u && s.cur.convoy.isEmpty && s.cur.state == .running then stopTimer (.poolEmptyWaitExpiry key) (stopTimer (.rayPermitWaitExpiry key) s)
  else s

/-! ## Standing faults resume or expire -/

/-- The runtime of a slot executes `sret`. -/
def restartFault (ctx : Nat) (s : State) : State := updCtx s ctx (fun c => { leaveTrap c with state := .running })

/-- POOL_EMPTY_RESTART (log 31: DEDUCED, unsafe). -/
def execPoolEmptyRestart (ctx : Nat) (s : State) : Result :=
  let c := ctxAt s ctx
  .next (if c.state == .waiting .poolEmpty || atRuntime c 30 then restartFault ctx s else s)

/-- RAY_PERMIT_RESUME (log 31: DEDUCED, unsafe). -/
def execRayPermitResume (ctx : Nat) (s : State) : Result :=
  let c := ctxAt s ctx
  .next (match c.state with
    | .waiting (.rayPermit _) => restartFault ctx s
    | _ => if atRuntime c 50 then restartFault ctx s else s)

/-- A standing fault's bound has run out: it goes unresolved (log 31: DEDUCED, unsafe). -/
def expireFault (ctx : Nat) (s : State) : State :=
  let s := stopWaitTimers ctx s
  let s := retract (fun e => e == .poolEmptyRestart ctx || e == .rayPermitResume ctx) s
  let c := ctxAt s ctx
  match c.task with
  | some t => standFaulted ctx t.thread (deliver t.part t.region (faultOf s ctx c.scause.toNat c.stval) (some t.thread) false s)
  | none => s

/-- POOL_EMPTY_WAIT_EXPIRY. -/
def execPoolEmptyWaitExpiry (ctx : Nat) (s : State) : Result :=
  let c := ctxAt s ctx
  .next (if c.state == .waiting .poolEmpty || atRuntime c 30 then expireFault ctx s else s)

/-- RAY_PERMIT_WAIT_EXPIRY. -/
def execRayPermitWaitExpiry (ctx : Nat) (s : State) : Result :=
  let c := ctxAt s ctx
  .next (match c.state with
    | .waiting (.rayPermit _) => expireFault ctx s
    | _ => if atRuntime c 50 then expireFault ctx s else s)

/-- DEBUGGER_RESUME: a context stopped at a breakpoint runs on at the word there, one stopped by a single step where it stands (log 18: DESIGN CHOICE, safe; log 60: DESIGN CHOICE, safe). -/
def execDebuggerResume (ctx : Nat) (single : Bool) (s : State) : Result :=
  let c := ctxAt s ctx
  .next (if c.state != .waiting .debugger then s else
    setCtx s ctx { (if c.priv == .s && c.pc == Config.runtimeEntry && c.scause == 3 then leaveTrap c else c) with state := .running, stepping := single })

/-- A context that the debugger steps stops again once its word's convoy has retired (R355); a trap of the word goes to the runtime first (log 18: DESIGN CHOICE, safe;
log 60: DESIGN CHOICE, safe). -/
def stepStop (s : State) : State :=
  if s.cur.stepping && s.cur.state == .running && s.cur.convoy.isEmpty && !(s.cur.priv == .s && s.cur.pc == Config.runtimeEntry) then { s with cur := stepOver s.cur } else s

/-! ## The page service (R154, R155) -/

/-- The physical address of the level-3 entry of an address. -/
def leafPlace (s : State) (hbase va : Nat) : Nat :=
  let t2 := frameOf (readEntry s (hbase + bits va 47 42 * 8))
  frameOf (readEntry s (t2 + bits va 41 29 * 8)) + bits va 28 16 * 8

/-- What a backing record names: a tier offset, or blocks of a flash namespace; none when it fails the fetch. -/
inductive Backing where
  | tier (off : Nat)
  | flash (ctrl nsid lba : Nat)
  deriving DecidableEq, Repr

/-- A backing record (log 10: DESIGN CHOICE, safe). -/
def readBacking (r : List Byte) : Option Backing :=
  let loc := recNat r 0 8
  let w := recNat r 8 8
  if bits w 31 16 ≠ 0 ∨ bits w 7 2 ≠ 0 ∨ !recZero r 16 16 then none else
  match bits w 1 0 with
  | 1 => if loc % 65536 = 0 ∧ loc + 65536 ≤ Config.tierSize then some (.tier loc) else none
  | 2 => some (.flash (bits w 15 8) (bits w 63 32) loc)
  | _ => none

/-- Where a page's bytes stand. -/
def backingKey : Backing → Nat
  | .tier off => physKey (Config.tierBase + off)
  | .flash c n l => flashKey c n l 0

/-- The threads that wait for a page (log 59: DESIGN CHOICE, unsafe). -/
def pageWaiters (s : State) (part page : Nat) : List Nat := (threads s).filter (fun th => waitOfThread s th == some (.page part page))

/-- A thread's fault on a page that cannot be fetched goes unresolved (log 59: DESIGN CHOICE, unsafe). -/
def failPage (page thread : Nat) (s : State) : State :=
  match taskOfThread s thread with
  | none => s
  | some t =>
    let core := coreOfThread s thread
    let slot := match slotOfThread s thread with | some k => k % 4 | none => (match savedOfThread s thread with | some v => v.slot | none => 0)
    let addr : Word := match slotOfThread s thread, savedOfThread s thread with
      | some k, _ => (ctxAt s k).stval
      | none, some v => imageWord (getBytes (physKey v.frame) 13312 s.mem) 512
      | none, none => BitVec.ofNat 64 (page * 65536)
    deliver t.part t.region { cause := 27, core := core, slot := slot, node := t.node, detail := addr } (some thread) false s

/-- Engine operations that wait for a page (log 59: DESIGN CHOICE, unsafe). -/
def engineWaiters (s : State) (part page : Nat) : List EngineOp :=
  s.engines.filter (fun e => e.part == part && e.failed.isNone && mayStart e s &&
    (match runAll e s with | (_, some (27, a)) => a.toNat / 65536 == page | _ => false))

/-- The fetch of a page: the frame it takes and the bytes it brings, or none. -/
def fetchSource (s : State) (p : Part) (page : Nat) : Option (Nat × Nat × Backing) :=
  match walk s p.hbase (page * 65536) with
  | .leaf e _ _ =>
    let i := bits e 47 16
    if !bit e 8 ∨ p.backing.2 ≤ i then none else
    match p.pages, readBacking (getBytes (physKey (p.backing.1 + 32 * i)) 32 s.mem) with
    | f :: _, some b => some (e, f, b)
    | _, _ => none
  | .missing => none

/-- The page's leaf no longer says that it is remote: there is nothing to fetch. -/
def stillRemote (s : State) (p : Part) (page : Nat) : Bool :=
  match walk s p.hbase (page * 65536) with | .leaf e _ _ => bit e 8 | .missing => false

/-- The leaf with V 1, RP 0 and the frame. -/
def leafWith (e frame : Nat) : Nat := e - bits e 47 16 * 65536 - 256 + frame / 65536 * 65536

/-- Page bytes copied whole. -/
def copyPage (src frame : Nat) (s : State) : State :=
  let cells := sliceBytes src 65536 s.mem
  layCells (physKey frame) 65536 cells (coverStretch (physKey frame) 65536 s)

/-- PAGE_FETCH_COMPLETE (log 59: DESIGN CHOICE, unsafe). -/
def execPageFetchComplete (part page : Nat) (ok : Bool) (s : State) : Result :=
  .next (
    if !s.fetches.contains (part, page) then s else
    let s := { s with fetches := s.fetches.filter (· != (part, page)) }
    match partAt s part with
    | none => s
    | some p =>
      let waiters := pageWaiters s part page
      let ops := engineWaiters s part page
      let wake (s : State) : State :=
        checkSettled part (ops.foldl (fun s e => postOnce (.engineOperationComplete e.num) s) (waiters.foldl (fun s th => wakeRetry th s) s))
      if !stillRemote s p page then wake s else
      match (if ok then fetchSource s p page else none) with
      | none => checkSettled part (ops.foldl (fun s e => runEngine e (some page) s) (waiters.foldl (fun s th => failPage page th s) s))
      | some (e, f, b) =>
        let code := match b with | .tier _ => 0x201 | .flash _ _ _ => 0x202
        let s := countDie code 1 8 s
        let s := updPart (copyPage (backingKey b) f s) part (fun p => { p with pages := p.pages.drop 1 })
        wake (physWrite (leafPlace s p.hbase (page * 65536)) (bytesOf 8 (leafWith e f)) s))

end Sys2Proof.Machine
end

