-- ==== Sys2Proof/Machine/Commands.lean ====
section
/-! DEFINITION. The steps of the host queues (R23 to R41): register writes, consuming and answering, the command set, the
watchdog, and checkpoints. -/

namespace Sys2Proof.Machine

/-! ## Register writes -/

/-- A write to a queue window, which is ignored until the firmware has enabled the windows (R42). -/
def atWindow (f : State → State) (s : State) : State := if s.axis.windows then f s else s

/-- QCTL_EN_SET. -/
def execQctlEnSet (q : Nat) (v : BitVec 64) (s : State) : Result := .next (atWindow (writeQctl q (v ||| 1)) s)
/-- QCTL_EN_CLEAR. -/
def execQctlEnClear (q : Nat) (v : BitVec 64) (s : State) : Result := .next (atWindow (writeQctl q (v &&& ~~~1)) s)
/-- QCTL_RESUME. -/
def execQctlResume (q : Nat) (v : BitVec 64) (s : State) : Result := .next (atWindow (writeQctl q (v ||| 8)) s)
/-- QCTL_HOLD. -/
def execQctlHold (q : Nat) (v : BitVec 64) (s : State) : Result := .next (atWindow (writeQctl q v) s)
/-- QCTL_DISC. -/
def execQctlDisc (q : Nat) (v : BitVec 64) (s : State) : Result := .next (atWindow (writeQctl q (v ||| 2)) s)
/-- QDBELL_WRITE. -/
def execQdbellWrite (q : Nat) (v : BitVec 64) (s : State) : Result := .next (atWindow (writeQdbell q v) s)
/-- QACONS_WRITE. -/
def execQaconsWrite (q : Nat) (v : BitVec 64) (s : State) : Result := .next (atWindow (writeQacons q v) s)
/-- QWDOG_WRITE. -/
def execQwdogWrite (q : Nat) (v : BitVec 64) (s : State) : Result := .next (atWindow (writeQwdog q v) s)
/-- QUEUE_REGISTER_WRITE. -/
def execQueueRegisterWrite (q : Nat) (off : BitVec 12) (size : Nat) (v : BitVec 64) (s : State) : Result :=
  .next (atWindow (writeQueueReg q off.toNat size v) s)

/-! ## Consuming and answering -/

/-- SLOT_CONSUME. -/
def execSlotConsume (q : Nat) (s : State) : Result := .next (consumeSlot q s)

/-- Drains that waited for a copy phase begin once its command is answered (R40). -/
def startWaiting (s : State) : State :=
  let answered := (upTo 64).all (fun q => (queueAt s q).due.all (fun a => a.event || !(a.opc == 8 || a.opc == 9)))
  s.waitingDrains.foldl (fun s w =>
    if answered && !copying s w.part then beginDrain w.part { s with waitingDrains := s.waitingDrains.filter (· != w) } else s) s

/-- ANSWER_EMIT. -/
def execAnswerEmit (q : Nat) (s : State) : Result :=
  let part := (queueAt s q).part
  let s := haltDrained q (emitAnswer q (refreshKilled q s))
  .next (startWaiting (match part with | some p => endDrain p s | none => s))

/-! ## The command set (R34) -/

/-- A command is carried out once: after every earlier one where ORDER asks, with its flags and unused arguments zero, and on a
bound queue where it needs one (log 34: DESIGN CHOICE, unsafe). -/
def command (q : Nat) (hseq : BitVec 32) (used : Nat) (bound : Bool) (again : Instr) (f : Cmd → State → State) (s : State) : Result :=
  .next (match cmdAt s q hseq with
    | none => s
    | some c =>
      if c.begun then s
      else if bit c.flags.toNat 0 && !earliest s q hseq then post again s
      else
        let s := updCmd q hseq (fun c => { c with begun := true }) s
        if bound && (queueAt s q).part.isNone then finish q hseq 5 0 0 s
        else if c.flags.toNat / 2 ≠ 0 || (c.args.drop used).any (· != 0) then finish q hseq 4 0 0 s
        else f c s)

/-- Argument i of a command. -/
def arg (c : Cmd) (i : Nat) : Word := c.args.getD i 0

/-- The partition a queue is bound to; 64 where it is bound to none. -/
def boundTo (s : State) (q : Nat) : Nat := ((queueAt s q).part).getD 64

/-- NOP. -/
def execNop (q : Nat) (hseq : BitVec 32) (s : State) : Result :=
  command q hseq 0 false (.nop q hseq) (fun _ s => finish q hseq 0 0 0 s) s

/-- RESERVED_OPCODE. -/
def execReservedOpcode (q : Nat) (hseq : BitVec 32) (s : State) : Result :=
  .next (finish q hseq 1 0 0 (updCmd q hseq (fun c => { c with begun := true }) s))

/-- QFENCE. -/
def execQfence (q : Nat) (hseq : BitVec 32) (s : State) : Result :=
  .next (match cmdAt s q hseq with
    | none => s
    | some c =>
      if c.begun then s
      else if earliest s q hseq then
        finish q hseq (if c.flags.toNat / 2 ≠ 0 || c.args.any (· != 0) then 4 else 0) 0 0 (updCmd q hseq (fun c => { c with begun := true }) s)
      else post (.qfence q hseq) s)

/-- WDOG. -/
def execWdog (q : Nat) (hseq : BitVec 32) (s : State) : Result :=
  command q hseq 1 false (.wdog q hseq) (fun c s =>
    if 2 ^ 32 ≤ (arg c 0).toNat then finish q hseq 4 0 0 s else finish q hseq 0 0 0 (writeQwdog q (arg c 0) s)) s

/-- A disabled queue bound to a partition, which takes at most eight (R36), or unbound; none on a bad argument. -/
def bindQueue (t p : Nat) (s : State) : Option State :=
  if t = 0 ∨ 64 ≤ t ∨ (queueAt s t).state ≠ .disabled then none
  else if p = 0xFF then some (updQueue s t (fun k => { k with part := none }))
  else if (partAt s p).isNone ∨ 8 ≤ (upTo 64).countP (fun i => i != t && (queueAt s i).part == some p) then none
  else some (updQueue s t (fun k => { k with part := some p }))

/-- QBIND. -/
def execQbind (q : Nat) (hseq : BitVec 32) (s : State) : Result :=
  command q hseq 2 false (.qbind q hseq) (fun c s =>
    match bindQueue (arg c 0).toNat (arg c 1).toNat s with
    | some s => finish q hseq 0 0 0 s
    | none => finish q hseq 4 0 0 s) s

/-- FSTEP: a step of every die of the mask is requested (log 34: DESIGN CHOICE, unsafe). -/
def execFstep (q : Nat) (hseq : BitVec 32) (s : State) : Result :=
  command q hseq 2 false (.fstep q hseq) (fun c s =>
    let m := (arg c 0).toNat
    let r := (arg c 1).toNat
    if m = 0 ∨ 256 ≤ m ∨ r < 6 ∨ 18 < r then finish q hseq 4 0 0 s else
    let s := updCmd q hseq (fun c => { c with left := BitVec.ofNat 8 m }) s
    ((upTo 8).filter (fun d => bit m d)).foldl (fun s d => requestStep d { ratio := r, askers := [(q, hseq)] } s) s) s

/-! ## Partitions (R35, R36) -/

/-- The fields of a region control block as it stands in memory (R53). -/
def blockFields (b : List Byte) : RegionFields :=
  let w0 := recNat b 0 8
  let w1 := recNat b 8 8
  let w2 := recNat b 16 8
  let w4 := recNat b 32 8
  { cores := bits w1 24 16, ctxs := bits w1 42 32, segs := bits w1 63 43, rsv := bits w1 7 0, facet := bits w2 13 0, plane := bits w2 45 32,
    prio := bits w0 2 0, policy := bits w0 9 8, wdi := recNat b 24 4, lsplit := bits w0 13 12, start := bit w0 11, bwin := bits w4 38 32,
    w := (upTo 4).map (fun i => toSigned 8 (w4 / 2 ^ (8 * i))), rnode := BitVec.ofNat 64 (recNat b 40 8), rlim := bits w0 19 16 }

/-- A reserved field or a device-owned byte of a block is nonzero (R54). -/
def blockReserved (b : List Byte) : Bool :=
  let w0 := recNat b 0 8
  let w1 := recNat b 8 8
  let w2 := recNat b 16 8
  bits w0 63 44 != 0 || bits w0 31 20 != 0 || bits w0 15 14 != 0 || bit w0 10 || bits w0 7 3 != 0 || bits w1 31 25 != 0 || bits w1 15 8 != 0 ||
    bits w2 63 46 != 0 || bits w2 31 14 != 0 || recNat b 28 4 != 0 || bits (recNat b 32 8) 63 39 != 0 || bits (recNat b 56 8) 63 4 != 0 || !recZero b 64 64

/-- The effective fields (R56): own where the OVR bit is set, else the parent's effective ones. -/
def effective (ovr : Nat) (own par : RegionFields) : RegionFields :=
  let o (i : Nat) : RegionFields := if bit ovr i then own else par
  { cores := (o 0).cores, ctxs := (o 1).ctxs, segs := (o 2).segs, rsv := (o 2).rsv, facet := (o 3).facet, plane := (o 4).plane, prio := (o 5).prio,
    policy := (o 6).policy, wdi := (o 7).wdi, lsplit := (o 8).lsplit, start := (o 9).start, bwin := (o 10).bwin, w := (o 10).w,
    rnode := (o 11).rnode, rlim := (o 11).rlim }

/-- Effective values in range, and the restart checks (R54). -/
def fieldsOk (f : RegionFields) : Bool :=
  f.policy != 3 && f.lsplit != 3 && decide (8 ≤ f.bwin) && decide (f.bwin ≤ 64) && decide (f.cores ≤ 384) &&
    (f.policy != 2 || (f.rnode != 0 && f.rnode.toNat % 128 == 0))

/-- The ring of a block: none where ERING is 0. -/
def blockRing (b : List Byte) : Option (Word × Nat) :=
  let a := recNat b 48 8
  if a = 0 then none else some (BitVec.ofNat 64 a, bits (recNat b 56 8) 3 0)

/-- A ring is aligned and of a size from 2^4 to 2^12. -/
def ringOk (r : Option (Word × Nat)) : Bool :=
  match r with | none => true | some (a, n) => a.toNat % 32 == 0 && decide (4 ≤ n) && decide (n ≤ 12)

/-- A region accepted into the tree (log 6: DESIGN CHOICE, safe). -/
def newRegion (part idx : Nat) (block : Word) (parent : Option Nat) (parentBlock : Word) (eff : RegionFields) (ring : Option (Word × Nat)) : Region :=
  { part := part, idx := idx, block := block, parent := parent, parentBlock := parentBlock, eff := eff, ring := ring, state := .active, rcount := 0,
    live := 0, outs := 0, segUse := 0, ctxUse := 0, coreUse := [], planeUse := 0, facetUse := 0, written := 0, elost := 0, ehead := 0, gerr := 0, retirers := [] }

/-- The fields of a partition record; the runtime and the Axis complex supply the rest (log 10: DESIGN CHOICE, safe). -/
def recordPart (id : Nat) (b : List Byte) : Part :=
  { id := id, root := BitVec.ofNat 64 (recNat b 0 8), hbase := recNat b 8 8, hlen := recNat b 16 8, stkBase := BitVec.ofNat 64 (recNat b 24 8),
    stkN := recNat b 36 2, stkSize := recNat b 32 4, cores := (upTo 384).filter (fun g => bit (recNat b (48 + g / 8) 1) (g % 8)),
    stackSlots := [], frames := frameList (Config.saveFrames id), pages := Config.pageFrames id, backing := Config.backing id, tier := Config.tierPart id,
    drain := none, expired := [], quiesced := false, destroy := [], portDrains := 0, announced := false }

/-- The checks of R35 on a record, the root block left out. -/
def recordOk (s : State) (b : List Byte) (p : Part) : Bool :=
  recZero b 38 2 && recZero b 40 8 && recZero b 96 32 && !p.cores.isEmpty &&
    p.hbase % 2 ^ 30 == 0 && p.hlen % 2 ^ 30 == 0 && p.hlen != 0 && decide (p.hbase + p.hlen ≤ 8 * Config.hbmPerDie) &&
    s.parts.all (fun r => r.id != p.id && !overlap p.hbase p.hlen r.hbase r.hlen && !p.cores.any r.cores.contains) &&
    (upTo 64).all (fun q => (queueAt s q).state == .disabled || (rings (queueAt s q)).all (fun r => !overlap p.hbase p.hlen r.1 r.2)) &&
    p.stkBase.toNat % 4096 == 0 && p.stkSize % 4096 == 0 &&
    (if p.stkN = 0 then p.stkBase == 0 && p.stkSize == 0 else p.stkBase != 0 && p.stkSize != 0)

/-- A partition created from a record, with its root region, and quiesced where a checkpoint of all of them is under way; none on a bad argument (log 10: DESIGN CHOICE, safe; log 34: DESIGN CHOICE, unsafe). -/
def createPart (rec id : Nat) (s : State) : Option State :=
  if 64 ≤ id ∨ rec % 128 ≠ 0 ∨ !physExists rec then none else
  let b := physRead s rec 128
  let p := recordPart id b
  if !recordOk s b p then none else
  let s' := { s with parts := s.parts ++ [p] }
  match deviceRead s' id p.root 128 with
  | none => none
  | some r =>
    let f := blockFields r
    if p.root.toNat % 128 ≠ 0 ∨ blockReserved r ∨ !fieldsOk f ∨ (blockRing r).isNone ∨ !ringOk (blockRing r) then none else
    some (settleQuiesced { s' with regions := s'.regions ++ [newRegion id 0 p.root none 0 f (blockRing r)] })

/-- PCREATE. -/
def execPcreate (q : Nat) (hseq : BitVec 32) (s : State) : Result :=
  command q hseq 2 false (.pcreate q hseq) (fun c s =>
    match createPart (arg c 0).toNat (arg c 1).toNat s with
    | some s => finish q hseq 0 (arg c 1) 0 s
    | none => finish q hseq 4 0 0 s) s

/-- A partition may be destroyed: it exists and no queue bound to it is enabled. -/
def mayDestroy (s : State) (id : Nat) : Bool :=
  (partAt s id).isSome && (upTo 64).all (fun q => (queueAt s q).part != some id || (queueAt s q).state == .disabled)

/-- PDESTROY: the partition is drained and then goes. -/
def execPdestroy (q : Nat) (hseq : BitVec 32) (s : State) : Result :=
  command q hseq 1 false (.pdestroy q hseq) (fun c s =>
    let id := (arg c 0).toNat
    if !mayDestroy s id then finish q hseq 4 0 0 s
    else askDrain id (updPart s id (fun p => { p with destroy := p.destroy ++ [(q, hseq)] }))) s

/-- PDRAIN: of the bound partition, or on the administrative queue of the one named. A drain that has come to its answers has
nothing left to join (log 34: DESIGN CHOICE, unsafe). -/
def execPdrain (q : Nat) (hseq : BitVec 32) (s : State) : Result :=
  command q hseq (if q = 0 then 1 else 0) (q != 0) (.pdrain q hseq) (fun c s =>
    let id := if q = 0 then (arg c 0).toNat else boundTo s q
    match partAt s id with
    | none => finish q hseq 4 0 0 s
    | some p => if p.drain == some .answering then finish q hseq 0 0 0 s else askDrain id s) s

/-! ## Regions and tasks -/

/-- The lowest region index that no region of a partition holds (R362). -/
def freeRegion (s : State) (part : Nat) : Nat := ((upTo 4096).find? (fun i => (regionAt s part i).isNone)).getD 4096

/-- RCREATE. -/
def createRegion (part : Nat) (block parentBlock : Word) (s : State) : Option (Nat × State) :=
  let par := if parentBlock = 0 then regionAt s part 0 else s.regions.find? (fun r => r.part == part && r.block == parentBlock)
  match deviceRead s part block 128, par with
  | some b, some par =>
    let f := effective (bits (recNat b 0 8) 43 32) (blockFields b) par.eff
    let i := freeRegion s part
    if block.toNat % 128 ≠ 0 ∨ blockReserved b ∨ par.state ≠ .active ∨ 16 ≤ (ancestry s part par.idx).length ∨ 4096 ≤ i ∨ !fieldsOk f ∨ !ringOk (blockRing b) then none
    else
      some (i, { s with regions := s.regions ++ [newRegion part i block (some par.idx) par.block f (blockRing b)] })
  | _, _ => none

/-- RCREATE (log 34: DESIGN CHOICE, unsafe). -/
def execRcreate (q : Nat) (hseq : BitVec 32) (s : State) : Result :=
  command q hseq 2 true (.rcreate q hseq) (fun c s =>
    match createRegion (boundTo s q) (arg c 0) (arg c 1) s with
    | some (i, s) => finish q hseq 0 (BitVec.ofNat 64 (handleOf (boundTo s q) i)) 0 s
    | none => finish q hseq 4 0 0 s) s

/-- RRETIRE: a killing region retires once its kill has ended (R73). -/
def execRretire (q : Nat) (hseq : BitVec 32) (s : State) : Result :=
  command q hseq 1 true (.rretire q hseq) (fun c s =>
    let p := boundTo s q
    let h := (arg c 0).toNat
    match regionAt s p (h % 65536) with
    | none => finish q hseq 4 0 0 s
    | some r =>
      if h / 65536 ≠ p ∨ r.idx = 0 ∨ r.state = .retired ∨ s.regions.any (fun x => x.part == p && x.parent == some r.idx && x.state != .retired) then
        finish q hseq 4 0 0 s
      else
        let s := updRegion s p r.idx (fun r => { r with retirers := r.retirers ++ [(q, hseq)], state := if r.state = .killing then .killing else .retiring })
        checkRetire p r.idx s) s

/-- GRUN: the node is submitted to the queue's home die, and the command waits for its object; where the Locus is full it waits to enter (R78) (log 12: DESIGN CHOICE, safe; log 34: DESIGN CHOICE, unsafe). -/
def execGrun (q : Nat) (hseq : BitVec 32) (s : State) : Result :=
  command q hseq 3 true (.grun q hseq) (fun c s =>
    let p := boundTo s q
    if (arg c 1).toNat % 16 ≠ 0 then finish q hseq 4 0 0 s else
    let h := (queueAt s q).home
    match submitNode p (arg c 0) h none true s with
    | (t, .full) => holdNode p (match deviceRead t p (arg c 0) 128 with | some n => bits (nodeRegion n) 11 0 | none => 0) (arg c 0) h none (some (q, hseq)) none t
    | r => runSubmitted q c r) s

/-! ## The watchdog (R37, R38) -/

/-- WATCHDOG_EXPIRY: a bound queue's partition is drained; another queue halts. -/
def execWatchdogExpiry (q : Nat) (s : State) : Result :=
  let k := queueAt s q
  .next (if !watchdogLive k || k.wdog == 0 || inFlight k == 0 || k.wleft != 0 then s else
    let s := logError k.home 8 none (openField s) (BitVec.ofNat 64 q) s
    match (if q = 0 then none else k.part) with
    | some p => askDrain p (eventAnswer q 8 (updPart s p (fun x => { x with expired := x.expired ++ [q] })))
    | none => eventAnswer q 8 (setQueue s q { k with state := .halted, err := 3 }))

/-! ## Checkpoints (R39, R40) -/

/-- Entries of a quiescing partition are held: open windows are abandoned, and the hub's copies of escalated entries go (R84) (log 36: DESIGN CHOICE, unsafe). -/
def holdEntries (part : Nat) (s : State) : State :=
  let s := updLocus 8 (fun x => { x with entries := x.entries.filter (fun e => !(e.part == part && e.origin.isSome && e.state != .dispatched)) }) s
  (upTo 9).foldl (fun s l =>
    let mine (e : Entry) : Bool := e.part == part && e.state != .dispatched
    let s := ((locusAt s l).entries.filter mine).foldl (fun s e => stopTimer (.bidWindowExpiry l e.num e.round) (stopTimer (.commitTimeout l e.num e.round) s)) s
    kickLocus l (updLocus l (fun x => { x with entries := x.entries.map (fun e =>
      if mine e then { e with state := .held, asked := [], answers := [], leftOut := [], awardedNow := [] } else e) }) s)) s

/-- The bytes of a scope: where they begin in HBM, and how many (log 36: DESIGN CHOICE, unsafe). -/
def scopeRange (s : State) (all : Bool) (parts : List Nat) : Nat × Nat :=
  if all then (0, 8 * Config.hbmPerDie) else
  match parts with
  | p :: _ => (match partAt s p with | some x => (x.hbase, x.hlen) | none => (0, 0))
  | [] => (0, 0)

/-- A checkpoint begins: the partitions in scope quiesce. -/
def beginCheckpoint (q : Nat) (hseq : BitVec 32) (load : Bool) (c : Cmd) (s : State) : State :=
  let scope := (arg c 1).toNat
  let part := if q = 0 then (arg c 2).toNat else boundTo s q
  let bad := if scope = 0 then (q ≠ 0 ∧ arg c 2 ≠ 0) ∨ (partAt s part).isNone else scope ≠ 1 ∨ q ≠ 0 ∨ arg c 2 ≠ 0
  let all := scope = 1
  let parts := if scope = 1 then s.parts.map (·.id) else [part]
  let off := (arg c 0).toNat
  if bad ∨ off % 2 ^ 30 ≠ 0 ∨ Config.tierSize < off + (scopeRange s all parts).2 then finish q hseq 4 0 0 s else
  let s := { s with checkpoints := s.checkpoints ++ [{ q := q, hseq := hseq, load := load, tierOff := off, parts := parts, all := all, copying := false }] }
  checkQuiesced (parts.foldl (fun s p => holdEntries p s) (settleQuiesced s))

/-- CKSAVE. -/
def execCksave (q : Nat) (hseq : BitVec 32) (s : State) : Result :=
  command q hseq 3 (q != 0) (.cksave q hseq) (beginCheckpoint q hseq false) s

/-- CKLOAD. -/
def execCkload (q : Nat) (hseq : BitVec 32) (s : State) : Result :=
  command q hseq 3 (q != 0) (.ckload q hseq) (beginCheckpoint q hseq true) s

/-- A checkpoint by its command. -/
def checkpointAt (s : State) (q : Nat) (hseq : BitVec 32) : Option Checkpoint := s.checkpoints.find? (fun c => c.q == q && c.hseq == hseq)

/-- CHECKPOINT_QUIESCED: the copy phase begins, and it ends or fails. -/
def execCheckpointQuiesced (q : Nat) (hseq : BitVec 32) (s : State) : Result :=
  .next (match checkpointAt s q hseq with
    | none => s
    | some c =>
      if c.copying then s else
      post (.checkpointCopyComplete q hseq) { s with checkpoints := s.checkpoints.map (fun x => if x == c then { x with copying := true } else x) })

/-- The 64 KiB pages of HBM that hold a ring of an enabled queue (R39). -/
def ringPage (s : State) (pa : Nat) : Bool :=
  (upTo 64).any (fun q => (queueAt s q).state != .disabled && (rings (queueAt s q)).any (fun r => overlap r.1 r.2 (pa / 65536 * 65536) 65536))

/-- The first n bytes of a checkpoint's copy: HBM to the tier, or the tier to HBM, where a load of all HBM leaves out pages of rings (log 36: DESIGN CHOICE, unsafe). -/
def copyCheckpoint (c : Checkpoint) (n : Nat) (s : State) : State :=
  let hbm := (scopeRange s c.all c.parts).1
  let tier := Config.tierBase + c.tierOff
  if !c.load then
    clearErrors (physKey tier) n (layCells (physKey tier) n (sliceBytes (physKey hbm) n s.mem) (breakReservations none (physKey tier) n s))
  else
    let keep (off : Nat) : Bool := c.all && ringPage s (hbm + off)
    let cells := (sliceBytes (physKey tier) n s.mem).filter (fun x => !keep x.1) ++ (sliceBytes (physKey hbm) n s.mem).filter (fun x => keep x.1)
    clearErrors (physKey hbm) n (layCells (physKey hbm) n cells (breakReservations none (physKey hbm) n s))

/-- The 64 KiB pages, by number, that hold a ring of an enabled queue. -/
def ringPages (s : State) : List Nat :=
  ((upTo 64).flatMap (fun q => if (queueAt s q).state == .disabled then [] else
    (rings (queueAt s q)).flatMap (fun r => (upTo ((r.1 + r.2 - 1) / 65536 + 1 - r.1 / 65536)).map (fun i => r.1 / 65536 + i)))).eraseDups

/-- How many of the first n bytes of its scope a checkpoint copies: a load of all HBM leaves out pages of rings (R34, R39). -/
def copiedBytes (s : State) (c : Checkpoint) (n : Nat) : Nat :=
  if c.load && c.all then (ringPages s).foldl (fun m p => m - (min n (p * 65536 + 65536) - p * 65536)) n else n

/-- A checkpoint ends: awards resume. -/
def endCheckpoint (c : Checkpoint) (status : Nat) (r0 : Nat) (s : State) : State :=
  let s := releaseHeld (fun _ => true) (settleQuiesced { s with checkpoints := s.checkpoints.filter (· != c) })
  finish c.q c.hseq status (BitVec.ofNat 64 r0) 0 s

/-- CHECKPOINT_COPY_COMPLETE. -/
def execCheckpointCopyComplete (q : Nat) (hseq : BitVec 32) (s : State) : Result :=
  .next (match checkpointAt s q hseq with
    | none => s
    | some c =>
      if !c.copying then s else
      let n := (scopeRange s c.all c.parts).2
      endCheckpoint c 0 (copiedBytes s c n) (copyCheckpoint c n s))

/-- Bytes past the offset reached take values that nothing fixes (log 12: DESIGN CHOICE, safe) (log 36: DESIGN CHOICE, unsafe). -/
def spoil (key n : Nat) (s : State) : State :=
  { s with mem := (upTo n).foldl (fun m i => setByte (key + i) ((Config.word (freeIndex s i)).setWidth 8) m) s.mem }

/-- CHECKPOINT_CXL_ERROR: the copy ends where it has come to; the tier's bytes past that are open (log 36: DESIGN CHOICE, unsafe). -/
def execCheckpointCxlError (q : Nat) (hseq : BitVec 32) (reached : Nat) (s : State) : Result :=
  .next (match checkpointAt s q hseq with
    | none => s
    | some c =>
      if !c.copying then s else
      let n := (scopeRange s c.all c.parts).2
      let r := min reached n
      let s := retract (· == .checkpointCopyComplete q hseq) s
      endCheckpoint c 9 (copiedBytes s c r) (spoil (physKey (Config.tierBase + c.tierOff) + r) (n - r) (copyCheckpoint c r s)))

end Sys2Proof.Machine
end

