-- ==== Sys2Proof/Machine/Axis.lean ====
section
/-! DEFINITION. The Axis complex (R42 to R52): boot, images, the alarm, the key store and the services of the management port; and
what reaches memory from outside (R13, R33, R42, R197). -/

namespace Sys2Proof.Machine

/-- The Axis complex changed. -/
def updAxis (f : Axis → Axis) (s : State) : State := { s with axis := f s.axis }

/-! ## Images (R43) -/

/-- The fused minimum SVN of a KIND (log 11: DESIGN CHOICE, safe). -/
def minSvn (s : State) (kind : Nat) : Nat := (lookupKey kind s.axis.minSvn).getD (Config.fuseSvn kind)

/-- SVN of an image. -/
def imageSvn (img : List Byte) : Nat := recNat img 8 4

/-- Why an image does not pass, as FAIL codes it: none where it passes. The code of a wrong MAGIC or KIND is open (log 12: DESIGN CHOICE, safe) (log 8: DESIGN CHOICE, safe; log 11: DESIGN CHOICE, safe; log 37: DESIGN CHOICE, unsafe). -/
def imageFault (s : State) (kind : Nat) (img : List Byte) : Option Nat :=
  let pubk := (img.drop 96).take 1793
  if img.length < 4096 ∨ recNat img 0 4 ≠ 0x5A384657 ∨ recNat img 4 4 ≠ kind then some ((Config.word (freeIndex s 7)).toNat % 16)
  else if !(recZero img 12 4 && recZero img 1889 31 && recZero img 3202 894) then some 5
  else if !Config.fuseHashes.any (fun h => h == some (Config.shake256 pubk)) then some 1
  else if 1280 < recNat img 1920 2 ∨ !Config.falconVerify pubk (img.take 1920) ((img.drop 1922).take (recNat img 1920 2)) then some 2
  else if Config.shake256 ((img.drop 4096).take (recNat img 16 8)) ≠ (img.drop 32).take 64 then some 3
  else if imageSvn img < minSvn s kind then some 4
  else none

/-- An image rejected is logged (R51). -/
def rejectImage (code : Nat) (s : State) : State := logError 8 7 none (openField s) (BitVec.ofNat 64 code) s

/-! ## Halting (R48) -/

/-- A compute die held in reset: its log and its counters are the Axis complex's to read. -/
def heldDie (x : Die) : Die := { Die.reset with log := x.log, logSeq := x.logSeq, counters := x.counters }

/-- What the compute dies and the services of the device hold is gone; the steps that were due are not taken. -/
def stopDevice (s : State) : State :=
  { s with
    cur := Ctx.reset, curKey := 0, parked := [], cores := [], dies := s.dies.map heldDie, saved := [], gangs := [], engines := [], pending := [], tokens := [],
    invals := [], fetches := [], checkpoints := [], waitingDrains := [], owed := [], agenda := [],
    timers := s.timers.filter (fun t => t.event == .keyStoreEraseDone),
    hub := { s.hub with locus := Locus.reset, barriers := [], rays := [] } }

/-- The device halts; only a power-on reset leaves this (log 37: DESIGN CHOICE, unsafe). -/
def haltDevice (s : State) : State :=
  if s.axis.stage = .halted then s else stopDevice (updAxis (fun a => { a with stage := .halted, dies := 0 }) s)

/-! ## Boot (R42) -/

/-- The source that the ROM waits for is the host (log 11: DESIGN CHOICE, safe; log 37: DESIGN CHOICE, unsafe). -/
def hostSource (s : State) : Bool := if s.axis.tried = 0 then Config.hostFirst else !Config.hostFirst

/-- A source has failed: the ROM tries the next, or the device halts and the failure is kept in fuses. -/
def failSource (code : Nat) (s : State) : State :=
  let s := updAxis (fun a => { a with fail := code, tried := a.tried + 1, answered := true }) s
  if s.axis.tried < 2 then s else haltDevice (updAxis (fun a => { a with fusedFail := code }) s)

/-- The firmware runs from an image that passed. -/
def runFirmware (img : List Byte) (s : State) : State := updAxis (fun a => { a with stage := .bringup, firmware := img }) s

/-- A key-store erase completes: the device has no identity from here on (log 37: DESIGN CHOICE, unsafe). -/
def finishErase (s : State) : State :=
  updAxis (fun a => { a with store := { a.store with keys := none, erasing := false, erasedAt := some s.hub.refk } }) s

/-- What a loss of power or a power-on reset leaves: fuses, the key store, staged firmware, the flash and the tier; and what waits outside (log 8: DESIGN CHOICE, safe; log 11: DESIGN CHOICE, safe; log 37: DESIGN CHOICE, unsafe). -/
def coldState (s : State) : State :=
  { State.reset with
    mem := s.mem.filter (fun c => 2 ^ 60 ≤ c.1 || (Config.tierBase ≤ c.1 && c.1 < Config.tierBase + Config.tierSize)),
    inputs := s.inputs, nonce := s.nonce,
    axis := { State.reset.axis with fusedFail := s.axis.fusedFail, minSvn := s.axis.minSvn, staged := s.axis.staged, stagedRuntime := s.axis.stagedRuntime, store := s.axis.store } }

/-- POWER_ON_RESET: an interrupted erase completes first, then a staged image takes effect (log 1: DESIGN CHOICE, unsafe; log 3: DESIGN CHOICE, safe; log 37: DESIGN CHOICE, unsafe). -/
def execPowerOnReset (s : State) : Result :=
  .next (
    let s := updAxis (fun a => { a with store := { a.store with boots := a.store.boots + 1 } }) (coldState s)
    let s := if s.axis.store.erasing then finishErase s else s
    let s := updAxis (fun a => { a with bootRuntime := a.stagedRuntime, stagedRuntime := none }) s
    match s.axis.staged with
    | none => s
    | some img =>
      let s := updAxis (fun a => { a with staged := none }) s
      match imageFault s 1 img with
      | none => runFirmware img s
      | some c => rejectImage c s)

/-- BOOTLEN_WRITE: the ROM verifies the host's image at once, also while it waits for the namespace; a failure there uses up no source (R42) (log 37: DESIGN CHOICE, unsafe). -/
def execBootlenWrite (len : BitVec 64) (s : State) : Result :=
  let n := bits len.toNat 23 0
  .next (if s.axis.stage ≠ .rom ∨ !s.axis.powered ∨ n = 0 then s else
    let s := updAxis (fun a => { a with bootLen := n }) s
    let img := getBytes (bootKey 0) n s.mem
    match imageFault s 1 img with
    | none => runFirmware img s
    | some c =>
      let s := rejectImage c s
      if hostSource s then failSource c s else updAxis (fun a => { a with fail := c, answered := true }) s)

/-- BOOT_IMAGE_FETCHED: the fused namespace has answered. -/
def execBootImageFetched (image : List (BitVec 8)) (s : State) : Result :=
  .next (if s.axis.stage ≠ .rom ∨ !s.axis.powered ∨ hostSource s then s else
    match imageFault s 1 image with
    | none => runFirmware image s
    | some c => failSource c (rejectImage c s))

/-- BOOT_SOURCE_NO_ANSWER: FAIL is 6 where no source gave an image; else it stays that of the image that failed (R42). -/
def execBootSourceNoAnswer (s : State) : Result :=
  .next (if s.axis.stage ≠ .rom ∨ !s.axis.powered then s else
    let s := updAxis (fun a => { a with tried := a.tried + 1 }) s
    let code := if s.axis.answered then s.axis.fail else 6
    if s.axis.tried < 2 then s else haltDevice (updAxis (fun a => { a with fail := code, fusedFail := code }) s))

/-- The link ports of the package after training (log 38: DESIGN CHOICE, unsafe). -/
def trained (hub : Bool) (x : Die) : Die := { x with ports := x.ports.mapIdx (fun i p => if hub || i < 4 then { p with up := true, credits := linkBuffers } else p) }

/-- The dies released one by one, in their order: a die released earlier has run for the ticks its successors took (R18, R42) (log 37: DESIGN CHOICE, unsafe). -/
def releaseDies (s : State) : State :=
  let ticks (d : Nat) : Nat := ((upTo (7 - d)).map (fun i => Config.ticks (freeIndex s (d + i + 1)))).foldl (· + ·) 0
  { s with dies := s.dies.mapIdx (fun d x => trained false { heldDie x with released := true, refk := BitVec.ofNat 64 (ticks d), cycle := BitVec.ofNat 64 (10 * ticks d) }),
           hub := trained true s.hub }

/-- The fused minimum of a KIND after an image of it has booted (R43). -/
def raiseSvn (kind : Nat) (img : List Byte) (s : State) : State :=
  updAxis (fun a => { a with minSvn := insertKey kind (max (minSvn s kind) (imageSvn img)) a.minSvn }) s

/-- The core runtime that the firmware brings up: one staged before this reset, where it passes, else the one it is given (R43) (log 37: DESIGN CHOICE, unsafe). -/
def runtimeImage (given : List Byte) (s : State) : List Byte :=
  match s.axis.bootRuntime with
  | some img => if (imageFault s 2 img).isNone then img else given
  | none => given

/-- FIRMWARE_BRINGUP: the firmware has booted, and raises the fused minimum of its KIND; a core runtime that does not pass releases no die (log 3: DESIGN CHOICE, safe). -/
def execFirmwareBringup (runtime : List (BitVec 8)) (s : State) : Result :=
  .next (if s.axis.stage ≠ .bringup then s else
    let img := runtimeImage runtime s
    let s := raiseSvn 1 s.axis.firmware (updAxis (fun a => { a with bootRuntime := none }) s)
    match imageFault s 2 img with
    | some c => rejectImage c (updAxis (fun a => { a with fail := c }) s)
    | none =>
      updAxis (fun a => { a with stage := .ready, windows := true, fail := 0, dies := 0xFF, runtime := img }) (raiseSvn 2 img (releaseDies s)))

/-- POWER_FAIL: the device stops; an erase in progress stays to be finished. -/
def execPowerFail (s : State) : Result := .next (updAxis (fun a => { a with powered := false }) (coldState s))

/-! ## The alarm (R46 to R48) -/

/-- The level of a cause: code 0 reads as 1. -/
def alarmLevel (a : Alarm) (i : Nat) : Nat := max 1 (a.levels.toList.getD i 0).toNat

/-- The causes that the registers of the dies show: a core supply 25 mV below the minimum for its clock or above 600 mV, a sensor at 110 °C or more (R46). -/
def causesOf (s : State) : BitVec 5 :=
  let dies := s.dies.toList.filter (·.released)
  (if dies.any (fun d => d.clock.supply + 25 ≤ minSupply d.clock.ratio || 600 < d.clock.supply) then 1 else 0) |||
    (if dies.any (fun d => 110 ≤ d.clock.temp) then 4 else 0)

/-- ALARM_TRIP: the sensors whose readings no register shows trip as the step tells; the highest level among the causes acts (log 37: DESIGN CHOICE, unsafe). -/
def execAlarmTrip (told : BitVec 5) (s : State) : Result :=
  let causes := told ||| causesOf s
  let tripped := (upTo 5).filter (fun i => causes.getLsbD i)
  .next (if tripped.isEmpty ∨ !s.axis.powered then s else
    let top := (tripped.map (alarmLevel s.axis.alarm)).foldl max 0
    let cause := (tripped.find? (fun i => alarmLevel s.axis.alarm i == top)).getD 0
    let s := updAxis (fun a => { a with alarm := { a.alarm with tripped := a.alarm.tripped ||| causes } }) s
    let s := logError 8 6 none (openField s) (BitVec.ofNat 64 cause) s
    let s := if 2 ≤ top then haltDevice s else s
    if top < 3 then s
    else startTimer 8 false (min 1000 (Config.ticks (freeIndex s 0))) .keyStoreEraseDone (updAxis (fun a => { a with store := { a.store with erasing := true } }) s))

/-- KEY_STORE_ERASE_DONE (log 37: DESIGN CHOICE, unsafe). -/
def execKeyStoreEraseDone (s : State) : Result := .next (if s.axis.store.erasing then finishErase s else s)

/-! ## The management port (R52) -/

/-- A service is offered: the device has power, and a halted device offers only some (R48) (log 37: DESIGN CHOICE, unsafe). -/
def serve (whenHalted : Bool) (f : State → State) (s : State) : Result :=
  .next (if !s.axis.powered || (s.axis.stage == .halted && !whenHalted) then s else f s)

/-- A signed request: by an enrolled operator key, with a counter above the last accepted one of that key (log 9: DESIGN CHOICE, safe). -/
def signed (a : Auth) (svc : Nat) (args : List Nat) (f : State → State) (s : State) : State :=
  match s.axis.store.operators[a.key]? with
  | some (k, last) =>
    if last.toNat < a.counter.toNat && Config.requestSigned k svc args a.counter a.sig then
      f (updAxis (fun x => { x with store := { x.store with operators := setAt x.store.operators a.key (k, a.counter) } }) s)
    else tellPort .refused s
  | none => tellPort .refused s

/-- BOOTST as it reads (R42). -/
def bootst (a : Axis) : Word :=
  BitVec.ofNat 64 (a.dies.toNat * 256 + a.fail * 16 + (match a.stage with | .rom => 0 | .verifying => 1 | .bringup => 2 | .ready => 3 | .halted => 4))

/-- IDENTITY. -/
def execIdentity (s : State) : Result :=
  serve true (fun s => tellPort (match s.axis.store.keys with | some (_, pub) => .key pub | none => .noIdentity) s) s

/-- What MCFG measures, as numbers: a partition's record is in force once the answer to its PCREATE is out (R45). -/
def configNumbers (s : State) : List Nat :=
  s.axis.alarm.levels.toList.map (·.toNat) ++ [if s.axis.alarm.locked then 1 else 0, minSvn s 1, minSvn s 2] ++
    (s.parts.filter (·.announced)).flatMap (fun p => [p.id, p.root.toNat, p.hbase, p.hlen, p.stkBase.toNat, p.stkN, p.stkSize] ++ p.cores)

/-- Bytes made up or cut to a length. -/
def fitBytes (n : Nat) (l : List Byte) : List Byte := (l ++ List.replicate n 0).take n

/-- The 1,536 bytes of a report (R45) (log 8: DESIGN CHOICE, safe). -/
def report (s : State) (nonce : BitVec 256) (priv : List Byte) : List Byte :=
  let head := bytesOf 4 0x5A384154 ++ bytesOf 4 s.axis.store.boots ++ bytesOf 32 nonce.toNat ++ fitBytes 64 (Config.shake256 s.axis.firmware) ++
    fitBytes 64 (Config.shake256 s.axis.runtime) ++ fitBytes 64 (Config.shake256 (Config.configBytes (configNumbers s))) ++
    bytesOf 4 (imageSvn s.axis.firmware) ++ bytesOf 4 (imageSvn s.axis.runtime) ++ bytesOf 8 s.hub.refk.toNat
  let sig := Config.falconSign priv head
  head ++ bytesOf 2 sig.length ++ fitBytes 1280 sig ++ List.replicate 6 0

/-- ATTEST. -/
def execAttest (nonce : BitVec 256) (s : State) : Result :=
  serve true (fun s => tellPort (match s.axis.store.keys with | some (priv, _) => .report (report s nonce priv) | none => .noIdentity) s) s

/-- STATUS. -/
def execStatus (s : State) : Result :=
  serve true (fun s => tellPort (.status (bootst s.axis) s.axis.alarm.tripped s.axis.store.erasedAt) s) s

/-- LOG_READ. -/
def execLogRead (auth : Auth) (die : Nat) (seq : BitVec 32) (s : State) : Result :=
  serve true (signed auth 3 [die, seq.toNat] (fun s =>
    if 8 < die then tellPort .refused s else tellPort (.log ((dieAt s die).log.filter (fun e => seqLe seq e.seq))) s)) s

/-- A counter pair of a die. -/
def dieCounter (s : State) (d i : Nat) : Counter := (lookupKey i (dieAt s d).counters).getD { sel := 0, cnt := 0 }

/-- COUNTERS. -/
def execCounters (auth : Auth) (die idx : Nat) (set : Option (BitVec 64 × BitVec 64)) (s : State) : Result :=
  let args := [die, idx] ++ (match set with | some (a, b) => [a.toNat, b.toNat] | none => [])
  serve false (signed auth 4 args (fun s =>
    if 8 < die ∨ 32 ≤ idx then tellPort .refused s else
    let s := match set with
      | some (a, b) => updDie s die (fun x => { x with counters := insertKey idx { sel := selWritten (dieCounter s die idx).sel a, cnt := b } x.counters })
      | none => s
    tellPort (.counter (dieCounter s die idx).sel (dieCounter s die idx).cnt) s)) s

/-- FIRMWARE: an image of either KIND that passes is staged (log 9: DESIGN CHOICE, safe). -/
def execFirmware (auth : Auth) (image : List (BitVec 8)) (s : State) : Result :=
  serve false (signed auth 5 (image.map (·.toNat)) (fun s =>
    let kind := if recNat image 4 4 = 2 then 2 else 1
    match imageFault s kind image with
    | none => tellPort (.firmware true) (updAxis (fun a => if kind = 2 then { a with stagedRuntime := some image } else { a with staged := some image }) s)
    | some c => tellPort (.firmware false) (rejectImage c s))) s

/-- PARTITION: the four administrative commands, answered on this port (log 9: DESIGN CHOICE, safe). -/
def execPartition (auth : Auth) (opc : BitVec 8) (arg0 arg1 : BitVec 64) (s : State) : Result :=
  let one (status : Nat) (r : Option State) (v : Word) (s : State) : State :=
    match r with | some t => tellPort (.partition 0 v) t | none => tellPort (.partition status 0) s
  serve false (signed auth 6 [opc.toNat, arg0.toNat, arg1.toNat] (fun s =>
    if !serving s then tellPort .refused s else
    match opc.toNat with
    | 1 => one 4 ((createPart arg0.toNat arg1.toNat s).map (fun t => updPart t arg1.toNat (fun p => { p with announced := true }))) arg1 s
    | 2 => if mayDestroy s arg0.toNat then askDrain arg0.toNat (updPart s arg0.toNat (fun p => { p with destroy := p.destroy ++ [(64, 0)] })) else tellPort (.partition 4 0) s
    | 3 => one 4 (bindQueue arg0.toNat arg1.toNat s) 0 s
    | 4 =>
      (match partAt s arg0.toNat with
       | none => tellPort (.partition 4 0) s
       | some p =>
         if p.drain == some .answering then tellPort (.partition 0 0) s
         else askDrain arg0.toNat (updPart s arg0.toNat (fun p => { p with portDrains := p.portDrains + 1 })))
    | _ => tellPort (.partition 1 0) s)) s

/-- The partitions that an administrative command of the four concerns (R52). -/
def concerned (s : State) (opc arg0 arg1 : Nat) : List Nat :=
  match opc with
  | 1 => [arg1]
  | 2 | 4 => [arg0]
  | 3 => arg1 :: (queueAt s arg0).part.toList
  | _ => []

/-- The next request of the outside is one of the management port that must wait: the administrative queue has consumed a command on the same partition before it, and not yet begun it (R52). -/
def portWaits (s : State) : Bool :=
  let ahead (i : Instr) : List Nat :=
    match i with
    | .pcreate q h | .pdestroy q h | .qbind q h | .pdrain q h =>
      (match cmdAt s q h with
       | some c => if q = 0 ∧ c.begun = false then concerned s c.opc.toNat (c.args.getD 0 0).toNat (c.args.getD 1 0).toNat else []
       | none => [])
    | _ => []
  match s.inputs with
  | .partition _ opc arg0 arg1 :: _ => s.agenda.any (·.any (fun i => (ahead i).any (concerned s opc.toNat arg0.toNat arg1.toNat).contains))
  | _ => false

/-- STEP (log 9: DESIGN CHOICE, safe). -/
def execStep (auth : Auth) (die clock : Nat) (s : State) : Result :=
  serve false (signed auth 7 [die, clock] (fun s =>
    if 8 ≤ die ∨ clock < 6 ∨ 18 < clock then tellPort (.step false) s
    else requestStep die { ratio := clock, askers := [] } (tellPort (.step true) s))) s

/-- The alarm configuration as it reads, two bits a cause. -/
def alarmBits (a : Alarm) : BitVec 10 := BitVec.ofNat 10 ((upTo 5).foldl (fun n i => n + alarmLevel a i * 4 ^ i) 0)

/-- ALARM: read, or written while unlocked (log 9: DESIGN CHOICE, safe). -/
def execAlarm (auth : Auth) (set : Option (BitVec 10 × Bool)) (s : State) : Result :=
  let args := match set with | some (v, l) => [v.toNat, if l then 1 else 0] | none => []
  serve false (signed auth 8 args (fun s =>
    let s := match set with
      | some (v, l) => if s.axis.alarm.locked then s else
          updAxis (fun a => { a with alarm := { a.alarm with levels := Vector.ofFn (fun i => v.extractLsb' (2 * i.val) 2), locked := l } }) s
      | none => s
    tellPort (.alarm (alarmBits s.axis.alarm) s.axis.alarm.locked) s)) s

/-- The last accepted counter of an operator key: 0 where none has been accepted (R52) (log 37: DESIGN CHOICE, unsafe). -/
def lastCounter (k : KeyStore) (key : List Byte) : Word := match (k.operators ++ k.past).find? (·.1 == key) with | some x => x.2 | none => 0

/-- PROVISION: once per key store; with no operator enrolled yet, the request is signed by one of the keys it enrols (log 8: DESIGN CHOICE, safe; log 37: DESIGN CHOICE, unsafe). -/
def execProvision (auth : Auth) (keys : List (List (BitVec 8))) (s : State) : Result :=
  let give (s : State) : State :=
    if s.axis.store.keys.isSome ∨ keys.isEmpty ∨ 8 < keys.length then tellPort (.provisioned false) s else
    tellPort (.provisioned true) (updAxis (fun a => { a with store :=
      { keys := some (Config.falconKeys s.nonce), erasing := a.store.erasing, erasedAt := none, boots := 0,
        operators := keys.map (fun k => (k, lastCounter a.store k)), past := a.store.operators ++ a.store.past } }) s)
  let args := keys.flatMap (fun k => k.length :: k.map (·.toNat))
  serve false (fun s =>
    if s.axis.store.operators.isEmpty then
      match keys[auth.key]? with
      | some k =>
        if (lastCounter s.axis.store k).toNat < auth.counter.toNat && Config.requestSigned k 9 args auth.counter auth.sig then
          give (updAxis (fun a => { a with store := { a.store with past := (k, auth.counter) :: a.store.past } }) s)
        else tellPort .refused s
      | none => tellPort .refused s
    else signed auth 9 args give s) s

/-! ## Memory from outside -/

/-- HOST_MEMORY_WRITE: HBM at its physical addresses, or the boot window (log 19: DESIGN CHOICE, safe). -/
def execHostMemoryWrite (addr : Nat) (bytes : List (BitVec 8)) (s : State) : Result :=
  let n := bytes.length
  if n = 0 then .next s
  else if (inHbm addr && inHbm (addr + n - 1)) || (bootKey 0 ≤ addr && addr + n ≤ bootKey 0 + 2 ^ 24) then
    .next (writeMem addr bytes (clearErrors addr n s))
  else .fault (.hostAddress addr)

/-- The stretch of a protected word in error, by the unit that holds it (log 19: DESIGN CHOICE, safe). -/
def errorKey (unit addr : Nat) : Nat :=
  match unit with
  | 0 => 2 ^ 49 + addr / 8 * 8
  | 1 => 2 ^ 48 + addr / 8 * 8
  | 2 => 2 ^ 51 + addr / 8 * 8
  | _ => addr / 8 * 8

/-- The core that holds an SRAM word, if one does. -/
def errorCore (unit addr : Nat) : Option Nat :=
  match unit with
  | 0 => some (addr / 2 ^ 22)
  | 2 => some (addr / 2 ^ 20)
  | 3 => some (addr / 2 ^ 20)
  | 4 => some (addr / 2 ^ 12)
  | _ => none

/-- The die that holds a word. -/
def errorDie (unit addr : Nat) : Nat :=
  match errorCore unit addr with
  | some g => dieOf g
  | none => if unit = 1 then addr / 2 ^ 26 else addr / Config.hbmPerDie

/-- ADDR of a log entry for a word: the unit code and the offset, or the physical address (log 19: DESIGN CHOICE, safe). -/
def unitAddr (unit addr : Nat) : Word :=
  match unit with
  | 3 => BitVec.ofNat 64 (3 * 2 ^ 56 + addr % 2 ^ 20)
  | 4 => BitVec.ofNat 64 (4 * 2 ^ 56 + addr % 2 ^ 12)
  | _ => errorAddr (errorKey unit addr)

/-- An uncorrectable error in a segment, or in an entry of the segment table, which withdraws a segment that is free (R132) (log 19: DESIGN CHOICE, safe; log 30: DESIGN CHOICE, unsafe). -/
def breakSegment (g num : Nat) (entry : Bool) (s : State) : State :=
  if entry && !(numbersTaken (coreAt s g)).contains num then updCore s g (fun k => { k with lost := num :: k.lost }) else
  updCore s g (fun k => { k with segs := k.segs.map (fun x => if x.2.num == num then (x.1, if entry then { x.2 with badEntry := true } else { x.2 with badData := true }) else x) })

/-- MEMORY_ERROR: a corrected error is counted and logged merged (which core of the die counts one of plane memory is open); an uncorrectable one stands in its protected word until a write of
the whole word. Units 0 to 4 are those of R197, above them HBM (log 19: DESIGN CHOICE, safe; log 30: DESIGN CHOICE, unsafe). -/
def execMemoryError (unit addr : Nat) (corrected : Bool) (s : State) : Result :=
  let core := errorCore unit addr
  let d := errorDie unit addr
  .next (if 8 ≤ d || (match core with | some g => decide (384 ≤ g) | none => false) then s else
    if corrected then
      let s := match core with
        | some g => countCore 0x060 1 g s
        | none => if unit = 1 then countCore 0x060 1 (d * 48 + (Config.word (freeIndex s 8)).toNat % 48) s else countDie 0x106 1 d s
      logCorrected d core (unitAddr unit addr) (openField s) s
    else match unit with
      | 3 => breakSegment (addr / 2 ^ 20) (addr % 2 ^ 20 / 256) false s
      | 4 => breakSegment (addr / 2 ^ 12) (addr % 2 ^ 12) true s
      | _ => { s with badCells := s.badCells ++ [(errorKey unit addr, 8)] })

end Sys2Proof.Machine
end

