-- ==== Sys2Proof/Machine/Links.lean ====
section
/-! DEFINITION. The Stavit links of the package and of the fabric (R8 to R14): flits received, replays, retraining, links that go down. -/

namespace Sys2Proof.Machine

/-! ## Flits received -/

/-- A flit is discarded: counted and logged with its port (R11, R51). -/
def discardFlit (d p : Nat) (s : State) : State := logError d 3 none (BitVec.ofNat 64 p) (openField s) (countDie 0x105 1 d s)

/-- The port by which traffic of a die leaves for another: along the ring, then across; the hub by H (R9, R12). -/
def routePort (s : State) (d t : Nat) : Nat :=
  if 8 ≤ d then t else if 8 ≤ t then 3 else
  let ring (y : Nat) : Nat :=
    let x := d % 4
    let e := (y + 4 - x) % 4
    let w := (x + 4 - y) % 4
    let east := !(upTo e).any (fun i => linkIsDown s (d / 4 * 4 + (x + i) % 4) 0)
    let west := !(upTo w).any (fun i => linkIsDown s (d / 4 * 4 + (x + 4 - i) % 4) 1)
    if (e ≤ w && east) || !west then 0 else 1
  if d / 4 = t / 4 then ring (t % 4) else
  match (upTo 4).find? (fun i => !linkIsDown s (d / 4 * 4 + (t + i) % 4) 2) with
  | some i => if (t + i) % 4 = d % 4 then 2 else ring ((t + i) % 4)
  | none => ring (t % 4)

/-- The partner's acknowledgement: flits up to SEQ need no replay; a negative one has the flits from SEQ on sent again, and the eighth replay
of one flit retrains the link (R11) (log 38: DESIGN CHOICE, unsafe). -/
def applyAck (d p : Nat) (h : BitVec 64) (s : State) : State :=
  match flitAck h with
  | 1 =>
    let rest := (portAt s d p).outbox.filter (fun f => !seqUpTo (flitSeq f.1) (flitSeq h))
    updPort d p (fun x => { x with outbox := rest, replays := if rest.length = x.outbox.length then x.replays else 0 }) s
  | 2 =>
    let again := (portAt s d p).outbox.filter (fun f => seqUpTo (flitSeq h) (flitSeq f.1))
    let s := replayFlits d p again (updPort d p (fun x => { x with replays := x.replays + 1 }) s)
    if (portAt s d p).replays < 8 then s else postOnce (.linkRetrain d p) s
  | _ => s

/-- A flit that passed is delivered here, or goes on towards its die (log 12: DESIGN CHOICE, safe; log 38: DESIGN CHOICE, unsafe). -/
def deliverFlit (d p : Nat) (f : BitVec 64 × BitVec 512) (s : State) : State :=
  if flitDst f.1 = d then updPort d p (fun x => { x with inbox := x.inbox ++ [f] }) s
  else sendFlit d (routePort s d (flitDst f.1)) f s

/-- The flit in sequence is taken: its buffer is free again, and it is acknowledged. -/
def takeSeq (y : Port) : Port := { y with seqIn := (y.seqIn + 1) % 1024, owed := y.owed + 1, acks := y.acks ++ [(1, y.seqIn)] }

/-- A flit received (R10, R11). One that acknowledges has no place of its own in the sequence, since SEQ names what it acknowledges: it is delivered without
a look at SEQ, or consumed where it is link management. One in sequence that may not be delivered counts as taken, and is not replayed. One taken before is
acknowledged again; one ahead of its turn is neither delivered nor acknowledged, and the replay brings it (log 38: DESIGN CHOICE, unsafe). -/
def takeFlit (d p : Nat) (h : BitVec 64) (payload : BitVec 512) (s : State) : State :=
  let x := portAt s d p
  if bits h.toNat 63 48 ≠ flitCrc h payload then updPort d p (fun y => { y with acks := y.acks ++ [(2, y.seqIn)] }) (discardFlit d p s)
  else if badFlit h then discardFlit d p (updPort d p (fun y => if flitSeq h = y.seqIn then takeSeq y else y) s)
  else
    let s := applyAck d p h (updPort d p (fun y => { y with credits := y.credits + flitCredit h }) s)
    if flitAck h ≠ 0 then (if flitType h = 8 then s else deliverFlit d p (h, payload) s)
    else if flitSeq h = x.seqIn then deliverFlit d p (h, payload) (updPort d p takeSeq s)
    else if seqUpTo (flitSeq h) x.seqIn then updPort d p (fun y => { y with acks := y.acks ++ [(1, (x.seqIn + 1023) % 1024)] }) s
    else s

/-- FLIT_RECEIVE: on a link that runs. In a relock a flit fills a receive buffer of the die (R17); else it is taken, and the port sends what it then may (log 38: DESIGN CHOICE, unsafe). -/
def execFlitReceive (die port : Nat) (header : BitVec 64) (payload : BitVec 512) (s : State) : Result :=
  .next (if !(portAt s die port).up ∨ 8 < die ∨ 8 ≤ port then s
    else if relocking (dieAt s die) then updPort die port (fun y => { y with buffer := y.buffer ++ [(header, payload)] }) s
    else pump die port (takeFlit die port header payload s))

/-! ## Retraining and links that go down (R11, R12) -/

/-- Both ends of a link changed. -/
def updLink (d p : Nat) (f : Port → Port) (s : State) : State := updPort (partner d p).1 (partner d p).2 f (updPort d p f s)

/-- LINK_RETRAIN: the link carries no traffic until its training ends. -/
def execLinkRetrain (die port : Nat) (s : State) : Result :=
  .next (if (portAt s die port).down then s else updLink die port (fun x => { x with up := false, replays := 0 }) s)

/-- A port begins anew after training: it has the credits of the buffers that its own flits do not hold, and sends again what its partner has not taken (log 38: DESIGN CHOICE, unsafe). -/
def resumePort (d p : Nat) (s : State) : State :=
  let e := partner d p
  let left := (portAt s d p).outbox.filter (fun f => !seqUpTo (flitSeq f.1) (((portAt s e.1 e.2).seqIn + 1023) % 1024))
  let held := (portAt s e.1 e.2).buffer.length
  pump d p (replayFlits d p left (updPort d p (fun x => { x with outbox := left, credits := linkBuffers - (left.length + held), owed := 0, acks := [] }) s))

/-- LINK_TRAINING_COMPLETE: a third failure within a second takes the link down (log 38: DESIGN CHOICE, unsafe). -/
def execLinkTrainingComplete (die port : Nat) (ok : Bool) (s : State) : Result :=
  let now := (dieAt s die).refk.toNat
  .next (if (portAt s die port).down then s
    else if ok then
      let e := partner die port
      resumePort e.1 e.2 (resumePort die port (updLink die port (fun x => { x with up := true }) s))
    else
      let recent := ((portAt s die port).failures ++ [now]).filter (fun t => now < t + 100000000)
      let s := updPort die port (fun x => { x with failures := recent }) s
      if recent.length < 3 then s else postOnce (.linkDown die port) s)

/-- The fault of a region with a core on a die that has gone: the link is its cause (R12) (log 38: DESIGN CHOICE, unsafe). -/
def linkFault (d port : Nat) : FaultInfo := { cause := 49, core := d * 48, slot := 0, node := 0, detail := BitVec.ofNat 64 port }

/-- A task of the die's cores that the policies have left ends with them (log 30: DESIGN CHOICE, unsafe). -/
def endStranded (d : Nat) (s : State) : State :=
  let left := (ctxKeys s).filter (fun k => dieOf (k / 4) == d && (ctxAt s k).task.isSome)
  left.foldl (fun s k => endAsNotified (threadOf (ctxAt s k)) 4 s) s

/-- A die that cannot be reached: its cores are held in reset and every region with a core there receives a fault (log 38: DESIGN CHOICE, unsafe). -/
def strandDie (d port : Nat) (s : State) : State :=
  if (dieAt s d).held then s else
  let s := updDie s d (fun x => { x with held := true })
  let hit := (s.regions.filter (fun r => r.coreUse.any (fun c => dieOf c.1 == d))).map (fun r => (r.part, r.idx))
  let s := hit.foldl (fun s r =>
    let mine (t : Option Task) : Bool := match t with | some t => t.part == r.1 && t.region == r.2 | none => false
    match (ctxKeys s).find? (fun k => dieOf (k / 4) == d && mine (ctxAt s k).task) with
    | some k => deliver r.1 r.2 { linkFault d port with core := k / 4, slot := k % 4 } (some (threadOf (ctxAt s k))) false s
    | none => deliver r.1 r.2 (linkFault d port) none false s) s
  let s := endStranded d s
  (upTo 48).foldl (fun s i => resetCore (d * 48 + i) s) s

/-- The dies of the row ring that a die reaches over links that are not down, itself among them. -/
def ringPart (s : State) (d : Nat) : List Nat :=
  let at_ (i : Nat) : Nat := d / 4 * 4 + (d % 4 + i) % 4
  let east := ((upTo 3).takeWhile (fun i => !linkIsDown s (at_ i) 0)).map (fun i => at_ (i + 1))
  let west := ((upTo 3).takeWhile (fun i => !linkIsDown s (at_ (4 - i)) 1)).map (fun i => at_ (3 - i))
  (d :: (east ++ west)).eraseDups

/-- Whether a part of a cut ring stands before another: the larger does, of two alike that with the lowest die. -/
def ringBefore (a b : List Nat) : Bool := decide (b.length < a.length) || (a.length == b.length && decide (a.foldl min 8 < b.foldl min 8))

/-- A die that a cut of its row ring leaves unreachable: it is in a part of the ring other than the one that stands before the rest (R12) (log 38: DESIGN CHOICE, unsafe). -/
def cutOff (s : State) (d : Nat) : Bool := (upTo 4).any (fun i => ringBefore (ringPart s (d / 4 * 4 + i)) (ringPart s d))

/-- The flits that a port of a link gone down has not got across go by other ways. -/
def rerouteFlits (d p : Nat) (s : State) : State :=
  let e := partner d p
  let x := portAt s d p
  let left := x.outbox.filter (fun f => !seqUpTo (flitSeq f.1) (((portAt s e.1 e.2).seqIn + 1023) % 1024)) ++ x.waiting
  let way (f : BitVec 64 × BitVec 512) : Nat := routePort s d (flitDst f.1)
  (left.filter (fun f => way f != p)).foldl (fun s f => sendFlit d (way f) f s)
    (updPort d p (fun x => { x with outbox := [], waiting := left.filter (fun f => way f == p), acks := [], owed := 0 }) s)

/-- LINK_DOWN: traffic takes other ways; a die that cannot reach the hub, or is cut off on its ring, is held (log 38: DESIGN CHOICE, unsafe). -/
def execLinkDown (die port : Nat) (s : State) : Result :=
  .next (if (portAt s die port).down ∨ 8 < die then s else
    let e := partner die port
    let s := updLink die port (fun x => { x with up := false, down := true }) s
    let s := rerouteFlits e.1 e.2 (rerouteFlits die port s)
    let s := logError die 4 none (BitVec.ofNat 64 (if die = 8 then 3 else port)) (openField s) s
    let lone := if die = 8 then port else die
    if die = 8 ∨ 3 ≤ port then strandDie lone 3 s
    else if port = 2 then s
    else ((upTo 8).filter (cutOff s)).foldl (fun s d => strandDie d port s) s)

/-! ## The fabric between packages (R14) -/

/-- Frames of a port that are not acknowledged. -/
def unackedOf (s : State) (port : Nat) : List (Nat × List (BitVec 64 × BitVec 512)) := s.fabric.unacked.filter (·.1 == port)

/-- The fabric's state changed. -/
def updFabric (f : Fabric → Fabric) (s : State) : State := { s with fabric := f s.fabric }

/-- Frames of a port sent again: their flits are counted as replayed, and the port waits anew. -/
def resend (port : Nat) (s : State) : State :=
  let fs := unackedOf s port
  if fs.isEmpty then s else
  let s := countDie 0x104 ((fs.map (·.2.length)).foldl (· + ·) 0) 8 (updFabric (fun x => { x with sent := x.sent ++ fs }) s)
  startTimer 8 false 2000 (.fabricReplayTimeout port) s

/-- FABRIC_REPLAY_TIMEOUT. -/
def execFabricReplayTimeout (port : Nat) (s : State) : Result := .next (resend port s)

/-- An acknowledgement on a port: frames all of whose flits are up to SEQ need no replay; a negative one has the rest replayed. -/
def fabricAck (port : Nat) (h : BitVec 64) (s : State) : State :=
  match flitAck h with
  | 1 =>
    let s := updFabric (fun x => { x with unacked := x.unacked.filter (fun f => !(f.1 == port && f.2.all (fun x => seqUpTo (flitSeq x.1) (flitSeq h)))) }) s
    if (unackedOf s port).isEmpty then stopTimer (.fabricReplayTimeout port) s else s
  | 2 => resend port s
  | _ => s

/-- The SEQ that a scale-out port expects next. -/
def fabricSeq (s : State) (port : Nat) : Nat := (lookupKey port s.fabric.seqIn).getD 0

/-- A frame of one acknowledging flit answers on a port; DSTD is the source of the flit it answers (log 38: DESIGN CHOICE, unsafe). -/
def answerFrame (port ack seq dst : Nat) (s : State) : State :=
  updFabric (fun x => { x with sent := x.sent ++ [(port, [(flitHeader seq 0 8 dst 8 3 ack 0 0, 0)])] }) (countDie 0x103 1 8 s)

/-- A flit of a frame, checked as on the package: a bad one is discarded, one that fails its CRC has the port's flits from its SEQ on asked for again;
one in sequence is acknowledged and delivered, one taken before only acknowledged (R11, R14) (log 38: DESIGN CHOICE, unsafe). -/
def fabricFlit (port : Nat) (pkg : BitVec 16) (f : BitVec 64 × BitVec 512) (s : State) : State :=
  let want := fabricSeq s port
  let took (s : State) : State := answerFrame port 1 want (flitSrc f.1) (updFabric (fun x => { x with seqIn := insertKey port ((want + 1) % 1024) x.seqIn }) s)
  let hand (s : State) : State := updFabric (fun x => { x with delivered := x.delivered ++ [(port, pkg, f.1, f.2)] }) s
  if bits f.1.toNat 63 48 ≠ flitCrc f.1 f.2 then answerFrame port 2 want (flitSrc f.1) (discardFlit 8 port s)
  else if badFlit f.1 then discardFlit 8 port (if flitSeq f.1 = want then took s else s)
  else
    let s := fabricAck port f.1 s
    if flitAck f.1 ≠ 0 then (if flitType f.1 = 8 then s else hand s)
    else if flitSeq f.1 = want then hand (took s)
    else if seqUpTo (flitSeq f.1) want then answerFrame port 1 ((want + 1023) % 1024) (flitSrc f.1) s
    else s

/-- FABRIC_FRAME_RECEIVE: the flits of a frame, at most 16, are checked and delivered one by one. -/
def execFabricFrameReceive (port : Nat) (pkg : BitVec 16) (flits : List (BitVec 64 × BitVec 512)) (s : State) : Result :=
  .next (if 16 ≤ port ∨ 16 < flits.length then s else flits.foldl (fun s f => fabricFlit port pkg f s) s)

end Sys2Proof.Machine
end

