-- ==== Sys2Proof/Machine/Scalar.lean ====
section
/-! DEFINITION. The scalar base without memory, atomics and system words (R245, R246): immediates, arithmetic, jumps
and branches, `fence` and `fence.i`, and the bit-field words (R263). -/

namespace Sys2Proof.Machine

/-- `lui`. -/
def execLui (u : BitVec 20) (d : BitVec 5) (s : State) : Result :=
  result d (fun _ => immU u) s

/-- `auipc`. -/
def execAuipc (u : BitVec 20) (d : BitVec 5) (s : State) : Result :=
  result d (fun s => s.cur.pc + immU u) s

/-- `jal`: a misaligned target traps and writes nothing (log 45: DESIGN CHOICE, unsafe). -/
def execJal (j : BitVec 20) (d : BitVec 5) (s : State) : Result :=
  scalarWord (fun s =>
    let t := s.cur.pc + immJ j
    goTo t (if t.toNat % 4 = 0 then wx d (s.cur.pc + 4) s else s)) s

/-- `jalr`: bit 0 of the target is cleared; a misaligned target traps and writes nothing. -/
def execJalr (i : BitVec 12) (a d : BitVec 5) (s : State) : Result :=
  scalarWord (fun s =>
    let t := (rx s a + immI i) &&& ~~~1#64
    goTo t (if t.toNat % 4 = 0 then wx d (s.cur.pc + 4) s else s)) s

/-- `beq`. -/
def execBeq (h : BitVec 7) (b a l : BitVec 5) (s : State) : Result :=
  branch h b a l (fun x y => x == y) s

/-- `bne`. -/
def execBne (h : BitVec 7) (b a l : BitVec 5) (s : State) : Result :=
  branch h b a l (fun x y => x != y) s

/-- `blt`. -/
def execBlt (h : BitVec 7) (b a l : BitVec 5) (s : State) : Result :=
  branch h b a l (fun x y => x.slt y) s

/-- `bge`. -/
def execBge (h : BitVec 7) (b a l : BitVec 5) (s : State) : Result :=
  branch h b a l (fun x y => !x.slt y) s

/-- `bltu`. -/
def execBltu (h : BitVec 7) (b a l : BitVec 5) (s : State) : Result :=
  branch h b a l (fun x y => decide (x < y)) s

/-- `bgeu`. -/
def execBgeu (h : BitVec 7) (b a l : BitVec 5) (s : State) : Result :=
  branch h b a l (fun x y => !decide (x < y)) s

/-- `addi`. -/
def execAddi (i : BitVec 12) (a d : BitVec 5) (s : State) : Result :=
  immediate i a d (fun x y => x + y) s

/-- `slti`. -/
def execSlti (i : BitVec 12) (a d : BitVec 5) (s : State) : Result :=
  immediate i a d (fun x y => ofBool (x.slt y)) s

/-- `sltiu`. -/
def execSltiu (i : BitVec 12) (a d : BitVec 5) (s : State) : Result :=
  immediate i a d (fun x y => ofBool (decide (x < y))) s

/-- `xori`. -/
def execXori (i : BitVec 12) (a d : BitVec 5) (s : State) : Result :=
  immediate i a d (fun x y => x ^^^ y) s

/-- `ori`. -/
def execOri (i : BitVec 12) (a d : BitVec 5) (s : State) : Result :=
  immediate i a d (fun x y => x ||| y) s

/-- `andi`. -/
def execAndi (i : BitVec 12) (a d : BitVec 5) (s : State) : Result :=
  immediate i a d (fun x y => x &&& y) s

/-- `slli`. -/
def execSlli (h : BitVec 6) (a d : BitVec 5) (s : State) : Result :=
  result d (fun s => rx s a <<< h.toNat) s

/-- `srli`. -/
def execSrli (h : BitVec 6) (a d : BitVec 5) (s : State) : Result :=
  result d (fun s => rx s a >>> h.toNat) s

/-- `srai`. -/
def execSrai (h : BitVec 6) (a d : BitVec 5) (s : State) : Result :=
  result d (fun s => (rx s a).sshiftRight h.toNat) s

/-- `add`. -/
def execAdd (b a d : BitVec 5) (s : State) : Result :=
  binary b a d (fun x y => x + y) s

/-- `sub`. -/
def execSub (b a d : BitVec 5) (s : State) : Result :=
  binary b a d (fun x y => x - y) s

/-- `sll`. -/
def execSll (b a d : BitVec 5) (s : State) : Result :=
  binary b a d (fun x y => x <<< (y.toNat % 64)) s

/-- `slt`. -/
def execSlt (b a d : BitVec 5) (s : State) : Result :=
  binary b a d (fun x y => ofBool (x.slt y)) s

/-- `sltu`. -/
def execSltu (b a d : BitVec 5) (s : State) : Result :=
  binary b a d (fun x y => ofBool (decide (x < y))) s

/-- `xor`. -/
def execXor (b a d : BitVec 5) (s : State) : Result :=
  binary b a d (fun x y => x ^^^ y) s

/-- `srl`. -/
def execSrl (b a d : BitVec 5) (s : State) : Result :=
  binary b a d (fun x y => x >>> (y.toNat % 64)) s

/-- `sra`. -/
def execSra (b a d : BitVec 5) (s : State) : Result :=
  binary b a d (fun x y => x.sshiftRight (y.toNat % 64)) s

/-- `or`. -/
def execOr (b a d : BitVec 5) (s : State) : Result :=
  binary b a d (fun x y => x ||| y) s

/-- `and`. -/
def execAnd (b a d : BitVec 5) (s : State) : Result :=
  binary b a d (fun x y => x &&& y) s

/-- `mul`. -/
def execMul (b a d : BitVec 5) (s : State) : Result :=
  binary b a d (fun x y => x * y) s

/-- `mulh`. -/
def execMulh (b a d : BitVec 5) (s : State) : Result :=
  binary b a d (fun x y => highHalf (x.signExtend 128) (y.signExtend 128)) s

/-- `mulhsu`. -/
def execMulhsu (b a d : BitVec 5) (s : State) : Result :=
  binary b a d (fun x y => highHalf (x.signExtend 128) (y.setWidth 128)) s

/-- `mulhu`. -/
def execMulhu (b a d : BitVec 5) (s : State) : Result :=
  binary b a d (fun x y => highHalf (x.setWidth 128) (y.setWidth 128)) s

/-- `div`. -/
def execDiv (b a d : BitVec 5) (s : State) : Result :=
  binary b a d (fun x y => divS x y) s

/-- `divu`. -/
def execDivu (b a d : BitVec 5) (s : State) : Result :=
  binary b a d (fun x y => divU x y) s

/-- `rem`. -/
def execRem (b a d : BitVec 5) (s : State) : Result :=
  binary b a d (fun x y => remS x y) s

/-- `remu`. -/
def execRemu (b a d : BitVec 5) (s : State) : Result :=
  binary b a d (fun x y => remU x y) s

/-- `addiw`. -/
def execAddiw (i : BitVec 12) (a d : BitVec 5) (s : State) : Result :=
  immediate i a d (fun x y => sext32 (x + y)) s

/-- `slliw`. -/
def execSlliw (h a d : BitVec 5) (s : State) : Result :=
  result d (fun s => (let x := (rx s a).setWidth 32; x <<< h.toNat).signExtend 64) s

/-- `srliw`. -/
def execSrliw (h a d : BitVec 5) (s : State) : Result :=
  result d (fun s => (let x := (rx s a).setWidth 32; x >>> h.toNat).signExtend 64) s

/-- `sraiw`. -/
def execSraiw (h a d : BitVec 5) (s : State) : Result :=
  result d (fun s => (let x := (rx s a).setWidth 32; x.sshiftRight h.toNat).signExtend 64) s

/-- `addw`. -/
def execAddw (b a d : BitVec 5) (s : State) : Result :=
  binary32 b a d (fun x y => x + y) s

/-- `subw`. -/
def execSubw (b a d : BitVec 5) (s : State) : Result :=
  binary32 b a d (fun x y => x - y) s

/-- `sllw`. -/
def execSllw (b a d : BitVec 5) (s : State) : Result :=
  binary32 b a d (fun x y => x <<< (y.toNat % 32)) s

/-- `srlw`. -/
def execSrlw (b a d : BitVec 5) (s : State) : Result :=
  binary32 b a d (fun x y => x >>> (y.toNat % 32)) s

/-- `sraw`. -/
def execSraw (b a d : BitVec 5) (s : State) : Result :=
  binary32 b a d (fun x y => x.sshiftRight (y.toNat % 32)) s

/-- `mulw`. -/
def execMulw (b a d : BitVec 5) (s : State) : Result :=
  binary32 b a d (fun x y => x * y) s

/-- `divw`. -/
def execDivw (b a d : BitVec 5) (s : State) : Result :=
  binary32 b a d (fun x y => divS x y) s

/-- `divuw`. -/
def execDivuw (b a d : BitVec 5) (s : State) : Result :=
  binary32 b a d (fun x y => divU x y) s

/-- `remw`. -/
def execRemw (b a d : BitVec 5) (s : State) : Result :=
  binary32 b a d (fun x y => remS x y) s

/-- `remuw`. -/
def execRemuw (b a d : BitVec 5) (s : State) : Result :=
  binary32 b a d (fun x y => remU x y) s

/-- `fence`: scalar accesses of one context are performed in program order here, so it only goes on (R178). -/
def execFence (_i : BitVec 12) (_a _d : BitVec 5) (s : State) : Result :=
  scalarWord next4 s

/-- `fence.i`: the context's earlier stores are visible to its own fetch. -/
def execFenceI (_i : BitVec 12) (_a _d : BitVec 5) (s : State) : Result :=
  scalarWord (fun s => next4 { s with cur := { s.cur with stale := s.cur.stale.map (fun e => { e with toFetch := false }) } }) s

/-! ## Bit fields (R263) -/

/-- Offset and width of a bit field: none where it is empty, else the offset and one past its last bit that exists. -/
def fieldOf (off w : Word) : Option (Nat × Nat) :=
  let o := off.toNat % 128
  let n := w.toNat % 128
  if n = 0 ∨ 64 ≤ o then none else some (o, min (o + n) 64)

/-- The field's bits, zero-extended. -/
def fieldBits (x : Word) (o top : Nat) : Word := BitVec.ofNat 64 (bits x.toNat (top - 1) o)

/-- The field's bits, sign-extended from its last. -/
def fieldSigned (x : Word) (o top : Nat) : Word := BitVec.ofInt 64 (toSigned (top - o) (bits x.toNat (top - 1) o))

/-- x with the field replaced by the low bits of y. -/
def fieldInsert (x y : Word) (o top : Nat) : Word :=
  let mask : Word := BitVec.ofNat 64 ((2 ^ (top - o) - 1) * 2 ^ o)
  (x &&& ~~~mask) ||| ((y <<< o) &&& mask)

/-- `bfx`. -/
def execBfx (e b a d : BitVec 5) (s : State) : Result :=
  result d (fun s => match fieldOf (rx s b) (rx s e) with | none => 0 | some (o, t) => fieldBits (rx s a) o t) s

/-- `bfxs`. -/
def execBfxs (e b a d : BitVec 5) (s : State) : Result :=
  result d (fun s => match fieldOf (rx s b) (rx s e) with | none => 0 | some (o, t) => fieldSigned (rx s a) o t) s

/-- `bfi`: rd is its fourth source. -/
def execBfi (e b a d : BitVec 5) (s : State) : Result :=
  result d (fun s => match fieldOf (rx s b) (rx s e) with | none => rx s d | some (o, t) => fieldInsert (rx s d) (rx s a) o t) s

end Sys2Proof.Machine
end

