-- ==== Sys2Proof/Machine/VectorMemory.lean ====
section
/-! DEFINITION. VM words (R301 to R318): memory words, chain edits and Facet words. -/

namespace Sys2Proof.Machine

/-- `vld`. -/
def execVldUnit (c m : BitVec 1) (a d : BitVec 5) (st : State) : Result := vm 0 c m 0 a 0 d (.ld .unit false) st
/-- `vld`. -/
def execVldStrided (c m : BitVec 1) (b a d : BitVec 5) (st : State) : Result := vm 0 c m b a 1 d (.ld .strided false) st
/-- `vld`. -/
def execVldIndexed (m : BitVec 1) (b a d : BitVec 5) (st : State) : Result := vm 0 0 m b a 2 d (.ld .indexed false) st
/-- `vldff`. -/
def execVldffUnit (c m : BitVec 1) (a d : BitVec 5) (st : State) : Result := vm 1 c m 0 a 0 d (.ld .unit true) st
/-- `vldff`. -/
def execVldffStrided (c m : BitVec 1) (b a d : BitVec 5) (st : State) : Result := vm 1 c m b a 1 d (.ld .strided true) st
/-- `vldff`. -/
def execVldffIndexed (m : BitVec 1) (b a d : BitVec 5) (st : State) : Result := vm 1 0 m b a 2 d (.ld .indexed true) st
/-- `vst`. -/
def execVstUnit (c m : BitVec 1) (a s : BitVec 5) (st : State) : Result := vm 2 c m 0 a 0 s (.st .unit) st
/-- `vst`. -/
def execVstStrided (c m : BitVec 1) (b a s : BitVec 5) (st : State) : Result := vm 2 c m b a 1 s (.st .strided) st
/-- `vst`. -/
def execVstIndexed (m : BitVec 1) (b a s : BitVec 5) (st : State) : Result := vm 2 0 m b a 2 s (.st .indexed) st
/-- `vstn`. -/
def execVstn (c m : BitVec 1) (b a s : BitVec 5) (st : State) : Result := vm 3 c m b a 0 s (.stn) st
/-- `vrs.add`. -/
def execVrsAddUnit (c m : BitVec 1) (a s : BitVec 5) (st : State) : Result := vm 4 c m 0 a 0 s (.rs .add false) st
/-- `vrs.add`. -/
def execVrsAddIndexed (c m : BitVec 1) (b a s : BitVec 5) (st : State) : Result := vm 4 c m b a 2 s (.rs .add true) st
/-- `vrs.min`. -/
def execVrsMinUnit (c m : BitVec 1) (a s : BitVec 5) (st : State) : Result := vm 5 c m 0 a 0 s (.rs .min false) st
/-- `vrs.min`. -/
def execVrsMinIndexed (c m : BitVec 1) (b a s : BitVec 5) (st : State) : Result := vm 5 c m b a 2 s (.rs .min true) st
/-- `vrs.max`. -/
def execVrsMaxUnit (c m : BitVec 1) (a s : BitVec 5) (st : State) : Result := vm 6 c m 0 a 0 s (.rs .max false) st
/-- `vrs.max`. -/
def execVrsMaxIndexed (c m : BitVec 1) (b a s : BitVec 5) (st : State) : Result := vm 6 c m b a 2 s (.rs .max true) st
/-- `vrs.or`. -/
def execVrsOrUnit (c m : BitVec 1) (a s : BitVec 5) (st : State) : Result := vm 7 c m 0 a 0 s (.rs .or false) st
/-- `vrs.or`. -/
def execVrsOrIndexed (c m : BitVec 1) (b a s : BitVec 5) (st : State) : Result := vm 7 c m b a 2 s (.rs .or true) st
/-- `vspill`. -/
def execVspill (a s : BitVec 5) (st : State) : Result := vm 8 0 1 0 a 0 s (.spill) st
/-- `vfill`. -/
def execVfill (a d : BitVec 5) (st : State) : Result := vm 9 0 1 0 a 0 d (.fill) st
/-- `vprep`. -/
def execVprep (b a d : BitVec 5) (st : State) : Result := vm 10 0 1 b a 0 d (.prep) st
/-- `vtrimh`. -/
def execVtrimh (b a d : BitVec 5) (st : State) : Result := vm 11 0 1 b a 0 d (.trimh) st
/-- `vtrimt`. -/
def execVtrimt (b a d : BitVec 5) (st : State) : Result := vm 12 0 1 b a 0 d (.trimt) st
/-- `vsplit`. -/
def execVsplit (b a d : BitVec 5) (st : State) : Result := vm 13 0 1 b a 0 d (.split) st
/-- `vjoin`. -/
def execVjoin (b a d : BitVec 5) (st : State) : Result := vm 14 0 1 b a 0 d (.join) st
/-- `vshare`. -/
def execVshare (a d : BitVec 5) (st : State) : Result := vm 15 0 1 0 a 0 d (.share) st
/-- `vretype`. -/
def execVretype (t a d : BitVec 5) (st : State) : Result := vm 16 0 1 t a 0 d (.retype (t.setWidth 4)) st
/-- `vlen`. -/
def execVlen (a d : BitVec 5) (st : State) : Result := vm 17 0 1 0 a 0 d (.len) st
/-- `vfree`. -/
def execVfree (d : BitVec 5) (st : State) : Result := vm 18 0 1 0 0 0 d (.free) st
/-- `vnorm`. -/
def execVnorm (a d : BitVec 5) (st : State) : Result := vm 19 0 1 0 a 0 d (.norm) st
/-- `fclaim`. -/
def execFclaim (b a d : BitVec 5) (st : State) : Result := vm 20 0 1 b a 0 d (.fclaim) st
/-- `frel`. -/
def execFrel (st : State) : Result := vm 21 0 1 0 0 0 0 (.frel) st
/-- `fins`. -/
def execFins (m : BitVec 1) (b a : BitVec 5) (p : BitVec 2) (st : State) : Result := vm 22 0 m b a 0 (0#2 ++ p ++ 0#1 : BitVec 5) (.fins) st
/-- `fprobe`. -/
def execFprobe (m : BitVec 1) (b a : BitVec 5) (p : BitVec 2) (d : BitVec 5) (st : State) : Result := vm 23 0 m b a (0#1 ++ p : BitVec 3) d (.fprobe) st
/-- `fdel`. -/
def execFdel (m : BitVec 1) (a : BitVec 5) (p : BitVec 2) (st : State) : Result := vm 24 0 m 0 a 0 (0#2 ++ p ++ 0#1 : BitVec 5) (.fdel) st
/-- `facc.add`. -/
def execFaccAdd (m : BitVec 1) (p : BitVec 2) (a d : BitVec 5) (st : State) : Result := vm 25 0 m (0#2 ++ p ++ 0#1 : BitVec 5) a 0 d (.facc .add) st
/-- `facc.min`. -/
def execFaccMin (m : BitVec 1) (p : BitVec 2) (a d : BitVec 5) (st : State) : Result := vm 25 0 m (0#2 ++ p ++ 0#1 : BitVec 5) a 1 d (.facc .min) st
/-- `facc.max`. -/
def execFaccMax (m : BitVec 1) (p : BitVec 2) (a d : BitVec 5) (st : State) : Result := vm 25 0 m (0#2 ++ p ++ 0#1 : BitVec 5) a 2 d (.facc .max) st
/-- `facc.or`. -/
def execFaccOr (m : BitVec 1) (p : BitVec 2) (a d : BitVec 5) (st : State) : Result := vm 25 0 m (0#2 ++ p ++ 0#1 : BitVec 5) a 3 d (.facc .or) st
/-- `facc.count`. -/
def execFaccCount (m : BitVec 1) (p : BitVec 2) (a d : BitVec 5) (st : State) : Result := vm 25 0 m (0#2 ++ p ++ 0#1 : BitVec 5) a 4 d (.facc .count) st
/-- `fdrain`. -/
def execFdrain (b d : BitVec 5) (st : State) : Result := vm 26 0 1 b 0 0 d (.fdrain) st

end Sys2Proof.Machine
end

