-- ==== Sys2Proof/Machine/VectorWords.lean ====
section
/-! DEFINITION. VX words (R274 to R299): each enters its convoy with its fields as the table lays them out. -/

namespace Sys2Proof.Machine

/-- `vadd`. -/
def execVaddVv (c m : BitVec 1) (b a d : BitVec 5) (st : State) : Result := vx 0 c m b a 0 d (.arith .add .vv) st
/-- `vadd`. -/
def execVaddVx (c m : BitVec 1) (b a d : BitVec 5) (st : State) : Result := vx 0 c m b a 1 d (.arith .add .vx) st
/-- `vadd`. -/
def execVaddVi (c m : BitVec 1) (b i d : BitVec 5) (st : State) : Result := vx 0 c m b i 2 d (.arith .add .vi) st
/-- `vadd.vs`. -/
def execVaddVs (m : BitVec 1) (b a d : BitVec 5) (st : State) : Result := vx 0 0 m b a 4 d (.arith .add .vs) st
/-- `vadd`. -/
def execVaddRay (c m : BitVec 1) (b a d : BitVec 5) (st : State) : Result := vx 0 c m b a 7 d (.arith .add .ray) st
/-- `vsub`. -/
def execVsubVv (c m : BitVec 1) (b a d : BitVec 5) (st : State) : Result := vx 1 c m b a 0 d (.arith .sub .vv) st
/-- `vsub`. -/
def execVsubVx (c m : BitVec 1) (b a d : BitVec 5) (st : State) : Result := vx 1 c m b a 1 d (.arith .sub .vx) st
/-- `vsub`. -/
def execVsubVi (c m : BitVec 1) (b i d : BitVec 5) (st : State) : Result := vx 1 c m b i 2 d (.arith .sub .vi) st
/-- `vsub.vs`. -/
def execVsubVs (m : BitVec 1) (b a d : BitVec 5) (st : State) : Result := vx 1 0 m b a 4 d (.arith .sub .vs) st
/-- `vsub`. -/
def execVsubRay (c m : BitVec 1) (b a d : BitVec 5) (st : State) : Result := vx 1 c m b a 7 d (.arith .sub .ray) st
/-- `vrsub`. -/
def execVrsubVx (c m : BitVec 1) (b a d : BitVec 5) (st : State) : Result := vx 2 c m b a 1 d (.arith .rsub .vx) st
/-- `vrsub`. -/
def execVrsubVi (c m : BitVec 1) (b i d : BitVec 5) (st : State) : Result := vx 2 c m b i 2 d (.arith .rsub .vi) st
/-- `vrsub.vs`. -/
def execVrsubVs (m : BitVec 1) (b a d : BitVec 5) (st : State) : Result := vx 2 0 m b a 4 d (.arith .rsub .vs) st
/-- `vrsub`. -/
def execVrsubRay (c m : BitVec 1) (b a d : BitVec 5) (st : State) : Result := vx 2 c m b a 7 d (.arith .rsub .ray) st
/-- `vmul`. -/
def execVmulVv (c m : BitVec 1) (b a d : BitVec 5) (st : State) : Result := vx 3 c m b a 0 d (.arith .mul .vv) st
/-- `vmul`. -/
def execVmulVx (c m : BitVec 1) (b a d : BitVec 5) (st : State) : Result := vx 3 c m b a 1 d (.arith .mul .vx) st
/-- `vmul.vs`. -/
def execVmulVs (m : BitVec 1) (b a d : BitVec 5) (st : State) : Result := vx 3 0 m b a 4 d (.arith .mul .vs) st
/-- `vmul`. -/
def execVmulRay (c m : BitVec 1) (b a d : BitVec 5) (st : State) : Result := vx 3 c m b a 7 d (.arith .mul .ray) st
/-- `vmulh`. -/
def execVmulhVv (c m : BitVec 1) (b a d : BitVec 5) (st : State) : Result := vx 4 c m b a 0 d (.arith .mulh .vv) st
/-- `vmulh`. -/
def execVmulhVx (c m : BitVec 1) (b a d : BitVec 5) (st : State) : Result := vx 4 c m b a 1 d (.arith .mulh .vx) st
/-- `vmulh.vs`. -/
def execVmulhVs (m : BitVec 1) (b a d : BitVec 5) (st : State) : Result := vx 4 0 m b a 4 d (.arith .mulh .vs) st
/-- `vmulh`. -/
def execVmulhRay (c m : BitVec 1) (b a d : BitVec 5) (st : State) : Result := vx 4 c m b a 7 d (.arith .mulh .ray) st
/-- `vdiv`. -/
def execVdivVv (c m : BitVec 1) (b a d : BitVec 5) (st : State) : Result := vx 5 c m b a 0 d (.arith .div .vv) st
/-- `vdiv`. -/
def execVdivVx (c m : BitVec 1) (b a d : BitVec 5) (st : State) : Result := vx 5 c m b a 1 d (.arith .div .vx) st
/-- `vdiv.vs`. -/
def execVdivVs (m : BitVec 1) (b a d : BitVec 5) (st : State) : Result := vx 5 0 m b a 4 d (.arith .div .vs) st
/-- `vdiv`. -/
def execVdivRay (c m : BitVec 1) (b a d : BitVec 5) (st : State) : Result := vx 5 c m b a 7 d (.arith .div .ray) st
/-- `vrem`. -/
def execVremVv (c m : BitVec 1) (b a d : BitVec 5) (st : State) : Result := vx 6 c m b a 0 d (.arith .rem .vv) st
/-- `vrem`. -/
def execVremVx (c m : BitVec 1) (b a d : BitVec 5) (st : State) : Result := vx 6 c m b a 1 d (.arith .rem .vx) st
/-- `vrem.vs`. -/
def execVremVs (m : BitVec 1) (b a d : BitVec 5) (st : State) : Result := vx 6 0 m b a 4 d (.arith .rem .vs) st
/-- `vrem`. -/
def execVremRay (c m : BitVec 1) (b a d : BitVec 5) (st : State) : Result := vx 6 c m b a 7 d (.arith .rem .ray) st
/-- `vmin`. -/
def execVminVv (c m : BitVec 1) (b a d : BitVec 5) (st : State) : Result := vx 7 c m b a 0 d (.arith .min .vv) st
/-- `vmin`. -/
def execVminVx (c m : BitVec 1) (b a d : BitVec 5) (st : State) : Result := vx 7 c m b a 1 d (.arith .min .vx) st
/-- `vmin`. -/
def execVminVi (c m : BitVec 1) (b i d : BitVec 5) (st : State) : Result := vx 7 c m b i 2 d (.arith .min .vi) st
/-- `vmin.vs`. -/
def execVminVs (m : BitVec 1) (b a d : BitVec 5) (st : State) : Result := vx 7 0 m b a 4 d (.arith .min .vs) st
/-- `vmin`. -/
def execVminRay (c m : BitVec 1) (b a d : BitVec 5) (st : State) : Result := vx 7 c m b a 7 d (.arith .min .ray) st
/-- `vmax`. -/
def execVmaxVv (c m : BitVec 1) (b a d : BitVec 5) (st : State) : Result := vx 8 c m b a 0 d (.arith .max .vv) st
/-- `vmax`. -/
def execVmaxVx (c m : BitVec 1) (b a d : BitVec 5) (st : State) : Result := vx 8 c m b a 1 d (.arith .max .vx) st
/-- `vmax`. -/
def execVmaxVi (c m : BitVec 1) (b i d : BitVec 5) (st : State) : Result := vx 8 c m b i 2 d (.arith .max .vi) st
/-- `vmax.vs`. -/
def execVmaxVs (m : BitVec 1) (b a d : BitVec 5) (st : State) : Result := vx 8 0 m b a 4 d (.arith .max .vs) st
/-- `vmax`. -/
def execVmaxRay (c m : BitVec 1) (b a d : BitVec 5) (st : State) : Result := vx 8 c m b a 7 d (.arith .max .ray) st
/-- `vand`. -/
def execVandVv (c m : BitVec 1) (b a d : BitVec 5) (st : State) : Result := vx 9 c m b a 0 d (.arith .and .vv) st
/-- `vand`. -/
def execVandVx (c m : BitVec 1) (b a d : BitVec 5) (st : State) : Result := vx 9 c m b a 1 d (.arith .and .vx) st
/-- `vand`. -/
def execVandVi (c m : BitVec 1) (b i d : BitVec 5) (st : State) : Result := vx 9 c m b i 2 d (.arith .and .vi) st
/-- `vand.vs`. -/
def execVandVs (m : BitVec 1) (b a d : BitVec 5) (st : State) : Result := vx 9 0 m b a 4 d (.arith .and .vs) st
/-- `vand`. -/
def execVandRay (c m : BitVec 1) (b a d : BitVec 5) (st : State) : Result := vx 9 c m b a 7 d (.arith .and .ray) st
/-- `vor`. -/
def execVorVv (c m : BitVec 1) (b a d : BitVec 5) (st : State) : Result := vx 10 c m b a 0 d (.arith .or .vv) st
/-- `vor`. -/
def execVorVx (c m : BitVec 1) (b a d : BitVec 5) (st : State) : Result := vx 10 c m b a 1 d (.arith .or .vx) st
/-- `vor`. -/
def execVorVi (c m : BitVec 1) (b i d : BitVec 5) (st : State) : Result := vx 10 c m b i 2 d (.arith .or .vi) st
/-- `vor.vs`. -/
def execVorVs (m : BitVec 1) (b a d : BitVec 5) (st : State) : Result := vx 10 0 m b a 4 d (.arith .or .vs) st
/-- `vor`. -/
def execVorRay (c m : BitVec 1) (b a d : BitVec 5) (st : State) : Result := vx 10 c m b a 7 d (.arith .or .ray) st
/-- `vxor`. -/
def execVxorVv (c m : BitVec 1) (b a d : BitVec 5) (st : State) : Result := vx 11 c m b a 0 d (.arith .xor .vv) st
/-- `vxor`. -/
def execVxorVx (c m : BitVec 1) (b a d : BitVec 5) (st : State) : Result := vx 11 c m b a 1 d (.arith .xor .vx) st
/-- `vxor`. -/
def execVxorVi (c m : BitVec 1) (b i d : BitVec 5) (st : State) : Result := vx 11 c m b i 2 d (.arith .xor .vi) st
/-- `vxor.vs`. -/
def execVxorVs (m : BitVec 1) (b a d : BitVec 5) (st : State) : Result := vx 11 0 m b a 4 d (.arith .xor .vs) st
/-- `vxor`. -/
def execVxorRay (c m : BitVec 1) (b a d : BitVec 5) (st : State) : Result := vx 11 c m b a 7 d (.arith .xor .ray) st
/-- `vsll`. -/
def execVsllVv (c m : BitVec 1) (b a d : BitVec 5) (st : State) : Result := vx 12 c m b a 0 d (.arith .sll .vv) st
/-- `vsll`. -/
def execVsllVx (c m : BitVec 1) (b a d : BitVec 5) (st : State) : Result := vx 12 c m b a 1 d (.arith .sll .vx) st
/-- `vsll`. -/
def execVsllVi (c m : BitVec 1) (b i d : BitVec 5) (st : State) : Result := vx 12 c m b i 2 d (.arith .sll .vi) st
/-- `vsll.vs`. -/
def execVsllVs (m : BitVec 1) (b a d : BitVec 5) (st : State) : Result := vx 12 0 m b a 4 d (.arith .sll .vs) st
/-- `vsll`. -/
def execVsllRay (c m : BitVec 1) (b a d : BitVec 5) (st : State) : Result := vx 12 c m b a 7 d (.arith .sll .ray) st
/-- `vsrl`. -/
def execVsrlVv (c m : BitVec 1) (b a d : BitVec 5) (st : State) : Result := vx 13 c m b a 0 d (.arith .srl .vv) st
/-- `vsrl`. -/
def execVsrlVx (c m : BitVec 1) (b a d : BitVec 5) (st : State) : Result := vx 13 c m b a 1 d (.arith .srl .vx) st
/-- `vsrl`. -/
def execVsrlVi (c m : BitVec 1) (b i d : BitVec 5) (st : State) : Result := vx 13 c m b i 2 d (.arith .srl .vi) st
/-- `vsrl.vs`. -/
def execVsrlVs (m : BitVec 1) (b a d : BitVec 5) (st : State) : Result := vx 13 0 m b a 4 d (.arith .srl .vs) st
/-- `vsrl`. -/
def execVsrlRay (c m : BitVec 1) (b a d : BitVec 5) (st : State) : Result := vx 13 c m b a 7 d (.arith .srl .ray) st
/-- `vsra`. -/
def execVsraVv (c m : BitVec 1) (b a d : BitVec 5) (st : State) : Result := vx 14 c m b a 0 d (.arith .sra .vv) st
/-- `vsra`. -/
def execVsraVx (c m : BitVec 1) (b a d : BitVec 5) (st : State) : Result := vx 14 c m b a 1 d (.arith .sra .vx) st
/-- `vsra`. -/
def execVsraVi (c m : BitVec 1) (b i d : BitVec 5) (st : State) : Result := vx 14 c m b i 2 d (.arith .sra .vi) st
/-- `vsra.vs`. -/
def execVsraVs (m : BitVec 1) (b a d : BitVec 5) (st : State) : Result := vx 14 0 m b a 4 d (.arith .sra .vs) st
/-- `vsra`. -/
def execVsraRay (c m : BitVec 1) (b a d : BitVec 5) (st : State) : Result := vx 14 c m b a 7 d (.arith .sra .ray) st
/-- `vfma`. -/
def execVfmaVv (c m : BitVec 1) (b a d : BitVec 5) (st : State) : Result := vx 15 c m b a 0 d (.fused .fma .vv) st
/-- `vfma`. -/
def execVfmaVx (c m : BitVec 1) (b a d : BitVec 5) (st : State) : Result := vx 15 c m b a 1 d (.fused .fma .vx) st
/-- `vfma.vs`. -/
def execVfmaVs (m : BitVec 1) (b a d : BitVec 5) (st : State) : Result := vx 15 0 m b a 4 d (.fused .fma .vs) st
/-- `vfma`. -/
def execVfmaRay (c m : BitVec 1) (b a d : BitVec 5) (st : State) : Result := vx 15 c m b a 7 d (.fused .fma .ray) st
/-- `vfms`. -/
def execVfmsVv (c m : BitVec 1) (b a d : BitVec 5) (st : State) : Result := vx 16 c m b a 0 d (.fused .fms .vv) st
/-- `vfms`. -/
def execVfmsVx (c m : BitVec 1) (b a d : BitVec 5) (st : State) : Result := vx 16 c m b a 1 d (.fused .fms .vx) st
/-- `vfms.vs`. -/
def execVfmsVs (m : BitVec 1) (b a d : BitVec 5) (st : State) : Result := vx 16 0 m b a 4 d (.fused .fms .vs) st
/-- `vfms`. -/
def execVfmsRay (c m : BitVec 1) (b a d : BitVec 5) (st : State) : Result := vx 16 c m b a 7 d (.fused .fms .ray) st
/-- `vfnma`. -/
def execVfnmaVv (c m : BitVec 1) (b a d : BitVec 5) (st : State) : Result := vx 17 c m b a 0 d (.fused .fnma .vv) st
/-- `vfnma`. -/
def execVfnmaVx (c m : BitVec 1) (b a d : BitVec 5) (st : State) : Result := vx 17 c m b a 1 d (.fused .fnma .vx) st
/-- `vfnma.vs`. -/
def execVfnmaVs (m : BitVec 1) (b a d : BitVec 5) (st : State) : Result := vx 17 0 m b a 4 d (.fused .fnma .vs) st
/-- `vfnma`. -/
def execVfnmaRay (c m : BitVec 1) (b a d : BitVec 5) (st : State) : Result := vx 17 c m b a 7 d (.fused .fnma .ray) st
/-- `vsadd`. -/
def execVsaddVv (c m : BitVec 1) (b a d : BitVec 5) (st : State) : Result := vx 18 c m b a 0 d (.arith .sadd .vv) st
/-- `vsadd`. -/
def execVsaddVx (c m : BitVec 1) (b a d : BitVec 5) (st : State) : Result := vx 18 c m b a 1 d (.arith .sadd .vx) st
/-- `vsadd`. -/
def execVsaddVi (c m : BitVec 1) (b i d : BitVec 5) (st : State) : Result := vx 18 c m b i 2 d (.arith .sadd .vi) st
/-- `vsadd.vs`. -/
def execVsaddVs (m : BitVec 1) (b a d : BitVec 5) (st : State) : Result := vx 18 0 m b a 4 d (.arith .sadd .vs) st
/-- `vsadd`. -/
def execVsaddRay (c m : BitVec 1) (b a d : BitVec 5) (st : State) : Result := vx 18 c m b a 7 d (.arith .sadd .ray) st
/-- `vssub`. -/
def execVssubVv (c m : BitVec 1) (b a d : BitVec 5) (st : State) : Result := vx 19 c m b a 0 d (.arith .ssub .vv) st
/-- `vssub`. -/
def execVssubVx (c m : BitVec 1) (b a d : BitVec 5) (st : State) : Result := vx 19 c m b a 1 d (.arith .ssub .vx) st
/-- `vssub`. -/
def execVssubVi (c m : BitVec 1) (b i d : BitVec 5) (st : State) : Result := vx 19 c m b i 2 d (.arith .ssub .vi) st
/-- `vssub.vs`. -/
def execVssubVs (m : BitVec 1) (b a d : BitVec 5) (st : State) : Result := vx 19 0 m b a 4 d (.arith .ssub .vs) st
/-- `vssub`. -/
def execVssubRay (c m : BitVec 1) (b a d : BitVec 5) (st : State) : Result := vx 19 c m b a 7 d (.arith .ssub .ray) st
/-- `vceq`. -/
def execVceq (c m : BitVec 1) (b a : BitVec 5) (p : BitVec 3) (st : State) : Result := vx 20 c m b a 3 (0#2 ++ p : BitVec 5) (.cmp .eq false false) st
/-- `vcne`. -/
def execVcne (c m : BitVec 1) (b a : BitVec 5) (p : BitVec 3) (st : State) : Result := vx 20 c m b a 3 (1#2 ++ p : BitVec 5) (.cmp .eq false true) st
/-- `vcequ`. -/
def execVcequ (c m : BitVec 1) (b a : BitVec 5) (p : BitVec 3) (st : State) : Result := vx 20 c m b a 3 (2#2 ++ p : BitVec 5) (.cmp .eq true false) st
/-- `vcneu`. -/
def execVcneu (c m : BitVec 1) (b a : BitVec 5) (p : BitVec 3) (st : State) : Result := vx 20 c m b a 3 (3#2 ++ p : BitVec 5) (.cmp .eq true true) st
/-- `vclt`. -/
def execVclt (c m : BitVec 1) (b a : BitVec 5) (p : BitVec 3) (st : State) : Result := vx 21 c m b a 3 (0#2 ++ p : BitVec 5) (.cmp .lt false false) st
/-- `vcnlt`. -/
def execVcnlt (c m : BitVec 1) (b a : BitVec 5) (p : BitVec 3) (st : State) : Result := vx 21 c m b a 3 (1#2 ++ p : BitVec 5) (.cmp .lt false true) st
/-- `vcltu`. -/
def execVcltu (c m : BitVec 1) (b a : BitVec 5) (p : BitVec 3) (st : State) : Result := vx 21 c m b a 3 (2#2 ++ p : BitVec 5) (.cmp .lt true false) st
/-- `vcnltu`. -/
def execVcnltu (c m : BitVec 1) (b a : BitVec 5) (p : BitVec 3) (st : State) : Result := vx 21 c m b a 3 (3#2 ++ p : BitVec 5) (.cmp .lt true true) st
/-- `vcle`. -/
def execVcle (c m : BitVec 1) (b a : BitVec 5) (p : BitVec 3) (st : State) : Result := vx 22 c m b a 3 (0#2 ++ p : BitVec 5) (.cmp .le false false) st
/-- `vcnle`. -/
def execVcnle (c m : BitVec 1) (b a : BitVec 5) (p : BitVec 3) (st : State) : Result := vx 22 c m b a 3 (1#2 ++ p : BitVec 5) (.cmp .le false true) st
/-- `vcleu`. -/
def execVcleu (c m : BitVec 1) (b a : BitVec 5) (p : BitVec 3) (st : State) : Result := vx 22 c m b a 3 (2#2 ++ p : BitVec 5) (.cmp .le true false) st
/-- `vcnleu`. -/
def execVcnleu (c m : BitVec 1) (b a : BitVec 5) (p : BitVec 3) (st : State) : Result := vx 22 c m b a 3 (3#2 ++ p : BitVec 5) (.cmp .le true true) st
/-- `vcun`. -/
def execVcun (c m : BitVec 1) (b a : BitVec 5) (p : BitVec 3) (st : State) : Result := vx 23 c m b a 3 (0#2 ++ p : BitVec 5) (.cmp .un false false) st
/-- `vcord`. -/
def execVcord (c m : BitVec 1) (b a : BitVec 5) (p : BitVec 3) (st : State) : Result := vx 23 c m b a 3 (1#2 ++ p : BitVec 5) (.cmp .un false true) st
/-- `vcsn`. -/
def execVcsn (c m : BitVec 1) (a : BitVec 5) (p : BitVec 3) (st : State) : Result := vx 23 c m 0 a 3 (2#2 ++ p : BitVec 5) (.cmp .sn true false) st
/-- `vcnsn`. -/
def execVcnsn (c m : BitVec 1) (a : BitVec 5) (p : BitVec 3) (st : State) : Result := vx 23 c m 0 a 3 (3#2 ++ p : BitVec 5) (.cmp .sn true true) st
/-- `vsel`. -/
def execVsel (c : BitVec 1) (b a d : BitVec 5) (st : State) : Result := vx 24 c 1 b a 0 d (.sel) st
/-- `vmv`. -/
def execVmvVx (c m : BitVec 1) (a d : BitVec 5) (st : State) : Result := vx 24 c m 0 a 1 d (.mvX) st
/-- `vmv`. -/
def execVmvVi (c m : BitVec 1) (i d : BitVec 5) (st : State) : Result := vx 24 c m 0 i 2 d (.mvI) st
/-- `vmv.x`. -/
def execVmvX (a d : BitVec 5) (st : State) : Result := vx 24 0 1 0 a 4 d (.mvToX) st
/-- `vmv`. -/
def execVmvVv (c m : BitVec 1) (a d : BitVec 5) (st : State) : Result := vx 24 c m 0 a 6 d (.mvV) st
/-- `vcvt`. -/
def execVcvt (c m : BitVec 1) (t : BitVec 4) (a d : BitVec 5) (st : State) : Result := vx 25 c m (0#1 ++ t : BitVec 5) a 5 d (.cvt t false) st
/-- `vcvts`. -/
def execVcvts (c m : BitVec 1) (t : BitVec 4) (a d : BitVec 5) (st : State) : Result := vx 25 c m (1#1 ++ t : BitVec 5) a 5 d (.cvt t true) st
/-- `vneg`. -/
def execVneg (c m : BitVec 1) (a d : BitVec 5) (st : State) : Result := vx 26 c m 0 a 6 d (.unary .neg) st
/-- `vabs`. -/
def execVabs (c m : BitVec 1) (a d : BitVec 5) (st : State) : Result := vx 26 c m 1 a 6 d (.unary .abs) st
/-- `vsqrt`. -/
def execVsqrt (c m : BitVec 1) (a d : BitVec 5) (st : State) : Result := vx 26 c m 2 a 6 d (.unary .sqrt) st
/-- `vrcpe`. -/
def execVrcpe (c m : BitVec 1) (a d : BitVec 5) (st : State) : Result := vx 26 c m 3 a 6 d (.unary .rcpe) st
/-- `vrsqe`. -/
def execVrsqe (c m : BitVec 1) (a d : BitVec 5) (st : State) : Result := vx 26 c m 4 a 6 d (.unary .rsqe) st
/-- `vexp2`. -/
def execVexp2 (c m : BitVec 1) (a d : BitVec 5) (st : State) : Result := vx 26 c m 5 a 6 d (.unary .exp2) st
/-- `vlog2`. -/
def execVlog2 (c m : BitVec 1) (a d : BitVec 5) (st : State) : Result := vx 26 c m 6 a 6 d (.unary .log2) st
/-- `vclz`. -/
def execVclz (c m : BitVec 1) (a d : BitVec 5) (st : State) : Result := vx 26 c m 7 a 6 d (.unary .clz) st
/-- `vpopc`. -/
def execVpopc (c m : BitVec 1) (a d : BitVec 5) (st : State) : Result := vx 26 c m 8 a 6 d (.unary .popc) st
/-- `vbrev`. -/
def execVbrev (c m : BitVec 1) (a d : BitVec 5) (st : State) : Result := vx 26 c m 9 a 6 d (.unary .brev) st
/-- `vclass`. -/
def execVclass (c m : BitVec 1) (a d : BitVec 5) (st : State) : Result := vx 26 c m 10 a 6 d (.unary .class) st
/-- `vredsum`. -/
def execVredsum (m : BitVec 1) (b a d : BitVec 5) (st : State) : Result := vx 27 0 m b a 0 d (.red .sum) st
/-- `vredosum`. -/
def execVredosum (m : BitVec 1) (b a d : BitVec 5) (st : State) : Result := vx 27 0 m b a 1 d (.red .osum) st
/-- `vredmin`. -/
def execVredmin (m : BitVec 1) (b a d : BitVec 5) (st : State) : Result := vx 27 0 m b a 2 d (.red .min) st
/-- `vredmax`. -/
def execVredmax (m : BitVec 1) (b a d : BitVec 5) (st : State) : Result := vx 27 0 m b a 3 d (.red .max) st
/-- `vredand`. -/
def execVredand (m : BitVec 1) (b a d : BitVec 5) (st : State) : Result := vx 27 0 m b a 4 d (.red .and) st
/-- `vredor`. -/
def execVredor (m : BitVec 1) (b a d : BitVec 5) (st : State) : Result := vx 27 0 m b a 5 d (.red .or) st
/-- `vredxor`. -/
def execVredxor (m : BitVec 1) (b a d : BitVec 5) (st : State) : Result := vx 27 0 m b a 6 d (.red .xor) st
/-- `vargmax`. -/
def execVargmax (m : BitVec 1) (b d : BitVec 5) (st : State) : Result := vx 27 0 m b 0 7 d (.argmax) st
/-- `vcompress`. -/
def execVcompress (b d : BitVec 5) (st : State) : Result := vx 28 0 0 b 0 0 d (.compress) st
/-- `vexpand`. -/
def execVexpand (b d : BitVec 5) (st : State) : Result := vx 28 0 0 b 0 1 d (.expand) st
/-- `vpcnt`. -/
def execVpcnt (m : BitVec 1) (a : BitVec 3) (d : BitVec 5) (st : State) : Result := vx 28 0 m 0 (0#2 ++ a : BitVec 5) 2 d (.vpcnt) st
/-- `vconfl`. -/
def execVconfl (m : BitVec 1) (a d : BitVec 5) (st : State) : Result := vx 28 0 m 0 a 3 d (.confl) st
/-- `vslideup`. -/
def execVslideup (m : BitVec 1) (b a d : BitVec 5) (st : State) : Result := vx 28 0 m b a 4 d (.slideUp) st
/-- `vslidedn`. -/
def execVslidedn (m : BitVec 1) (b a d : BitVec 5) (st : State) : Result := vx 28 0 m b a 5 d (.slideDn) st
/-- `vperm`. -/
def execVperm (m : BitVec 1) (b a d : BitVec 5) (st : State) : Result := vx 28 0 m b a 6 d (.perm) st
/-- `viota`. -/
def execViota (m : BitVec 1) (a d : BitVec 5) (st : State) : Result := vx 28 0 m 0 a 7 d (.iota) st
/-- `vsscan.add`. -/
def execVsscanAdd (b d : BitVec 5) (st : State) : Result := vx 29 0 1 b 0 0 d (.scan .add) st
/-- `vsscan.min`. -/
def execVsscanMin (b d : BitVec 5) (st : State) : Result := vx 29 0 1 b 0 1 d (.scan .min) st
/-- `vsscan.max`. -/
def execVsscanMax (b d : BitVec 5) (st : State) : Result := vx 29 0 1 b 0 2 d (.scan .max) st
/-- `vsscan.or`. -/
def execVsscanOr (b d : BitVec 5) (st : State) : Result := vx 29 0 1 b 0 3 d (.scan .or) st
/-- `vtopk`. -/
def execVtopk (m : BitVec 1) (b a d : BitVec 5) (st : State) : Result := vx 30 0 m b a 0 d (.topk) st
/-- `vinter`. -/
def execVinter (m : BitVec 1) (b a d : BitVec 5) (st : State) : Result := vx 30 0 m b a 1 d (.inter) st
/-- `vsortk`. -/
def execVsortk (m : BitVec 1) (a d : BitVec 5) (st : State) : Result := vx 30 0 m 0 a 2 d (.sortk) st
/-- `pand`. -/
def execPand (c : BitVec 1) (b a d : BitVec 3) (st : State) : Result := vx 31 c 1 (0#2 ++ b : BitVec 5) (0#2 ++ a : BitVec 5) 0 (0#2 ++ d : BitVec 5) (.pred .and) st
/-- `por`. -/
def execPor (c : BitVec 1) (b a d : BitVec 3) (st : State) : Result := vx 31 c 1 (0#2 ++ b : BitVec 5) (0#2 ++ a : BitVec 5) 1 (0#2 ++ d : BitVec 5) (.pred .or) st
/-- `pxor`. -/
def execPxor (c : BitVec 1) (b a d : BitVec 3) (st : State) : Result := vx 31 c 1 (0#2 ++ b : BitVec 5) (0#2 ++ a : BitVec 5) 2 (0#2 ++ d : BitVec 5) (.pred .xor) st
/-- `pnot`. -/
def execPnot (c : BitVec 1) (a d : BitVec 3) (st : State) : Result := vx 31 c 1 0 (0#2 ++ a : BitVec 5) 3 (0#2 ++ d : BitVec 5) (.pred .not) st
/-- `pmov`. -/
def execPmov (c : BitVec 1) (a d : BitVec 3) (st : State) : Result := vx 31 c 1 0 (0#2 ++ a : BitVec 5) 4 (0#2 ++ d : BitVec 5) (.pred .mov) st
/-- `pcnt`. -/
def execPcnt (c : BitVec 1) (a : BitVec 3) (d : BitVec 5) (st : State) : Result := vx 31 c 1 0 (0#2 ++ a : BitVec 5) 5 d (.pcnt) st
/-- `pfirst`. -/
def execPfirst (c : BitVec 1) (a : BitVec 3) (d : BitVec 5) (st : State) : Result := vx 31 c 1 0 (0#2 ++ a : BitVec 5) 6 d (.pfirst) st

end Sys2Proof.Machine
end

