-- ==== Sys2Proof/Machine/Dispatch.lean ====
section
/-! DEFINITION. Every instruction to its meaning. -/

namespace Sys2Proof.Machine

/-- What an instruction does. -/
def exec (i : Instr) (s : State) : Host.Outcome State Fault Refusal :=
  match i with
  | .powerOnReset => Sys2Proof.Machine.execPowerOnReset s
  | .bootlenWrite len => Sys2Proof.Machine.execBootlenWrite len s
  | .bootImageFetched image => Sys2Proof.Machine.execBootImageFetched image s
  | .firmwareBringup runtime => Sys2Proof.Machine.execFirmwareBringup runtime s
  | .alarmTrip causes => Sys2Proof.Machine.execAlarmTrip causes s
  | .keyStoreEraseDone => Sys2Proof.Machine.execKeyStoreEraseDone s
  | .thermalPolicy die temp => Sys2Proof.Machine.execThermalPolicy die temp s
  | .identity => Sys2Proof.Machine.execIdentity s
  | .attest nonce => Sys2Proof.Machine.execAttest nonce s
  | .status => Sys2Proof.Machine.execStatus s
  | .logRead auth die seq => Sys2Proof.Machine.execLogRead auth die seq s
  | .counters auth die idx set => Sys2Proof.Machine.execCounters auth die idx set s
  | .firmware auth image => Sys2Proof.Machine.execFirmware auth image s
  | .partition auth opc arg0 arg1 => Sys2Proof.Machine.execPartition auth opc arg0 arg1 s
  | .step auth die clock => Sys2Proof.Machine.execStep auth die clock s
  | .alarm auth set => Sys2Proof.Machine.execAlarm auth set s
  | .provision auth keys => Sys2Proof.Machine.execProvision auth keys s
  | .supplyRampDone die => Sys2Proof.Machine.execSupplyRampDone die s
  | .relockEnd die => Sys2Proof.Machine.execRelockEnd die s
  | .flitReceive die port header payload => Sys2Proof.Machine.execFlitReceive die port header payload s
  | .linkRetrain die port => Sys2Proof.Machine.execLinkRetrain die port s
  | .linkDown die port => Sys2Proof.Machine.execLinkDown die port s
  | .fabricFrameReceive port pkg flits => Sys2Proof.Machine.execFabricFrameReceive port pkg flits s
  | .fabricReplayTimeout port => Sys2Proof.Machine.execFabricReplayTimeout port s
  | .qctlEnSet q v => Sys2Proof.Machine.execQctlEnSet q v s
  | .qctlEnClear q v => Sys2Proof.Machine.execQctlEnClear q v s
  | .qctlResume q v => Sys2Proof.Machine.execQctlResume q v s
  | .qctlHold q v => Sys2Proof.Machine.execQctlHold q v s
  | .qctlDisc q v => Sys2Proof.Machine.execQctlDisc q v s
  | .qdbellWrite q v => Sys2Proof.Machine.execQdbellWrite q v s
  | .qaconsWrite q v => Sys2Proof.Machine.execQaconsWrite q v s
  | .qwdogWrite q v => Sys2Proof.Machine.execQwdogWrite q v s
  | .queueRegisterWrite q off size v => Sys2Proof.Machine.execQueueRegisterWrite q off size v s
  | .slotConsume q => Sys2Proof.Machine.execSlotConsume q s
  | .answerEmit q => Sys2Proof.Machine.execAnswerEmit q s
  | .nop q hseq => Sys2Proof.Machine.execNop q hseq s
  | .pcreate q hseq => Sys2Proof.Machine.execPcreate q hseq s
  | .pdestroy q hseq => Sys2Proof.Machine.execPdestroy q hseq s
  | .qbind q hseq => Sys2Proof.Machine.execQbind q hseq s
  | .pdrain q hseq => Sys2Proof.Machine.execPdrain q hseq s
  | .rcreate q hseq => Sys2Proof.Machine.execRcreate q hseq s
  | .grun q hseq => Sys2Proof.Machine.execGrun q hseq s
  | .wdog q hseq => Sys2Proof.Machine.execWdog q hseq s
  | .cksave q hseq => Sys2Proof.Machine.execCksave q hseq s
  | .ckload q hseq => Sys2Proof.Machine.execCkload q hseq s
  | .fstep q hseq => Sys2Proof.Machine.execFstep q hseq s
  | .qfence q hseq => Sys2Proof.Machine.execQfence q hseq s
  | .rretire q hseq => Sys2Proof.Machine.execRretire q hseq s
  | .reservedOpcode q hseq => Sys2Proof.Machine.execReservedOpcode q hseq s
  | .checkpointQuiesced q hseq => Sys2Proof.Machine.execCheckpointQuiesced q hseq s
  | .checkpointCopyComplete q hseq => Sys2Proof.Machine.execCheckpointCopyComplete q hseq s
  | .checkpointCxlError q hseq reached => Sys2Proof.Machine.execCheckpointCxlError q hseq reached s
  | .watchdogExpiry q => Sys2Proof.Machine.execWatchdogExpiry q s
  | .drainOperationsSettled part => Sys2Proof.Machine.execDrainOperationsSettled part s
  | .regionRetire part region => Sys2Proof.Machine.execRegionRetire part region s
  | .locusWaitingSubmissionEnter locus => Sys2Proof.Machine.execLocusWaitingSubmissionEnter locus s
  | .tenderPriorityRise locus entry => Sys2Proof.Machine.execTenderPriorityRise locus entry s
  | .tenderStart locus => Sys2Proof.Machine.execTenderStart locus s
  | .tenderArrival locus entry round core => Sys2Proof.Machine.execTenderArrival locus entry round core s
  | .bidReceive locus entry round core bid => Sys2Proof.Machine.execBidReceive locus entry round core bid s
  | .bidWindowExpiry locus entry round => Sys2Proof.Machine.execBidWindowExpiry locus entry round s
  | .escalatedTenderReceive die entry => Sys2Proof.Machine.execEscalatedTenderReceive die entry s
  | .hubTenderResult die entry committed => Sys2Proof.Machine.execHubTenderResult die entry committed s
  | .awardArrival locus entry round core => Sys2Proof.Machine.execAwardArrival locus entry round core s
  | .withdrawalReceive locus entry round core => Sys2Proof.Machine.execWithdrawalReceive locus entry round core s
  | .commitTimeout locus entry round => Sys2Proof.Machine.execCommitTimeout locus entry round s
  | .commitReceive locus entry round core => Sys2Proof.Machine.execCommitReceive locus entry round core s
  | .preemptionStopTimeout ctx => Sys2Proof.Machine.execPreemptionStopTimeout ctx s
  | .convoyBoundaryStop ctx => Sys2Proof.Machine.execConvoyBoundaryStop ctx s
  | .saveOwedWritesDelivered ctx => Sys2Proof.Machine.execSaveOwedWritesDelivered ctx s
  | .saveImageWritten ctx => Sys2Proof.Machine.execSaveImageWritten ctx s
  | .protectionExpiry ctx => Sys2Proof.Machine.execProtectionExpiry ctx s
  | .retireComplete ctx => Sys2Proof.Machine.execRetireComplete ctx s
  | .completionObjectUpdate part region object estat => Sys2Proof.Machine.execCompletionObjectUpdate part region object estat s
  | .predDecrement part region node core => Sys2Proof.Machine.execPredDecrement part region node core s
  | .cancellingDecrement part region node core => Sys2Proof.Machine.execCancellingDecrement part region node core s
  | .killEnd part region => Sys2Proof.Machine.execKillEnd part region s
  | .regionWatchdogExpiry ctx => Sys2Proof.Machine.execRegionWatchdogExpiry ctx s
  | .poolEmptyRestart ctx => Sys2Proof.Machine.execPoolEmptyRestart ctx s
  | .poolEmptyWaitExpiry ctx => Sys2Proof.Machine.execPoolEmptyWaitExpiry ctx s
  | .rayPermitResume ctx => Sys2Proof.Machine.execRayPermitResume ctx s
  | .rayPermitWaitExpiry ctx => Sys2Proof.Machine.execRayPermitWaitExpiry ctx s
  | .pageFetchComplete part page ok => Sys2Proof.Machine.execPageFetchComplete part page ok s
  | .rangedInvalidationComplete req => Sys2Proof.Machine.execRangedInvalidationComplete req s
  | .planeAllocate ctx units => Sys2Proof.Machine.execPlaneAllocate ctx units s
  | .planeFree ctx offset units => Sys2Proof.Machine.execPlaneFree ctx offset units s
  | .pin ctx base len => Sys2Proof.Machine.execPin ctx base len s
  | .unpin ctx base len => Sys2Proof.Machine.execUnpin ctx base len s
  | .invalidate ctx base len mode => Sys2Proof.Machine.execInvalidate ctx base len mode s
  | .engineOperationComplete op => Sys2Proof.Machine.execEngineOperationComplete op s
  | .writeQueueApply entry => Sys2Proof.Machine.execWriteQueueApply entry s
  | .releaseComplete ctx => Sys2Proof.Machine.execReleaseComplete ctx s
  | .lrReservationExpiry ctx => Sys2Proof.Machine.execLrReservationExpiry ctx s
  | .barrierResume ctx => Sys2Proof.Machine.execBarrierResume ctx s
  | .tokenArrival token => Sys2Proof.Machine.execTokenArrival token s
  | .illegalEncoding word => Sys2Proof.Machine.execIllegalEncoding word s
  | .linkTrainingComplete die port ok => Sys2Proof.Machine.execLinkTrainingComplete die port ok s
  | .dieTlbHoldEnd req => Sys2Proof.Machine.execDieTlbHoldEnd req s
  | .phaseCountersCleared ctx phase => Sys2Proof.Machine.execPhaseCountersCleared ctx phase s
  | .debuggerResume ctx single => Sys2Proof.Machine.execDebuggerResume ctx single s
  | .bootSourceNoAnswer => Sys2Proof.Machine.execBootSourceNoAnswer s
  | .powerFail => Sys2Proof.Machine.execPowerFail s
  | .hostMemoryWrite addr bytes => Sys2Proof.Machine.execHostMemoryWrite addr bytes s
  | .memoryError unit addr corrected => Sys2Proof.Machine.execMemoryError unit addr corrected s
  | .vaddVv c m b a d => Sys2Proof.Machine.execVaddVv c m b a d s
  | .vaddVx c m b a d => Sys2Proof.Machine.execVaddVx c m b a d s
  | .vaddVi c m b im d => Sys2Proof.Machine.execVaddVi c m b im d s
  | .vaddVs m b a d => Sys2Proof.Machine.execVaddVs m b a d s
  | .vaddRay c m b a d => Sys2Proof.Machine.execVaddRay c m b a d s
  | .vsubVv c m b a d => Sys2Proof.Machine.execVsubVv c m b a d s
  | .vsubVx c m b a d => Sys2Proof.Machine.execVsubVx c m b a d s
  | .vsubVi c m b im d => Sys2Proof.Machine.execVsubVi c m b im d s
  | .vsubVs m b a d => Sys2Proof.Machine.execVsubVs m b a d s
  | .vsubRay c m b a d => Sys2Proof.Machine.execVsubRay c m b a d s
  | .vrsubVx c m b a d => Sys2Proof.Machine.execVrsubVx c m b a d s
  | .vrsubVi c m b im d => Sys2Proof.Machine.execVrsubVi c m b im d s
  | .vrsubVs m b a d => Sys2Proof.Machine.execVrsubVs m b a d s
  | .vrsubRay c m b a d => Sys2Proof.Machine.execVrsubRay c m b a d s
  | .vmulVv c m b a d => Sys2Proof.Machine.execVmulVv c m b a d s
  | .vmulVx c m b a d => Sys2Proof.Machine.execVmulVx c m b a d s
  | .vmulVs m b a d => Sys2Proof.Machine.execVmulVs m b a d s
  | .vmulRay c m b a d => Sys2Proof.Machine.execVmulRay c m b a d s
  | .vmulhVv c m b a d => Sys2Proof.Machine.execVmulhVv c m b a d s
  | .vmulhVx c m b a d => Sys2Proof.Machine.execVmulhVx c m b a d s
  | .vmulhVs m b a d => Sys2Proof.Machine.execVmulhVs m b a d s
  | .vmulhRay c m b a d => Sys2Proof.Machine.execVmulhRay c m b a d s
  | .vdivVv c m b a d => Sys2Proof.Machine.execVdivVv c m b a d s
  | .vdivVx c m b a d => Sys2Proof.Machine.execVdivVx c m b a d s
  | .vdivVs m b a d => Sys2Proof.Machine.execVdivVs m b a d s
  | .vdivRay c m b a d => Sys2Proof.Machine.execVdivRay c m b a d s
  | .vremVv c m b a d => Sys2Proof.Machine.execVremVv c m b a d s
  | .vremVx c m b a d => Sys2Proof.Machine.execVremVx c m b a d s
  | .vremVs m b a d => Sys2Proof.Machine.execVremVs m b a d s
  | .vremRay c m b a d => Sys2Proof.Machine.execVremRay c m b a d s
  | .vminVv c m b a d => Sys2Proof.Machine.execVminVv c m b a d s
  | .vminVx c m b a d => Sys2Proof.Machine.execVminVx c m b a d s
  | .vminVi c m b im d => Sys2Proof.Machine.execVminVi c m b im d s
  | .vminVs m b a d => Sys2Proof.Machine.execVminVs m b a d s
  | .vminRay c m b a d => Sys2Proof.Machine.execVminRay c m b a d s
  | .vmaxVv c m b a d => Sys2Proof.Machine.execVmaxVv c m b a d s
  | .vmaxVx c m b a d => Sys2Proof.Machine.execVmaxVx c m b a d s
  | .vmaxVi c m b im d => Sys2Proof.Machine.execVmaxVi c m b im d s
  | .vmaxVs m b a d => Sys2Proof.Machine.execVmaxVs m b a d s
  | .vmaxRay c m b a d => Sys2Proof.Machine.execVmaxRay c m b a d s
  | .vandVv c m b a d => Sys2Proof.Machine.execVandVv c m b a d s
  | .vandVx c m b a d => Sys2Proof.Machine.execVandVx c m b a d s
  | .vandVi c m b im d => Sys2Proof.Machine.execVandVi c m b im d s
  | .vandVs m b a d => Sys2Proof.Machine.execVandVs m b a d s
  | .vandRay c m b a d => Sys2Proof.Machine.execVandRay c m b a d s
  | .vorVv c m b a d => Sys2Proof.Machine.execVorVv c m b a d s
  | .vorVx c m b a d => Sys2Proof.Machine.execVorVx c m b a d s
  | .vorVi c m b im d => Sys2Proof.Machine.execVorVi c m b im d s
  | .vorVs m b a d => Sys2Proof.Machine.execVorVs m b a d s
  | .vorRay c m b a d => Sys2Proof.Machine.execVorRay c m b a d s
  | .vxorVv c m b a d => Sys2Proof.Machine.execVxorVv c m b a d s
  | .vxorVx c m b a d => Sys2Proof.Machine.execVxorVx c m b a d s
  | .vxorVi c m b im d => Sys2Proof.Machine.execVxorVi c m b im d s
  | .vxorVs m b a d => Sys2Proof.Machine.execVxorVs m b a d s
  | .vxorRay c m b a d => Sys2Proof.Machine.execVxorRay c m b a d s
  | .vsllVv c m b a d => Sys2Proof.Machine.execVsllVv c m b a d s
  | .vsllVx c m b a d => Sys2Proof.Machine.execVsllVx c m b a d s
  | .vsllVi c m b im d => Sys2Proof.Machine.execVsllVi c m b im d s
  | .vsllVs m b a d => Sys2Proof.Machine.execVsllVs m b a d s
  | .vsllRay c m b a d => Sys2Proof.Machine.execVsllRay c m b a d s
  | .vsrlVv c m b a d => Sys2Proof.Machine.execVsrlVv c m b a d s
  | .vsrlVx c m b a d => Sys2Proof.Machine.execVsrlVx c m b a d s
  | .vsrlVi c m b im d => Sys2Proof.Machine.execVsrlVi c m b im d s
  | .vsrlVs m b a d => Sys2Proof.Machine.execVsrlVs m b a d s
  | .vsrlRay c m b a d => Sys2Proof.Machine.execVsrlRay c m b a d s
  | .vsraVv c m b a d => Sys2Proof.Machine.execVsraVv c m b a d s
  | .vsraVx c m b a d => Sys2Proof.Machine.execVsraVx c m b a d s
  | .vsraVi c m b im d => Sys2Proof.Machine.execVsraVi c m b im d s
  | .vsraVs m b a d => Sys2Proof.Machine.execVsraVs m b a d s
  | .vsraRay c m b a d => Sys2Proof.Machine.execVsraRay c m b a d s
  | .vfmaVv c m b a d => Sys2Proof.Machine.execVfmaVv c m b a d s
  | .vfmaVx c m b a d => Sys2Proof.Machine.execVfmaVx c m b a d s
  | .vfmaVs m b a d => Sys2Proof.Machine.execVfmaVs m b a d s
  | .vfmaRay c m b a d => Sys2Proof.Machine.execVfmaRay c m b a d s
  | .vfmsVv c m b a d => Sys2Proof.Machine.execVfmsVv c m b a d s
  | .vfmsVx c m b a d => Sys2Proof.Machine.execVfmsVx c m b a d s
  | .vfmsVs m b a d => Sys2Proof.Machine.execVfmsVs m b a d s
  | .vfmsRay c m b a d => Sys2Proof.Machine.execVfmsRay c m b a d s
  | .vfnmaVv c m b a d => Sys2Proof.Machine.execVfnmaVv c m b a d s
  | .vfnmaVx c m b a d => Sys2Proof.Machine.execVfnmaVx c m b a d s
  | .vfnmaVs m b a d => Sys2Proof.Machine.execVfnmaVs m b a d s
  | .vfnmaRay c m b a d => Sys2Proof.Machine.execVfnmaRay c m b a d s
  | .vsaddVv c m b a d => Sys2Proof.Machine.execVsaddVv c m b a d s
  | .vsaddVx c m b a d => Sys2Proof.Machine.execVsaddVx c m b a d s
  | .vsaddVi c m b im d => Sys2Proof.Machine.execVsaddVi c m b im d s
  | .vsaddVs m b a d => Sys2Proof.Machine.execVsaddVs m b a d s
  | .vsaddRay c m b a d => Sys2Proof.Machine.execVsaddRay c m b a d s
  | .vssubVv c m b a d => Sys2Proof.Machine.execVssubVv c m b a d s
  | .vssubVx c m b a d => Sys2Proof.Machine.execVssubVx c m b a d s
  | .vssubVi c m b im d => Sys2Proof.Machine.execVssubVi c m b im d s
  | .vssubVs m b a d => Sys2Proof.Machine.execVssubVs m b a d s
  | .vssubRay c m b a d => Sys2Proof.Machine.execVssubRay c m b a d s
  | .vceq c m b a p => Sys2Proof.Machine.execVceq c m b a p s
  | .vcne c m b a p => Sys2Proof.Machine.execVcne c m b a p s
  | .vcequ c m b a p => Sys2Proof.Machine.execVcequ c m b a p s
  | .vcneu c m b a p => Sys2Proof.Machine.execVcneu c m b a p s
  | .vclt c m b a p => Sys2Proof.Machine.execVclt c m b a p s
  | .vcnlt c m b a p => Sys2Proof.Machine.execVcnlt c m b a p s
  | .vcltu c m b a p => Sys2Proof.Machine.execVcltu c m b a p s
  | .vcnltu c m b a p => Sys2Proof.Machine.execVcnltu c m b a p s
  | .vcle c m b a p => Sys2Proof.Machine.execVcle c m b a p s
  | .vcnle c m b a p => Sys2Proof.Machine.execVcnle c m b a p s
  | .vcleu c m b a p => Sys2Proof.Machine.execVcleu c m b a p s
  | .vcnleu c m b a p => Sys2Proof.Machine.execVcnleu c m b a p s
  | .vcun c m b a p => Sys2Proof.Machine.execVcun c m b a p s
  | .vcord c m b a p => Sys2Proof.Machine.execVcord c m b a p s
  | .vcsn c m a p => Sys2Proof.Machine.execVcsn c m a p s
  | .vcnsn c m a p => Sys2Proof.Machine.execVcnsn c m a p s
  | .vsel c b a d => Sys2Proof.Machine.execVsel c b a d s
  | .vmvVx c m a d => Sys2Proof.Machine.execVmvVx c m a d s
  | .vmvVi c m im d => Sys2Proof.Machine.execVmvVi c m im d s
  | .vmvX a d => Sys2Proof.Machine.execVmvX a d s
  | .vmvVv c m a d => Sys2Proof.Machine.execVmvVv c m a d s
  | .vcvt c m t a d => Sys2Proof.Machine.execVcvt c m t a d s
  | .vcvts c m t a d => Sys2Proof.Machine.execVcvts c m t a d s
  | .vneg c m a d => Sys2Proof.Machine.execVneg c m a d s
  | .vabs c m a d => Sys2Proof.Machine.execVabs c m a d s
  | .vsqrt c m a d => Sys2Proof.Machine.execVsqrt c m a d s
  | .vrcpe c m a d => Sys2Proof.Machine.execVrcpe c m a d s
  | .vrsqe c m a d => Sys2Proof.Machine.execVrsqe c m a d s
  | .vexp2 c m a d => Sys2Proof.Machine.execVexp2 c m a d s
  | .vlog2 c m a d => Sys2Proof.Machine.execVlog2 c m a d s
  | .vclz c m a d => Sys2Proof.Machine.execVclz c m a d s
  | .vpopc c m a d => Sys2Proof.Machine.execVpopc c m a d s
  | .vbrev c m a d => Sys2Proof.Machine.execVbrev c m a d s
  | .vclass c m a d => Sys2Proof.Machine.execVclass c m a d s
  | .vredsum m b a d => Sys2Proof.Machine.execVredsum m b a d s
  | .vredosum m b a d => Sys2Proof.Machine.execVredosum m b a d s
  | .vredmin m b a d => Sys2Proof.Machine.execVredmin m b a d s
  | .vredmax m b a d => Sys2Proof.Machine.execVredmax m b a d s
  | .vredand m b a d => Sys2Proof.Machine.execVredand m b a d s
  | .vredor m b a d => Sys2Proof.Machine.execVredor m b a d s
  | .vredxor m b a d => Sys2Proof.Machine.execVredxor m b a d s
  | .vargmax m b d => Sys2Proof.Machine.execVargmax m b d s
  | .vcompress b d => Sys2Proof.Machine.execVcompress b d s
  | .vexpand b d => Sys2Proof.Machine.execVexpand b d s
  | .vpcnt m a d => Sys2Proof.Machine.execVpcnt m a d s
  | .vconfl m a d => Sys2Proof.Machine.execVconfl m a d s
  | .vslideup m b a d => Sys2Proof.Machine.execVslideup m b a d s
  | .vslidedn m b a d => Sys2Proof.Machine.execVslidedn m b a d s
  | .vperm m b a d => Sys2Proof.Machine.execVperm m b a d s
  | .viota m a d => Sys2Proof.Machine.execViota m a d s
  | .vsscanAdd b d => Sys2Proof.Machine.execVsscanAdd b d s
  | .vsscanMin b d => Sys2Proof.Machine.execVsscanMin b d s
  | .vsscanMax b d => Sys2Proof.Machine.execVsscanMax b d s
  | .vsscanOr b d => Sys2Proof.Machine.execVsscanOr b d s
  | .vtopk m b a d => Sys2Proof.Machine.execVtopk m b a d s
  | .vinter m b a d => Sys2Proof.Machine.execVinter m b a d s
  | .vsortk m a d => Sys2Proof.Machine.execVsortk m a d s
  | .pand c b a d => Sys2Proof.Machine.execPand c b a d s
  | .por c b a d => Sys2Proof.Machine.execPor c b a d s
  | .pxor c b a d => Sys2Proof.Machine.execPxor c b a d s
  | .pnot c a d => Sys2Proof.Machine.execPnot c a d s
  | .pmov c a d => Sys2Proof.Machine.execPmov c a d s
  | .pcnt c a d => Sys2Proof.Machine.execPcnt c a d s
  | .pfirst c a d => Sys2Proof.Machine.execPfirst c a d s
  | .vldUnit c m a d => Sys2Proof.Machine.execVldUnit c m a d s
  | .vldStrided c m b a d => Sys2Proof.Machine.execVldStrided c m b a d s
  | .vldIndexed m b a d => Sys2Proof.Machine.execVldIndexed m b a d s
  | .vldffUnit c m a d => Sys2Proof.Machine.execVldffUnit c m a d s
  | .vldffStrided c m b a d => Sys2Proof.Machine.execVldffStrided c m b a d s
  | .vldffIndexed m b a d => Sys2Proof.Machine.execVldffIndexed m b a d s
  | .vstUnit c m a sc => Sys2Proof.Machine.execVstUnit c m a sc s
  | .vstStrided c m b a sc => Sys2Proof.Machine.execVstStrided c m b a sc s
  | .vstIndexed m b a sc => Sys2Proof.Machine.execVstIndexed m b a sc s
  | .vstn c m b a sc => Sys2Proof.Machine.execVstn c m b a sc s
  | .vrsAddUnit c m a sc => Sys2Proof.Machine.execVrsAddUnit c m a sc s
  | .vrsAddIndexed c m b a sc => Sys2Proof.Machine.execVrsAddIndexed c m b a sc s
  | .vrsMinUnit c m a sc => Sys2Proof.Machine.execVrsMinUnit c m a sc s
  | .vrsMinIndexed c m b a sc => Sys2Proof.Machine.execVrsMinIndexed c m b a sc s
  | .vrsMaxUnit c m a sc => Sys2Proof.Machine.execVrsMaxUnit c m a sc s
  | .vrsMaxIndexed c m b a sc => Sys2Proof.Machine.execVrsMaxIndexed c m b a sc s
  | .vrsOrUnit c m a sc => Sys2Proof.Machine.execVrsOrUnit c m a sc s
  | .vrsOrIndexed c m b a sc => Sys2Proof.Machine.execVrsOrIndexed c m b a sc s
  | .vspill a sc => Sys2Proof.Machine.execVspill a sc s
  | .vfill a d => Sys2Proof.Machine.execVfill a d s
  | .vprep b a d => Sys2Proof.Machine.execVprep b a d s
  | .vtrimh b a d => Sys2Proof.Machine.execVtrimh b a d s
  | .vtrimt b a d => Sys2Proof.Machine.execVtrimt b a d s
  | .vsplit b a d => Sys2Proof.Machine.execVsplit b a d s
  | .vjoin b a d => Sys2Proof.Machine.execVjoin b a d s
  | .vshare a d => Sys2Proof.Machine.execVshare a d s
  | .vretype t a d => Sys2Proof.Machine.execVretype t a d s
  | .vlen a d => Sys2Proof.Machine.execVlen a d s
  | .vfree d => Sys2Proof.Machine.execVfree d s
  | .vnorm a d => Sys2Proof.Machine.execVnorm a d s
  | .fclaim b a d => Sys2Proof.Machine.execFclaim b a d s
  | .frel => Sys2Proof.Machine.execFrel s
  | .fins m b a p => Sys2Proof.Machine.execFins m b a p s
  | .fprobe m b a p d => Sys2Proof.Machine.execFprobe m b a p d s
  | .fdel m a p => Sys2Proof.Machine.execFdel m a p s
  | .faccAdd m p a d => Sys2Proof.Machine.execFaccAdd m p a d s
  | .faccMin m p a d => Sys2Proof.Machine.execFaccMin m p a d s
  | .faccMax m p a d => Sys2Proof.Machine.execFaccMax m p a d s
  | .faccOr m p a d => Sys2Proof.Machine.execFaccOr m p a d s
  | .faccCount m p a d => Sys2Proof.Machine.execFaccCount m p a d s
  | .fdrain b d => Sys2Proof.Machine.execFdrain b d s
  | .mset b a f d => Sys2Proof.Machine.execMset b a f d s
  | .mld b a d => Sys2Proof.Machine.execMld b a d s
  | .mldff b a d => Sys2Proof.Machine.execMldff b a d s
  | .mst b a d => Sys2Proof.Machine.execMst b a d s
  | .mzero t => Sys2Proof.Machine.execMzero t s
  | .mop c b a f => Sys2Proof.Machine.execMop c b a f s
  | .msca c b a => Sys2Proof.Machine.execMsca c b a s
  | .mrowIn b a f d => Sys2Proof.Machine.execMrowIn b a f d s
  | .mrowOut b a f d => Sys2Proof.Machine.execMrowOut b a f d s
  | .maccOut c b a f d => Sys2Proof.Machine.execMaccOut c b a f d s
  | .mgang a d => Sys2Proof.Machine.execMgang a d s
  | .mbcast b a => Sys2Proof.Machine.execMbcast b a s
  | .vsmine o k n => Sys2Proof.Machine.execVsmine o k n s
  | .vsetl t a d => Sys2Proof.Machine.execVsetl t a d s
  | .vcollapse a d => Sys2Proof.Machine.execVcollapse a d s
  | .fenceSv sc => Sys2Proof.Machine.execFenceSv sc s
  | .fenceVs sc => Sys2Proof.Machine.execFenceVs sc s
  | .fenceVv sc => Sys2Proof.Machine.execFenceVv sc s
  | .rel sc => Sys2Proof.Machine.execRel sc s
  | .acq sc => Sys2Proof.Machine.execAcq sc s
  | .ccopy b a d => Sys2Proof.Machine.execCcopy b a d s
  | .cwait b a d => Sys2Proof.Machine.execCwait b a d s
  | .ctest b a d => Sys2Proof.Machine.execCtest b a d s
  | .rayOpen b a d => Sys2Proof.Machine.execRayOpen b a d s
  | .rayClose a => Sys2Proof.Machine.execRayClose a s
  | .rayGrant b a => Sys2Proof.Machine.execRayGrant b a s
  | .vsend b a => Sys2Proof.Machine.execVsend b a s
  | .rayRecv a d => Sys2Proof.Machine.execRayRecv a d s
  | .vroute b a d => Sys2Proof.Machine.execVroute b a d s
  | .barInit b a d => Sys2Proof.Machine.execBarInit b a d s
  | .barArrive a => Sys2Proof.Machine.execBarArrive a s
  | .barWait a d => Sys2Proof.Machine.execBarWait a d s
  | .collAdd b a d => Sys2Proof.Machine.execCollAdd b a d s
  | .collMin b a d => Sys2Proof.Machine.execCollMin b a d s
  | .collMax b a d => Sys2Proof.Machine.execCollMax b a d s
  | .collOr b a d => Sys2Proof.Machine.execCollOr b a d s
  | .tsub a d => Sys2Proof.Machine.execTsub a d s
  | .tdone => Sys2Proof.Machine.execTdone s
  | .tyield => Sys2Proof.Machine.execTyield s
  | .twait b a d => Sys2Proof.Machine.execTwait b a d s
  | .tkill a d => Sys2Proof.Machine.execTkill a d s
  | .qseg a d => Sys2Proof.Machine.execQseg a d s
  | .qctx a d => Sys2Proof.Machine.execQctx a d s
  | .tlbdrop b a => Sys2Proof.Machine.execTlbdrop b a s
  | .cflush b a => Sys2Proof.Machine.execCflush b a s
  | .evfrz a => Sys2Proof.Machine.execEvfrz a s
  | .syHint h b a => Sys2Proof.Machine.execSyHint h b a s
  | .bfx e b a d => Sys2Proof.Machine.execBfx e b a d s
  | .bfxs e b a d => Sys2Proof.Machine.execBfxs e b a d s
  | .bfi e b a d => Sys2Proof.Machine.execBfi e b a d s
  | .lui u d => Sys2Proof.Machine.execLui u d s
  | .auipc u d => Sys2Proof.Machine.execAuipc u d s
  | .jal j d => Sys2Proof.Machine.execJal j d s
  | .jalr im a d => Sys2Proof.Machine.execJalr im a d s
  | .beq h b a l => Sys2Proof.Machine.execBeq h b a l s
  | .bne h b a l => Sys2Proof.Machine.execBne h b a l s
  | .blt h b a l => Sys2Proof.Machine.execBlt h b a l s
  | .bge h b a l => Sys2Proof.Machine.execBge h b a l s
  | .bltu h b a l => Sys2Proof.Machine.execBltu h b a l s
  | .bgeu h b a l => Sys2Proof.Machine.execBgeu h b a l s
  | .lb im a d => Sys2Proof.Machine.execLb im a d s
  | .lh im a d => Sys2Proof.Machine.execLh im a d s
  | .lw im a d => Sys2Proof.Machine.execLw im a d s
  | .ld im a d => Sys2Proof.Machine.execLd im a d s
  | .lbu im a d => Sys2Proof.Machine.execLbu im a d s
  | .lhu im a d => Sys2Proof.Machine.execLhu im a d s
  | .lwu im a d => Sys2Proof.Machine.execLwu im a d s
  | .sb h b a l => Sys2Proof.Machine.execSb h b a l s
  | .sh h b a l => Sys2Proof.Machine.execSh h b a l s
  | .sw h b a l => Sys2Proof.Machine.execSw h b a l s
  | .sd h b a l => Sys2Proof.Machine.execSd h b a l s
  | .addi im a d => Sys2Proof.Machine.execAddi im a d s
  | .slti im a d => Sys2Proof.Machine.execSlti im a d s
  | .sltiu im a d => Sys2Proof.Machine.execSltiu im a d s
  | .xori im a d => Sys2Proof.Machine.execXori im a d s
  | .ori im a d => Sys2Proof.Machine.execOri im a d s
  | .andi im a d => Sys2Proof.Machine.execAndi im a d s
  | .slli h a d => Sys2Proof.Machine.execSlli h a d s
  | .srli h a d => Sys2Proof.Machine.execSrli h a d s
  | .srai h a d => Sys2Proof.Machine.execSrai h a d s
  | .add b a d => Sys2Proof.Machine.execAdd b a d s
  | .sub b a d => Sys2Proof.Machine.execSub b a d s
  | .sll b a d => Sys2Proof.Machine.execSll b a d s
  | .slt b a d => Sys2Proof.Machine.execSlt b a d s
  | .sltu b a d => Sys2Proof.Machine.execSltu b a d s
  | .xor b a d => Sys2Proof.Machine.execXor b a d s
  | .srl b a d => Sys2Proof.Machine.execSrl b a d s
  | .sra b a d => Sys2Proof.Machine.execSra b a d s
  | .or b a d => Sys2Proof.Machine.execOr b a d s
  | .and b a d => Sys2Proof.Machine.execAnd b a d s
  | .mul b a d => Sys2Proof.Machine.execMul b a d s
  | .mulh b a d => Sys2Proof.Machine.execMulh b a d s
  | .mulhsu b a d => Sys2Proof.Machine.execMulhsu b a d s
  | .mulhu b a d => Sys2Proof.Machine.execMulhu b a d s
  | .div b a d => Sys2Proof.Machine.execDiv b a d s
  | .divu b a d => Sys2Proof.Machine.execDivu b a d s
  | .rem b a d => Sys2Proof.Machine.execRem b a d s
  | .remu b a d => Sys2Proof.Machine.execRemu b a d s
  | .addiw im a d => Sys2Proof.Machine.execAddiw im a d s
  | .slliw h a d => Sys2Proof.Machine.execSlliw h a d s
  | .srliw h a d => Sys2Proof.Machine.execSrliw h a d s
  | .sraiw h a d => Sys2Proof.Machine.execSraiw h a d s
  | .addw b a d => Sys2Proof.Machine.execAddw b a d s
  | .subw b a d => Sys2Proof.Machine.execSubw b a d s
  | .sllw b a d => Sys2Proof.Machine.execSllw b a d s
  | .srlw b a d => Sys2Proof.Machine.execSrlw b a d s
  | .sraw b a d => Sys2Proof.Machine.execSraw b a d s
  | .mulw b a d => Sys2Proof.Machine.execMulw b a d s
  | .divw b a d => Sys2Proof.Machine.execDivw b a d s
  | .divuw b a d => Sys2Proof.Machine.execDivuw b a d s
  | .remw b a d => Sys2Proof.Machine.execRemw b a d s
  | .remuw b a d => Sys2Proof.Machine.execRemuw b a d s
  | .fence im a d => Sys2Proof.Machine.execFence im a d s
  | .fenceI im a d => Sys2Proof.Machine.execFenceI im a d s
  | .lr q r a w d => Sys2Proof.Machine.execLr q r a w d s
  | .sc q r b a w d => Sys2Proof.Machine.execSc q r b a w d s
  | .amoswap q r b a w d => Sys2Proof.Machine.execAmoswap q r b a w d s
  | .amoadd q r b a w d => Sys2Proof.Machine.execAmoadd q r b a w d s
  | .amoxor q r b a w d => Sys2Proof.Machine.execAmoxor q r b a w d s
  | .amoand q r b a w d => Sys2Proof.Machine.execAmoand q r b a w d s
  | .amoor q r b a w d => Sys2Proof.Machine.execAmoor q r b a w d s
  | .amomin q r b a w d => Sys2Proof.Machine.execAmomin q r b a w d s
  | .amomax q r b a w d => Sys2Proof.Machine.execAmomax q r b a w d s
  | .amominu q r b a w d => Sys2Proof.Machine.execAmominu q r b a w d s
  | .amomaxu q r b a w d => Sys2Proof.Machine.execAmomaxu q r b a w d s
  | .ecall => Sys2Proof.Machine.execEcall s
  | .ebreak => Sys2Proof.Machine.execEbreak s
  | .sret => Sys2Proof.Machine.execSret s
  | .wfi => Sys2Proof.Machine.execWfi s
  | .csrrw c a d => Sys2Proof.Machine.execCsrrw c a d s
  | .csrrs c a d => Sys2Proof.Machine.execCsrrs c a d s
  | .csrrc c a d => Sys2Proof.Machine.execCsrrc c a d s
  | .csrrwi c u d => Sys2Proof.Machine.execCsrrwi c u d s
  | .csrrsi c u d => Sys2Proof.Machine.execCsrrsi c u d s
  | .csrrci c u d => Sys2Proof.Machine.execCsrrci c u d s

end Sys2Proof.Machine
end

