-- ==== Sys2Proof/Machine/Run.lean ====
section
/-! DEFINITION. Running what stands at a context's pc: a fetched word through the decoder and `exec`, the retire stub, and
the entry of the core runtime. `runWord` is the definition; `runWordNow` is the same function without the terms of `Instr` between,
which the evaluator runs in its place. -/

namespace Sys2Proof.Machine

/-- The outcome of what the decoder made of a word: a rejected word is an illegal encoding. -/
noncomputable def outcome (w : Word32) (s : State) (r : Except Reject Instr) : Result :=
  match r with
  | .ok i => exec i s
  | .error _ => exec (.illegalEncoding w) s

/-- A fetched word runs. -/
noncomputable def runWord (w : Word32) (s : State) : Result := outcome w s (decode w)

/-- VX words (R236 to R239). -/
def runVx (w : Word32) (f5 : BitVec 5) (c m : BitVec 1) (b a : BitVec 5) (f3 : BitVec 3) (d : BitVec 5) (s : State) : Result :=
  match f5 with
  | 0#5 =>
      if f3 = 0#3 then execVaddVv c m b a d s else
      if f3 = 1#3 then execVaddVx c m b a d s else
      if f3 = 2#3 then execVaddVi c m b a d s else
      if c = 0#1 ∧ f3 = 4#3 then execVaddVs m b a d s else
      if f3 = 7#3 then execVaddRay c m b a d s else
      execIllegalEncoding w s
  | 1#5 =>
      if f3 = 0#3 then execVsubVv c m b a d s else
      if f3 = 1#3 then execVsubVx c m b a d s else
      if f3 = 2#3 then execVsubVi c m b a d s else
      if c = 0#1 ∧ f3 = 4#3 then execVsubVs m b a d s else
      if f3 = 7#3 then execVsubRay c m b a d s else
      execIllegalEncoding w s
  | 2#5 =>
      if f3 = 1#3 then execVrsubVx c m b a d s else
      if f3 = 2#3 then execVrsubVi c m b a d s else
      if c = 0#1 ∧ f3 = 4#3 then execVrsubVs m b a d s else
      if f3 = 7#3 then execVrsubRay c m b a d s else
      execIllegalEncoding w s
  | 3#5 =>
      if f3 = 0#3 then execVmulVv c m b a d s else
      if f3 = 1#3 then execVmulVx c m b a d s else
      if c = 0#1 ∧ f3 = 4#3 then execVmulVs m b a d s else
      if f3 = 7#3 then execVmulRay c m b a d s else
      execIllegalEncoding w s
  | 4#5 =>
      if f3 = 0#3 then execVmulhVv c m b a d s else
      if f3 = 1#3 then execVmulhVx c m b a d s else
      if c = 0#1 ∧ f3 = 4#3 then execVmulhVs m b a d s else
      if f3 = 7#3 then execVmulhRay c m b a d s else
      execIllegalEncoding w s
  | 5#5 =>
      if f3 = 0#3 then execVdivVv c m b a d s else
      if f3 = 1#3 then execVdivVx c m b a d s else
      if c = 0#1 ∧ f3 = 4#3 then execVdivVs m b a d s else
      if f3 = 7#3 then execVdivRay c m b a d s else
      execIllegalEncoding w s
  | 6#5 =>
      if f3 = 0#3 then execVremVv c m b a d s else
      if f3 = 1#3 then execVremVx c m b a d s else
      if c = 0#1 ∧ f3 = 4#3 then execVremVs m b a d s else
      if f3 = 7#3 then execVremRay c m b a d s else
      execIllegalEncoding w s
  | 7#5 =>
      if f3 = 0#3 then execVminVv c m b a d s else
      if f3 = 1#3 then execVminVx c m b a d s else
      if f3 = 2#3 then execVminVi c m b a d s else
      if c = 0#1 ∧ f3 = 4#3 then execVminVs m b a d s else
      if f3 = 7#3 then execVminRay c m b a d s else
      execIllegalEncoding w s
  | 8#5 =>
      if f3 = 0#3 then execVmaxVv c m b a d s else
      if f3 = 1#3 then execVmaxVx c m b a d s else
      if f3 = 2#3 then execVmaxVi c m b a d s else
      if c = 0#1 ∧ f3 = 4#3 then execVmaxVs m b a d s else
      if f3 = 7#3 then execVmaxRay c m b a d s else
      execIllegalEncoding w s
  | 9#5 =>
      if f3 = 0#3 then execVandVv c m b a d s else
      if f3 = 1#3 then execVandVx c m b a d s else
      if f3 = 2#3 then execVandVi c m b a d s else
      if c = 0#1 ∧ f3 = 4#3 then execVandVs m b a d s else
      if f3 = 7#3 then execVandRay c m b a d s else
      execIllegalEncoding w s
  | 10#5 =>
      if f3 = 0#3 then execVorVv c m b a d s else
      if f3 = 1#3 then execVorVx c m b a d s else
      if f3 = 2#3 then execVorVi c m b a d s else
      if c = 0#1 ∧ f3 = 4#3 then execVorVs m b a d s else
      if f3 = 7#3 then execVorRay c m b a d s else
      execIllegalEncoding w s
  | 11#5 =>
      if f3 = 0#3 then execVxorVv c m b a d s else
      if f3 = 1#3 then execVxorVx c m b a d s else
      if f3 = 2#3 then execVxorVi c m b a d s else
      if c = 0#1 ∧ f3 = 4#3 then execVxorVs m b a d s else
      if f3 = 7#3 then execVxorRay c m b a d s else
      execIllegalEncoding w s
  | 12#5 =>
      if f3 = 0#3 then execVsllVv c m b a d s else
      if f3 = 1#3 then execVsllVx c m b a d s else
      if f3 = 2#3 then execVsllVi c m b a d s else
      if c = 0#1 ∧ f3 = 4#3 then execVsllVs m b a d s else
      if f3 = 7#3 then execVsllRay c m b a d s else
      execIllegalEncoding w s
  | 13#5 =>
      if f3 = 0#3 then execVsrlVv c m b a d s else
      if f3 = 1#3 then execVsrlVx c m b a d s else
      if f3 = 2#3 then execVsrlVi c m b a d s else
      if c = 0#1 ∧ f3 = 4#3 then execVsrlVs m b a d s else
      if f3 = 7#3 then execVsrlRay c m b a d s else
      execIllegalEncoding w s
  | 14#5 =>
      if f3 = 0#3 then execVsraVv c m b a d s else
      if f3 = 1#3 then execVsraVx c m b a d s else
      if f3 = 2#3 then execVsraVi c m b a d s else
      if c = 0#1 ∧ f3 = 4#3 then execVsraVs m b a d s else
      if f3 = 7#3 then execVsraRay c m b a d s else
      execIllegalEncoding w s
  | 15#5 =>
      if f3 = 0#3 then execVfmaVv c m b a d s else
      if f3 = 1#3 then execVfmaVx c m b a d s else
      if c = 0#1 ∧ f3 = 4#3 then execVfmaVs m b a d s else
      if f3 = 7#3 then execVfmaRay c m b a d s else
      execIllegalEncoding w s
  | 16#5 =>
      if f3 = 0#3 then execVfmsVv c m b a d s else
      if f3 = 1#3 then execVfmsVx c m b a d s else
      if c = 0#1 ∧ f3 = 4#3 then execVfmsVs m b a d s else
      if f3 = 7#3 then execVfmsRay c m b a d s else
      execIllegalEncoding w s
  | 17#5 =>
      if f3 = 0#3 then execVfnmaVv c m b a d s else
      if f3 = 1#3 then execVfnmaVx c m b a d s else
      if c = 0#1 ∧ f3 = 4#3 then execVfnmaVs m b a d s else
      if f3 = 7#3 then execVfnmaRay c m b a d s else
      execIllegalEncoding w s
  | 18#5 =>
      if f3 = 0#3 then execVsaddVv c m b a d s else
      if f3 = 1#3 then execVsaddVx c m b a d s else
      if f3 = 2#3 then execVsaddVi c m b a d s else
      if c = 0#1 ∧ f3 = 4#3 then execVsaddVs m b a d s else
      if f3 = 7#3 then execVsaddRay c m b a d s else
      execIllegalEncoding w s
  | 19#5 =>
      if f3 = 0#3 then execVssubVv c m b a d s else
      if f3 = 1#3 then execVssubVx c m b a d s else
      if f3 = 2#3 then execVssubVi c m b a d s else
      if c = 0#1 ∧ f3 = 4#3 then execVssubVs m b a d s else
      if f3 = 7#3 then execVssubRay c m b a d s else
      execIllegalEncoding w s
  | 20#5 =>
      if f3 = 3#3 ∧ d.extractLsb' 3 2 = 0#2 then execVceq c m b a (d.extractLsb' 0 3) s else
      if f3 = 3#3 ∧ d.extractLsb' 3 2 = 1#2 then execVcne c m b a (d.extractLsb' 0 3) s else
      if f3 = 3#3 ∧ d.extractLsb' 3 2 = 2#2 then execVcequ c m b a (d.extractLsb' 0 3) s else
      if f3 = 3#3 ∧ d.extractLsb' 3 2 = 3#2 then execVcneu c m b a (d.extractLsb' 0 3) s else
      execIllegalEncoding w s
  | 21#5 =>
      if f3 = 3#3 ∧ d.extractLsb' 3 2 = 0#2 then execVclt c m b a (d.extractLsb' 0 3) s else
      if f3 = 3#3 ∧ d.extractLsb' 3 2 = 1#2 then execVcnlt c m b a (d.extractLsb' 0 3) s else
      if f3 = 3#3 ∧ d.extractLsb' 3 2 = 2#2 then execVcltu c m b a (d.extractLsb' 0 3) s else
      if f3 = 3#3 ∧ d.extractLsb' 3 2 = 3#2 then execVcnltu c m b a (d.extractLsb' 0 3) s else
      execIllegalEncoding w s
  | 22#5 =>
      if f3 = 3#3 ∧ d.extractLsb' 3 2 = 0#2 then execVcle c m b a (d.extractLsb' 0 3) s else
      if f3 = 3#3 ∧ d.extractLsb' 3 2 = 1#2 then execVcnle c m b a (d.extractLsb' 0 3) s else
      if f3 = 3#3 ∧ d.extractLsb' 3 2 = 2#2 then execVcleu c m b a (d.extractLsb' 0 3) s else
      if f3 = 3#3 ∧ d.extractLsb' 3 2 = 3#2 then execVcnleu c m b a (d.extractLsb' 0 3) s else
      execIllegalEncoding w s
  | 23#5 =>
      if f3 = 3#3 ∧ d.extractLsb' 3 2 = 0#2 then execVcun c m b a (d.extractLsb' 0 3) s else
      if f3 = 3#3 ∧ d.extractLsb' 3 2 = 1#2 then execVcord c m b a (d.extractLsb' 0 3) s else
      if b = 0#5 ∧ f3 = 3#3 ∧ d.extractLsb' 3 2 = 2#2 then execVcsn c m a (d.extractLsb' 0 3) s else
      if b = 0#5 ∧ f3 = 3#3 ∧ d.extractLsb' 3 2 = 3#2 then execVcnsn c m a (d.extractLsb' 0 3) s else
      execIllegalEncoding w s
  | 24#5 =>
      if m = 1#1 ∧ f3 = 0#3 then execVsel c b a d s else
      if b = 0#5 ∧ f3 = 1#3 then execVmvVx c m a d s else
      if b = 0#5 ∧ f3 = 2#3 then execVmvVi c m a d s else
      if c = 0#1 ∧ m = 1#1 ∧ b = 0#5 ∧ f3 = 4#3 then execVmvX a d s else
      if b = 0#5 ∧ f3 = 6#3 then execVmvVv c m a d s else
      execIllegalEncoding w s
  | 25#5 =>
      if b.extractLsb' 4 1 = 0#1 ∧ f3 = 5#3 then (if (1 ≤ (b.extractLsb' 0 4).toNat && (b.extractLsb' 0 4).toNat ≤ 14 && ((b.extractLsb' 0 4) != 14 || even d) : Bool) = true then execVcvt c m (b.extractLsb' 0 4) a d s else execIllegalEncoding w s) else
      if b.extractLsb' 4 1 = 1#1 ∧ f3 = 5#3 then (if (1 ≤ (b.extractLsb' 0 4).toNat && (b.extractLsb' 0 4).toNat ≤ 14 && ((b.extractLsb' 0 4) != 14 || even d) : Bool) = true then execVcvts c m (b.extractLsb' 0 4) a d s else execIllegalEncoding w s) else
      execIllegalEncoding w s
  | 26#5 =>
      if b = 0#5 ∧ f3 = 6#3 then execVneg c m a d s else
      if b = 1#5 ∧ f3 = 6#3 then execVabs c m a d s else
      if b = 2#5 ∧ f3 = 6#3 then execVsqrt c m a d s else
      if b = 3#5 ∧ f3 = 6#3 then execVrcpe c m a d s else
      if b = 4#5 ∧ f3 = 6#3 then execVrsqe c m a d s else
      if b = 5#5 ∧ f3 = 6#3 then execVexp2 c m a d s else
      if b = 6#5 ∧ f3 = 6#3 then execVlog2 c m a d s else
      if b = 7#5 ∧ f3 = 6#3 then execVclz c m a d s else
      if b = 8#5 ∧ f3 = 6#3 then execVpopc c m a d s else
      if b = 9#5 ∧ f3 = 6#3 then execVbrev c m a d s else
      if b = 10#5 ∧ f3 = 6#3 then execVclass c m a d s else
      execIllegalEncoding w s
  | 27#5 =>
      if c = 0#1 ∧ f3 = 0#3 then execVredsum m b a d s else
      if c = 0#1 ∧ f3 = 1#3 then execVredosum m b a d s else
      if c = 0#1 ∧ f3 = 2#3 then execVredmin m b a d s else
      if c = 0#1 ∧ f3 = 3#3 then execVredmax m b a d s else
      if c = 0#1 ∧ f3 = 4#3 then execVredand m b a d s else
      if c = 0#1 ∧ f3 = 5#3 then execVredor m b a d s else
      if c = 0#1 ∧ f3 = 6#3 then execVredxor m b a d s else
      if c = 0#1 ∧ a = 0#5 ∧ f3 = 7#3 then execVargmax m b d s else
      execIllegalEncoding w s
  | 28#5 =>
      if c = 0#1 ∧ m = 0#1 ∧ a = 0#5 ∧ f3 = 0#3 then execVcompress b d s else
      if c = 0#1 ∧ m = 0#1 ∧ a = 0#5 ∧ f3 = 1#3 then execVexpand b d s else
      if c = 0#1 ∧ b = 0#5 ∧ a.extractLsb' 3 2 = 0#2 ∧ f3 = 2#3 then execVpcnt m (a.extractLsb' 0 3) d s else
      if c = 0#1 ∧ b = 0#5 ∧ f3 = 3#3 then execVconfl m a d s else
      if c = 0#1 ∧ f3 = 4#3 then execVslideup m b a d s else
      if c = 0#1 ∧ f3 = 5#3 then execVslidedn m b a d s else
      if c = 0#1 ∧ f3 = 6#3 then execVperm m b a d s else
      if c = 0#1 ∧ b = 0#5 ∧ f3 = 7#3 then execViota m a d s else
      execIllegalEncoding w s
  | 29#5 =>
      if c = 0#1 ∧ m = 1#1 ∧ a = 0#5 ∧ f3 = 0#3 then execVsscanAdd b d s else
      if c = 0#1 ∧ m = 1#1 ∧ a = 0#5 ∧ f3 = 1#3 then execVsscanMin b d s else
      if c = 0#1 ∧ m = 1#1 ∧ a = 0#5 ∧ f3 = 2#3 then execVsscanMax b d s else
      if c = 0#1 ∧ m = 1#1 ∧ a = 0#5 ∧ f3 = 3#3 then execVsscanOr b d s else
      execIllegalEncoding w s
  | 30#5 =>
      if c = 0#1 ∧ f3 = 0#3 then execVtopk m b a d s else
      if c = 0#1 ∧ f3 = 1#3 then execVinter m b a d s else
      if c = 0#1 ∧ b = 0#5 ∧ f3 = 2#3 then execVsortk m a d s else
      execIllegalEncoding w s
  | 31#5 =>
      if m = 1#1 ∧ b.extractLsb' 3 2 = 0#2 ∧ a.extractLsb' 3 2 = 0#2 ∧ f3 = 0#3 ∧ d.extractLsb' 3 2 = 0#2 then execPand c (b.extractLsb' 0 3) (a.extractLsb' 0 3) (d.extractLsb' 0 3) s else
      if m = 1#1 ∧ b.extractLsb' 3 2 = 0#2 ∧ a.extractLsb' 3 2 = 0#2 ∧ f3 = 1#3 ∧ d.extractLsb' 3 2 = 0#2 then execPor c (b.extractLsb' 0 3) (a.extractLsb' 0 3) (d.extractLsb' 0 3) s else
      if m = 1#1 ∧ b.extractLsb' 3 2 = 0#2 ∧ a.extractLsb' 3 2 = 0#2 ∧ f3 = 2#3 ∧ d.extractLsb' 3 2 = 0#2 then execPxor c (b.extractLsb' 0 3) (a.extractLsb' 0 3) (d.extractLsb' 0 3) s else
      if m = 1#1 ∧ b = 0#5 ∧ a.extractLsb' 3 2 = 0#2 ∧ f3 = 3#3 ∧ d.extractLsb' 3 2 = 0#2 then execPnot c (a.extractLsb' 0 3) (d.extractLsb' 0 3) s else
      if m = 1#1 ∧ b = 0#5 ∧ a.extractLsb' 3 2 = 0#2 ∧ f3 = 4#3 ∧ d.extractLsb' 3 2 = 0#2 then execPmov c (a.extractLsb' 0 3) (d.extractLsb' 0 3) s else
      if m = 1#1 ∧ b = 0#5 ∧ a.extractLsb' 3 2 = 0#2 ∧ f3 = 5#3 then execPcnt c (a.extractLsb' 0 3) d s else
      if m = 1#1 ∧ b = 0#5 ∧ a.extractLsb' 3 2 = 0#2 ∧ f3 = 6#3 then execPfirst c (a.extractLsb' 0 3) d s else
      execIllegalEncoding w s
  | _ => execIllegalEncoding w s

/-- VM words (R240, R241). -/
def runVm (w : Word32) (f5 : BitVec 5) (c m : BitVec 1) (b a : BitVec 5) (f3 : BitVec 3) (d : BitVec 5) (s : State) : Result :=
  match f5 with
  | 0#5 =>
      if b = 0#5 ∧ f3 = 0#3 then execVldUnit c m a d s else
      if f3 = 1#3 then execVldStrided c m b a d s else
      if c = 0#1 ∧ f3 = 2#3 then execVldIndexed m b a d s else
      execIllegalEncoding w s
  | 1#5 =>
      if b = 0#5 ∧ f3 = 0#3 then execVldffUnit c m a d s else
      if f3 = 1#3 then execVldffStrided c m b a d s else
      if c = 0#1 ∧ f3 = 2#3 then execVldffIndexed m b a d s else
      execIllegalEncoding w s
  | 2#5 =>
      if b = 0#5 ∧ f3 = 0#3 then execVstUnit c m a d s else
      if f3 = 1#3 then execVstStrided c m b a d s else
      if c = 0#1 ∧ f3 = 2#3 then execVstIndexed m b a d s else
      execIllegalEncoding w s
  | 3#5 =>
      if f3 = 0#3 then execVstn c m b a d s else
      execIllegalEncoding w s
  | 4#5 =>
      if b = 0#5 ∧ f3 = 0#3 then execVrsAddUnit c m a d s else
      if f3 = 2#3 then execVrsAddIndexed c m b a d s else
      execIllegalEncoding w s
  | 5#5 =>
      if b = 0#5 ∧ f3 = 0#3 then execVrsMinUnit c m a d s else
      if f3 = 2#3 then execVrsMinIndexed c m b a d s else
      execIllegalEncoding w s
  | 6#5 =>
      if b = 0#5 ∧ f3 = 0#3 then execVrsMaxUnit c m a d s else
      if f3 = 2#3 then execVrsMaxIndexed c m b a d s else
      execIllegalEncoding w s
  | 7#5 =>
      if b = 0#5 ∧ f3 = 0#3 then execVrsOrUnit c m a d s else
      if f3 = 2#3 then execVrsOrIndexed c m b a d s else
      execIllegalEncoding w s
  | 8#5 =>
      if c = 0#1 ∧ m = 1#1 ∧ b = 0#5 ∧ f3 = 0#3 then execVspill a d s else
      execIllegalEncoding w s
  | 9#5 =>
      if c = 0#1 ∧ m = 1#1 ∧ b = 0#5 ∧ f3 = 0#3 then execVfill a d s else
      execIllegalEncoding w s
  | 10#5 =>
      if c = 0#1 ∧ m = 1#1 ∧ f3 = 0#3 then execVprep b a d s else
      execIllegalEncoding w s
  | 11#5 =>
      if c = 0#1 ∧ m = 1#1 ∧ f3 = 0#3 then execVtrimh b a d s else
      execIllegalEncoding w s
  | 12#5 =>
      if c = 0#1 ∧ m = 1#1 ∧ f3 = 0#3 then execVtrimt b a d s else
      execIllegalEncoding w s
  | 13#5 =>
      if c = 0#1 ∧ m = 1#1 ∧ f3 = 0#3 then (if (d != a : Bool) = true then execVsplit b a d s else execIllegalEncoding w s) else
      execIllegalEncoding w s
  | 14#5 =>
      if c = 0#1 ∧ m = 1#1 ∧ f3 = 0#3 then execVjoin b a d s else
      execIllegalEncoding w s
  | 15#5 =>
      if c = 0#1 ∧ m = 1#1 ∧ b = 0#5 ∧ f3 = 0#3 then execVshare a d s else
      execIllegalEncoding w s
  | 16#5 =>
      if c = 0#1 ∧ m = 1#1 ∧ f3 = 0#3 then (if (1 ≤ b.toNat && b.toNat ≤ 14 : Bool) = true then execVretype b a d s else execIllegalEncoding w s) else
      execIllegalEncoding w s
  | 17#5 =>
      if c = 0#1 ∧ m = 1#1 ∧ b = 0#5 ∧ f3 = 0#3 then execVlen a d s else
      execIllegalEncoding w s
  | 18#5 =>
      if c = 0#1 ∧ m = 1#1 ∧ b = 0#5 ∧ a = 0#5 ∧ f3 = 0#3 then execVfree d s else
      execIllegalEncoding w s
  | 19#5 =>
      if c = 0#1 ∧ m = 1#1 ∧ b = 0#5 ∧ f3 = 0#3 then execVnorm a d s else
      execIllegalEncoding w s
  | 20#5 =>
      if c = 0#1 ∧ m = 1#1 ∧ f3 = 0#3 then execFclaim b a d s else
      execIllegalEncoding w s
  | 21#5 =>
      if c = 0#1 ∧ m = 1#1 ∧ b = 0#5 ∧ a = 0#5 ∧ f3 = 0#3 ∧ d = 0#5 then execFrel s else
      execIllegalEncoding w s
  | 22#5 =>
      if c = 0#1 ∧ f3 = 0#3 ∧ d.extractLsb' 3 2 = 0#2 ∧ d.extractLsb' 0 1 = 0#1 then execFins m b a (d.extractLsb' 1 2) s else
      execIllegalEncoding w s
  | 23#5 =>
      if c = 0#1 ∧ f3.extractLsb' 2 1 = 0#1 then execFprobe m b a (f3.extractLsb' 0 2) d s else
      execIllegalEncoding w s
  | 24#5 =>
      if c = 0#1 ∧ b = 0#5 ∧ f3 = 0#3 ∧ d.extractLsb' 3 2 = 0#2 ∧ d.extractLsb' 0 1 = 0#1 then execFdel m a (d.extractLsb' 1 2) s else
      execIllegalEncoding w s
  | 25#5 =>
      if c = 0#1 ∧ b.extractLsb' 3 2 = 0#2 ∧ b.extractLsb' 0 1 = 0#1 ∧ f3 = 0#3 then execFaccAdd m (b.extractLsb' 1 2) a d s else
      if c = 0#1 ∧ b.extractLsb' 3 2 = 0#2 ∧ b.extractLsb' 0 1 = 0#1 ∧ f3 = 1#3 then execFaccMin m (b.extractLsb' 1 2) a d s else
      if c = 0#1 ∧ b.extractLsb' 3 2 = 0#2 ∧ b.extractLsb' 0 1 = 0#1 ∧ f3 = 2#3 then execFaccMax m (b.extractLsb' 1 2) a d s else
      if c = 0#1 ∧ b.extractLsb' 3 2 = 0#2 ∧ b.extractLsb' 0 1 = 0#1 ∧ f3 = 3#3 then execFaccOr m (b.extractLsb' 1 2) a d s else
      if c = 0#1 ∧ b.extractLsb' 3 2 = 0#2 ∧ b.extractLsb' 0 1 = 0#1 ∧ f3 = 4#3 then execFaccCount m (b.extractLsb' 1 2) a d s else
      execIllegalEncoding w s
  | 26#5 =>
      if c = 0#1 ∧ m = 1#1 ∧ a = 0#5 ∧ f3 = 0#3 then (if (d != b : Bool) = true then execFdrain b d s else execIllegalEncoding w s) else
      execIllegalEncoding w s
  | _ => execIllegalEncoding w s

/-- MT words (R242). -/
def runMt (w : Word32) (f4 : BitVec 4) (z : BitVec 3) (b a : BitVec 5) (f3 : BitVec 3) (d : BitVec 5) (s : State) : Result :=
  match f4 with
  | 0#4 =>
      if z = 0#3 ∧ d.extractLsb' 3 2 = 0#2 then (if (f3 != 7 : Bool) = true then execMset b a f3 (d.extractLsb' 0 3) s else execIllegalEncoding w s) else
      execIllegalEncoding w s
  | 1#4 =>
      if z = 0#3 ∧ f3 = 0#3 ∧ d.extractLsb' 3 2 = 0#2 then execMld b a (d.extractLsb' 0 3) s else
      execIllegalEncoding w s
  | 2#4 =>
      if z = 0#3 ∧ f3 = 0#3 ∧ d.extractLsb' 3 2 = 0#2 then execMldff b a (d.extractLsb' 0 3) s else
      execIllegalEncoding w s
  | 3#4 =>
      if z = 0#3 ∧ f3 = 0#3 ∧ d.extractLsb' 3 2 = 0#2 then execMst b a (d.extractLsb' 0 3) s else
      execIllegalEncoding w s
  | 4#4 =>
      if z = 0#3 ∧ b = 0#5 ∧ a = 0#5 ∧ f3 = 0#3 then (if (d.toNat ≤ 10 : Bool) = true then execMzero d s else execIllegalEncoding w s) else
      execIllegalEncoding w s
  | 5#4 =>
      if b.extractLsb' 3 2 = 0#2 ∧ a.extractLsb' 3 2 = 0#2 ∧ d = 0#5 then (if (z.toNat ≤ 2 && f3.toNat ≤ 5 && (z != 2 || ((f3 == 0 || f3 == 1 || f3 == 5) && evenTile (b.extractLsb' 0 3))) : Bool) = true then execMop z (b.extractLsb' 0 3) (a.extractLsb' 0 3) f3 s else execIllegalEncoding w s) else
      execIllegalEncoding w s
  | 6#4 =>
      if f3 = 0#3 ∧ d = 0#5 then (if (z.toNat ≤ 1 : Bool) = true then execMsca z b a s else execIllegalEncoding w s) else
      execIllegalEncoding w s
  | 7#4 =>
      if z = 0#3 ∧ d.extractLsb' 3 2 = 0#2 then (if (f3 != 7 && (f3 != 4 || (even a && evenTile (d.extractLsb' 0 3))) : Bool) = true then execMrowIn b a f3 (d.extractLsb' 0 3) s else execIllegalEncoding w s) else
      if z = 1#3 ∧ a.extractLsb' 3 2 = 0#2 then (if (f3 != 7 && (f3 != 4 || (evenTile (a.extractLsb' 0 3) && even d)) : Bool) = true then execMrowOut b (a.extractLsb' 0 3) f3 d s else execIllegalEncoding w s) else
      execIllegalEncoding w s
  | 8#4 =>
      if z.extractLsb' 1 2 = 0#2 then (if (f3.toNat ≤ 3 || f3 == 6 : Bool) = true then execMaccOut (z.extractLsb' 0 1) b a f3 d s else execIllegalEncoding w s) else
      execIllegalEncoding w s
  | 9#4 =>
      if z = 0#3 ∧ b = 0#5 ∧ f3 = 0#3 then execMgang a d s else
      execIllegalEncoding w s
  | 10#4 =>
      if z = 0#3 ∧ a.extractLsb' 3 2 = 0#2 ∧ f3 = 0#3 ∧ d = 0#5 then execMbcast b (a.extractLsb' 0 3) s else
      execIllegalEncoding w s
  | _ => execIllegalEncoding w s

/-- SY words (R243, R244, R246). -/
def runSy (w : Word32) (f7 : BitVec 7) (b a : BitVec 5) (f3 : BitVec 3) (d : BitVec 5) (s : State) : Result :=
  match f3 with
  | 0#3 =>
      if a.extractLsb' 4 1 = 0#1 then (if (d != 0 && !(pointerOf (a.extractLsb' 0 4) d) : Bool) = true then execVsmine (f7 ++ b : BitVec 12) (a.extractLsb' 0 4) d s else execIllegalEncoding w s) else
      execIllegalEncoding w s
  | 1#3 =>
      if f7 = 0#7 then (if (1 ≤ b.toNat && b.toNat ≤ 14 : Bool) = true then execVsetl b a d s else execIllegalEncoding w s) else
      if f7 = 1#7 ∧ b = 0#5 then execVcollapse a d s else
      if f7 = 2#7 ∧ b.extractLsb' 2 3 = 0#3 ∧ a = 0#5 ∧ d = 0#5 then execFenceSv (b.extractLsb' 0 2) s else
      if f7 = 3#7 ∧ b.extractLsb' 2 3 = 0#3 ∧ a = 0#5 ∧ d = 0#5 then execFenceVs (b.extractLsb' 0 2) s else
      if f7 = 4#7 ∧ b.extractLsb' 2 3 = 0#3 ∧ a = 0#5 ∧ d = 0#5 then execFenceVv (b.extractLsb' 0 2) s else
      if f7 = 5#7 ∧ b.extractLsb' 2 3 = 0#3 ∧ a = 0#5 ∧ d = 0#5 then execRel (b.extractLsb' 0 2) s else
      if f7 = 6#7 ∧ b.extractLsb' 2 3 = 0#3 ∧ a = 0#5 ∧ d = 0#5 then execAcq (b.extractLsb' 0 2) s else
      execIllegalEncoding w s
  | 2#3 =>
      if f7 = 0#7 then execCcopy b a d s else
      if f7 = 1#7 then execCwait b a d s else
      if f7 = 2#7 then execCtest b a d s else
      execIllegalEncoding w s
  | 3#3 =>
      if f7 = 0#7 then execRayOpen b a d s else
      if f7 = 1#7 ∧ b = 0#5 ∧ d = 0#5 then execRayClose a s else
      if f7 = 2#7 ∧ d = 0#5 then execRayGrant b a s else
      if f7 = 3#7 ∧ d = 0#5 then execVsend b a s else
      if f7 = 4#7 ∧ b = 0#5 then execRayRecv a d s else
      if f7 = 5#7 then (if (b.toNat ≤ 29 : Bool) = true then execVroute b a d s else execIllegalEncoding w s) else
      execIllegalEncoding w s
  | 4#3 =>
      if f7 = 0#7 then execBarInit b a d s else
      if f7 = 1#7 ∧ b = 0#5 ∧ d = 0#5 then execBarArrive a s else
      if f7 = 2#7 ∧ b = 0#5 then execBarWait a d s else
      if f7 = 4#7 then execCollAdd b a d s else
      if f7 = 5#7 then execCollMin b a d s else
      if f7 = 6#7 then execCollMax b a d s else
      if f7 = 7#7 then execCollOr b a d s else
      execIllegalEncoding w s
  | 5#3 =>
      if f7 = 0#7 ∧ b = 0#5 then execTsub a d s else
      if f7 = 1#7 ∧ b = 0#5 ∧ a = 0#5 ∧ d = 0#5 then execTdone s else
      if f7 = 2#7 ∧ b = 0#5 ∧ a = 0#5 ∧ d = 0#5 then execTyield s else
      if f7 = 3#7 then execTwait b a d s else
      if f7 = 4#7 ∧ b = 0#5 then execTkill a d s else
      execIllegalEncoding w s
  | 6#3 =>
      if f7 = 0#7 ∧ b = 0#5 then execQseg a d s else
      if f7 = 1#7 ∧ b = 0#5 then execQctx a d s else
      if f7 = 2#7 ∧ d = 0#5 then execTlbdrop b a s else
      if f7 = 3#7 ∧ d = 0#5 then execCflush b a s else
      if f7 = 4#7 ∧ b = 0#5 ∧ d = 0#5 then execEvfrz a s else
      if f7.extractLsb' 6 1 = 1#1 ∧ d = 0#5 then execSyHint (f7.extractLsb' 0 6) b a s else
      execIllegalEncoding w s
  | 7#3 =>
      if f7.extractLsb' 0 2 = 0#2 then execBfx (f7.extractLsb' 2 5) b a d s else
      if f7.extractLsb' 0 2 = 1#2 then execBfxs (f7.extractLsb' 2 5) b a d s else
      if f7.extractLsb' 0 2 = 2#2 then execBfi (f7.extractLsb' 2 5) b a d s else
      execIllegalEncoding w s

/-- Atomics (R245, R264, R265). -/
def runAmo (w : Word32) (f5 : BitVec 5) (c m : BitVec 1) (b a : BitVec 5) (f3 : BitVec 3) (d : BitVec 5) (s : State) : Result :=
  match f5 with
  | 0#5 =>
      if f3.extractLsb' 1 2 = 1#2 then execAmoadd c m b a (f3.extractLsb' 0 1) d s else
      execIllegalEncoding w s
  | 1#5 =>
      if f3.extractLsb' 1 2 = 1#2 then execAmoswap c m b a (f3.extractLsb' 0 1) d s else
      execIllegalEncoding w s
  | 2#5 =>
      if b = 0#5 ∧ f3.extractLsb' 1 2 = 1#2 then execLr c m a (f3.extractLsb' 0 1) d s else
      execIllegalEncoding w s
  | 3#5 =>
      if f3.extractLsb' 1 2 = 1#2 then execSc c m b a (f3.extractLsb' 0 1) d s else
      execIllegalEncoding w s
  | 4#5 =>
      if f3.extractLsb' 1 2 = 1#2 then execAmoxor c m b a (f3.extractLsb' 0 1) d s else
      execIllegalEncoding w s
  | 8#5 =>
      if f3.extractLsb' 1 2 = 1#2 then execAmoor c m b a (f3.extractLsb' 0 1) d s else
      execIllegalEncoding w s
  | 12#5 =>
      if f3.extractLsb' 1 2 = 1#2 then execAmoand c m b a (f3.extractLsb' 0 1) d s else
      execIllegalEncoding w s
  | 16#5 =>
      if f3.extractLsb' 1 2 = 1#2 then execAmomin c m b a (f3.extractLsb' 0 1) d s else
      execIllegalEncoding w s
  | 20#5 =>
      if f3.extractLsb' 1 2 = 1#2 then execAmomax c m b a (f3.extractLsb' 0 1) d s else
      execIllegalEncoding w s
  | 24#5 =>
      if f3.extractLsb' 1 2 = 1#2 then execAmominu c m b a (f3.extractLsb' 0 1) d s else
      execIllegalEncoding w s
  | 28#5 =>
      if f3.extractLsb' 1 2 = 1#2 then execAmomaxu c m b a (f3.extractLsb' 0 1) d s else
      execIllegalEncoding w s
  | _ => execIllegalEncoding w s

/-- `lui`. -/
def runLui (_w : Word32) (f7 : BitVec 7) (b a : BitVec 5) (f3 : BitVec 3) (d : BitVec 5) (s : State) : Result :=
  execLui (f7 ++ b ++ a ++ f3 : BitVec 20) d s

/-- `auipc`. -/
def runAuipc (_w : Word32) (f7 : BitVec 7) (b a : BitVec 5) (f3 : BitVec 3) (d : BitVec 5) (s : State) : Result :=
  execAuipc (f7 ++ b ++ a ++ f3 : BitVec 20) d s

/-- `jal`. -/
def runJal (_w : Word32) (f7 : BitVec 7) (b a : BitVec 5) (f3 : BitVec 3) (d : BitVec 5) (s : State) : Result :=
  execJal (f7 ++ b ++ a ++ f3 : BitVec 20) d s

/-- `jalr`. -/
def runJalr (w : Word32) (f7 : BitVec 7) (b a : BitVec 5) (f3 : BitVec 3) (d : BitVec 5) (s : State) : Result :=
  match f3 with
  | 0#3 => execJalr (f7 ++ b : BitVec 12) a d s
  | _ => execIllegalEncoding w s

/-- Branches. -/
def runBranch (w : Word32) (f7 : BitVec 7) (b a : BitVec 5) (f3 : BitVec 3) (d : BitVec 5) (s : State) : Result :=
  match f3 with
  | 0#3 => execBeq f7 b a d s
  | 1#3 => execBne f7 b a d s
  | 4#3 => execBlt f7 b a d s
  | 5#3 => execBge f7 b a d s
  | 6#3 => execBltu f7 b a d s
  | 7#3 => execBgeu f7 b a d s
  | _ => execIllegalEncoding w s

/-- Scalar loads. -/
def runLoad (w : Word32) (f7 : BitVec 7) (b a : BitVec 5) (f3 : BitVec 3) (d : BitVec 5) (s : State) : Result :=
  match f3 with
  | 0#3 => execLb (f7 ++ b : BitVec 12) a d s
  | 1#3 => execLh (f7 ++ b : BitVec 12) a d s
  | 2#3 => execLw (f7 ++ b : BitVec 12) a d s
  | 3#3 => execLd (f7 ++ b : BitVec 12) a d s
  | 4#3 => execLbu (f7 ++ b : BitVec 12) a d s
  | 5#3 => execLhu (f7 ++ b : BitVec 12) a d s
  | 6#3 => execLwu (f7 ++ b : BitVec 12) a d s
  | _ => execIllegalEncoding w s

/-- Scalar stores. -/
def runStore (w : Word32) (f7 : BitVec 7) (b a : BitVec 5) (f3 : BitVec 3) (d : BitVec 5) (s : State) : Result :=
  match f3 with
  | 0#3 => execSb f7 b a d s
  | 1#3 => execSh f7 b a d s
  | 2#3 => execSw f7 b a d s
  | 3#3 => execSd f7 b a d s
  | _ => execIllegalEncoding w s

/-- OP-IMM words. -/
def runOpImm (w : Word32) (f7 : BitVec 7) (b a : BitVec 5) (f3 : BitVec 3) (d : BitVec 5) (s : State) : Result :=
  match f3 with
  | 0#3 => execAddi (f7 ++ b : BitVec 12) a d s
  | 1#3 =>
      if f7.extractLsb' 1 6 = 0#6 then execSlli ((f7.extractLsb' 0 1) ++ b : BitVec 6) a d s else
      execIllegalEncoding w s
  | 2#3 => execSlti (f7 ++ b : BitVec 12) a d s
  | 3#3 => execSltiu (f7 ++ b : BitVec 12) a d s
  | 4#3 => execXori (f7 ++ b : BitVec 12) a d s
  | 5#3 =>
      if f7.extractLsb' 1 6 = 0#6 then execSrli ((f7.extractLsb' 0 1) ++ b : BitVec 6) a d s else
      if f7.extractLsb' 1 6 = 16#6 then execSrai ((f7.extractLsb' 0 1) ++ b : BitVec 6) a d s else
      execIllegalEncoding w s
  | 6#3 => execOri (f7 ++ b : BitVec 12) a d s
  | 7#3 => execAndi (f7 ++ b : BitVec 12) a d s

/-- OP words. -/
def runOp (w : Word32) (f7 : BitVec 7) (b a : BitVec 5) (f3 : BitVec 3) (d : BitVec 5) (s : State) : Result :=
  match f3 with
  | 0#3 =>
      if f7 = 0#7 then execAdd b a d s else
      if f7 = 32#7 then execSub b a d s else
      if f7 = 1#7 then execMul b a d s else
      execIllegalEncoding w s
  | 1#3 =>
      if f7 = 0#7 then execSll b a d s else
      if f7 = 1#7 then execMulh b a d s else
      execIllegalEncoding w s
  | 2#3 =>
      if f7 = 0#7 then execSlt b a d s else
      if f7 = 1#7 then execMulhsu b a d s else
      execIllegalEncoding w s
  | 3#3 =>
      if f7 = 0#7 then execSltu b a d s else
      if f7 = 1#7 then execMulhu b a d s else
      execIllegalEncoding w s
  | 4#3 =>
      if f7 = 0#7 then execXor b a d s else
      if f7 = 1#7 then execDiv b a d s else
      execIllegalEncoding w s
  | 5#3 =>
      if f7 = 0#7 then execSrl b a d s else
      if f7 = 32#7 then execSra b a d s else
      if f7 = 1#7 then execDivu b a d s else
      execIllegalEncoding w s
  | 6#3 =>
      if f7 = 0#7 then execOr b a d s else
      if f7 = 1#7 then execRem b a d s else
      execIllegalEncoding w s
  | 7#3 =>
      if f7 = 0#7 then execAnd b a d s else
      if f7 = 1#7 then execRemu b a d s else
      execIllegalEncoding w s

/-- OP-IMM-32 words. -/
def runOpImm32 (w : Word32) (f7 : BitVec 7) (b a : BitVec 5) (f3 : BitVec 3) (d : BitVec 5) (s : State) : Result :=
  match f3 with
  | 0#3 => execAddiw (f7 ++ b : BitVec 12) a d s
  | 1#3 =>
      if f7 = 0#7 then execSlliw b a d s else
      execIllegalEncoding w s
  | 5#3 =>
      if f7 = 0#7 then execSrliw b a d s else
      if f7 = 32#7 then execSraiw b a d s else
      execIllegalEncoding w s
  | _ => execIllegalEncoding w s

/-- OP-32 words. -/
def runOp32 (w : Word32) (f7 : BitVec 7) (b a : BitVec 5) (f3 : BitVec 3) (d : BitVec 5) (s : State) : Result :=
  match f3 with
  | 0#3 =>
      if f7 = 0#7 then execAddw b a d s else
      if f7 = 32#7 then execSubw b a d s else
      if f7 = 1#7 then execMulw b a d s else
      execIllegalEncoding w s
  | 1#3 =>
      if f7 = 0#7 then execSllw b a d s else
      execIllegalEncoding w s
  | 4#3 =>
      if f7 = 1#7 then execDivw b a d s else
      execIllegalEncoding w s
  | 5#3 =>
      if f7 = 0#7 then execSrlw b a d s else
      if f7 = 32#7 then execSraw b a d s else
      if f7 = 1#7 then execDivuw b a d s else
      execIllegalEncoding w s
  | 6#3 =>
      if f7 = 1#7 then execRemw b a d s else
      execIllegalEncoding w s
  | 7#3 =>
      if f7 = 1#7 then execRemuw b a d s else
      execIllegalEncoding w s
  | _ => execIllegalEncoding w s

/-- `fence` and `fence.i`. -/
def runMiscMem (w : Word32) (f7 : BitVec 7) (b a : BitVec 5) (f3 : BitVec 3) (d : BitVec 5) (s : State) : Result :=
  match f3 with
  | 0#3 => execFence (f7 ++ b : BitVec 12) a d s
  | 1#3 => execFenceI (f7 ++ b : BitVec 12) a d s
  | _ => execIllegalEncoding w s

/-- `ecall`, `ebreak`, `sret`, `wfi` and the CSR words. -/
def runSystem (w : Word32) (f7 : BitVec 7) (b a : BitVec 5) (f3 : BitVec 3) (d : BitVec 5) (s : State) : Result :=
  match f3 with
  | 0#3 =>
      if f7 = 0#7 ∧ b = 0#5 ∧ a = 0#5 ∧ d = 0#5 then execEcall s else
      if f7 = 0#7 ∧ b = 1#5 ∧ a = 0#5 ∧ d = 0#5 then execEbreak s else
      if f7 = 8#7 ∧ b = 2#5 ∧ a = 0#5 ∧ d = 0#5 then execSret s else
      if f7 = 8#7 ∧ b = 5#5 ∧ a = 0#5 ∧ d = 0#5 then execWfi s else
      execIllegalEncoding w s
  | 1#3 => execCsrrw (f7 ++ b : BitVec 12) a d s
  | 2#3 => execCsrrs (f7 ++ b : BitVec 12) a d s
  | 3#3 => execCsrrc (f7 ++ b : BitVec 12) a d s
  | 5#3 => execCsrrwi (f7 ++ b : BitVec 12) a d s
  | 6#3 => execCsrrsi (f7 ++ b : BitVec 12) a d s
  | 7#3 => execCsrrci (f7 ++ b : BitVec 12) a d s
  | _ => execIllegalEncoding w s

/-- A word by its parts: [31:25], [24:20], [19:15], [14:12], [11:7] and the major opcode (R234). -/
def runParts (w : Word32) (f7 : BitVec 7) (b a : BitVec 5) (f3 : BitVec 3) (d : BitVec 5) (op : BitVec 7) (s : State) : Result :=
  match op with
  | 11#7 => runVx w (f7.extractLsb' 2 5) (f7.extractLsb' 1 1) (f7.extractLsb' 0 1) b a f3 d s
  | 43#7 => runVm w (f7.extractLsb' 2 5) (f7.extractLsb' 1 1) (f7.extractLsb' 0 1) b a f3 d s
  | 91#7 => runMt w (f7.extractLsb' 3 4) (f7.extractLsb' 0 3) b a f3 d s
  | 123#7 => runSy w f7 b a f3 d s
  | 47#7 => runAmo w (f7.extractLsb' 2 5) (f7.extractLsb' 1 1) (f7.extractLsb' 0 1) b a f3 d s
  | 55#7 => runLui w f7 b a f3 d s
  | 23#7 => runAuipc w f7 b a f3 d s
  | 111#7 => runJal w f7 b a f3 d s
  | 103#7 => runJalr w f7 b a f3 d s
  | 99#7 => runBranch w f7 b a f3 d s
  | 3#7 => runLoad w f7 b a f3 d s
  | 35#7 => runStore w f7 b a f3 d s
  | 19#7 => runOpImm w f7 b a f3 d s
  | 51#7 => runOp w f7 b a f3 d s
  | 27#7 => runOpImm32 w f7 b a f3 d s
  | 59#7 => runOp32 w f7 b a f3 d s
  | 15#7 => runMiscMem w f7 b a f3 d s
  | 115#7 => runSystem w f7 b a f3 d s
  | _ => execIllegalEncoding w s

/-- A fetched word runs. -/
def runWordNow (w : Word32) (s : State) : Result :=
  runParts w (w.extractLsb' 25 7) (w.extractLsb' 20 5) (w.extractLsb' 15 5) (w.extractLsb' 12 3) (w.extractLsb' 7 5)
    (w.extractLsb' 0 7) s

theorem outcome_ite (w : Word32) (s : State) (c : Prop) [Decidable c] (x y : Except Reject Instr) :
    outcome w s (if c then x else y) = if c then outcome w s x else outcome w s y := by split <;> rfl

theorem outcome_check (w : Word32) (s : State) (i : Instr) :
    outcome w s (check i) = if i.wf = true then exec i s else execIllegalEncoding w s := by
  unfold check; split <;> rfl

theorem outcome_vx (w : Word32) (f5 : BitVec 5) (c m : BitVec 1) (b a : BitVec 5) (f3 : BitVec 3) (d : BitVec 5) (s : State) : outcome w s (decodeVx f5 c m b a f3 d) = runVx w f5 c m b a f3 d s := by
  unfold decodeVx runVx
  split <;> (try simp only [outcome_ite, outcome_check]) <;> rfl

theorem outcome_vm (w : Word32) (f5 : BitVec 5) (c m : BitVec 1) (b a : BitVec 5) (f3 : BitVec 3) (d : BitVec 5) (s : State) : outcome w s (decodeVm f5 c m b a f3 d) = runVm w f5 c m b a f3 d s := by
  unfold decodeVm runVm
  split <;> (try simp only [outcome_ite, outcome_check]) <;> rfl

theorem outcome_mt (w : Word32) (f4 : BitVec 4) (z : BitVec 3) (b a : BitVec 5) (f3 : BitVec 3) (d : BitVec 5) (s : State) : outcome w s (decodeMt f4 z b a f3 d) = runMt w f4 z b a f3 d s := by
  unfold decodeMt runMt
  split <;> (try simp only [outcome_ite, outcome_check]) <;> rfl

theorem outcome_sy (w : Word32) (f7 : BitVec 7) (b a : BitVec 5) (f3 : BitVec 3) (d : BitVec 5) (s : State) : outcome w s (decodeSy f7 b a f3 d) = runSy w f7 b a f3 d s := by
  unfold decodeSy runSy
  split <;> (try simp only [outcome_ite, outcome_check]) <;> rfl

theorem outcome_amo (w : Word32) (f5 : BitVec 5) (c m : BitVec 1) (b a : BitVec 5) (f3 : BitVec 3) (d : BitVec 5) (s : State) : outcome w s (decodeAmo f5 c m b a f3 d) = runAmo w f5 c m b a f3 d s := by
  unfold decodeAmo runAmo
  split <;> (try simp only [outcome_ite]) <;> rfl

theorem outcome_lui (w : Word32) (f7 : BitVec 7) (b a : BitVec 5) (f3 : BitVec 3) (d : BitVec 5) (s : State) : outcome w s (decodeLui f7 b a f3 d) = runLui w f7 b a f3 d s := by
  unfold decodeLui runLui
  rfl

theorem outcome_auipc (w : Word32) (f7 : BitVec 7) (b a : BitVec 5) (f3 : BitVec 3) (d : BitVec 5) (s : State) : outcome w s (decodeAuipc f7 b a f3 d) = runAuipc w f7 b a f3 d s := by
  unfold decodeAuipc runAuipc
  rfl

theorem outcome_jal (w : Word32) (f7 : BitVec 7) (b a : BitVec 5) (f3 : BitVec 3) (d : BitVec 5) (s : State) : outcome w s (decodeJal f7 b a f3 d) = runJal w f7 b a f3 d s := by
  unfold decodeJal runJal
  rfl

theorem outcome_jalr (w : Word32) (f7 : BitVec 7) (b a : BitVec 5) (f3 : BitVec 3) (d : BitVec 5) (s : State) : outcome w s (decodeJalr f7 b a f3 d) = runJalr w f7 b a f3 d s := by
  unfold decodeJalr runJalr
  split <;> (try simp only [outcome_check]) <;> rfl

theorem outcome_branch (w : Word32) (f7 : BitVec 7) (b a : BitVec 5) (f3 : BitVec 3) (d : BitVec 5) (s : State) : outcome w s (decodeBranch f7 b a f3 d) = runBranch w f7 b a f3 d s := by
  unfold decodeBranch runBranch
  split <;> (try simp only [outcome_check]) <;> rfl

theorem outcome_load (w : Word32) (f7 : BitVec 7) (b a : BitVec 5) (f3 : BitVec 3) (d : BitVec 5) (s : State) : outcome w s (decodeLoad f7 b a f3 d) = runLoad w f7 b a f3 d s := by
  unfold decodeLoad runLoad
  split <;> (try simp only [outcome_check]) <;> rfl

theorem outcome_store (w : Word32) (f7 : BitVec 7) (b a : BitVec 5) (f3 : BitVec 3) (d : BitVec 5) (s : State) : outcome w s (decodeStore f7 b a f3 d) = runStore w f7 b a f3 d s := by
  unfold decodeStore runStore
  split <;> (try simp only [outcome_check]) <;> rfl

theorem outcome_opImm (w : Word32) (f7 : BitVec 7) (b a : BitVec 5) (f3 : BitVec 3) (d : BitVec 5) (s : State) : outcome w s (decodeOpImm f7 b a f3 d) = runOpImm w f7 b a f3 d s := by
  unfold decodeOpImm runOpImm
  split <;> (try simp only [outcome_ite]) <;> rfl

theorem outcome_op (w : Word32) (f7 : BitVec 7) (b a : BitVec 5) (f3 : BitVec 3) (d : BitVec 5) (s : State) : outcome w s (decodeOp f7 b a f3 d) = runOp w f7 b a f3 d s := by
  unfold decodeOp runOp
  split <;> (try simp only [outcome_ite]) <;> rfl

theorem outcome_opImm32 (w : Word32) (f7 : BitVec 7) (b a : BitVec 5) (f3 : BitVec 3) (d : BitVec 5) (s : State) : outcome w s (decodeOpImm32 f7 b a f3 d) = runOpImm32 w f7 b a f3 d s := by
  unfold decodeOpImm32 runOpImm32
  split <;> (try simp only [outcome_ite]) <;> rfl

theorem outcome_op32 (w : Word32) (f7 : BitVec 7) (b a : BitVec 5) (f3 : BitVec 3) (d : BitVec 5) (s : State) : outcome w s (decodeOp32 f7 b a f3 d) = runOp32 w f7 b a f3 d s := by
  unfold decodeOp32 runOp32
  split <;> (try simp only [outcome_ite]) <;> rfl

theorem outcome_miscMem (w : Word32) (f7 : BitVec 7) (b a : BitVec 5) (f3 : BitVec 3) (d : BitVec 5) (s : State) : outcome w s (decodeMiscMem f7 b a f3 d) = runMiscMem w f7 b a f3 d s := by
  unfold decodeMiscMem runMiscMem
  split <;> (try simp only [outcome_check]) <;> rfl

theorem outcome_system (w : Word32) (f7 : BitVec 7) (b a : BitVec 5) (f3 : BitVec 3) (d : BitVec 5) (s : State) : outcome w s (decodeSystem f7 b a f3 d) = runSystem w f7 b a f3 d s := by
  unfold decodeSystem runSystem
  split <;> (try simp only [outcome_ite]) <;> rfl

theorem outcome_parts (w : Word32) (f7 : BitVec 7) (b a : BitVec 5) (f3 : BitVec 3) (d : BitVec 5) (op : BitVec 7) (s : State) :
    outcome w s (decodeParts f7 b a f3 d op) = runParts w f7 b a f3 d op s := by
  unfold decodeParts runParts
  split
  · exact outcome_vx ..
  · exact outcome_vm ..
  · exact outcome_mt ..
  · exact outcome_sy ..
  · exact outcome_amo ..
  · exact outcome_lui ..
  · exact outcome_auipc ..
  · exact outcome_jal ..
  · exact outcome_jalr ..
  · exact outcome_branch ..
  · exact outcome_load ..
  · exact outcome_store ..
  · exact outcome_opImm ..
  · exact outcome_op ..
  · exact outcome_opImm32 ..
  · exact outcome_op32 ..
  · exact outcome_miscMem ..
  · exact outcome_system ..
  · first | rfl | (split <;> first | rfl | (exfalso; simp_all))

@[csimp] theorem runWord_eq : @runWord = @runWordNow := by
  funext w s
  exact outcome_parts w _ _ _ _ _ _ s

/-! ## Fetch (R137, R140, R195) -/

/-- What stands at the pc of the focus. -/
inductive Fetched where
  | word (w : Word32) (s : State)
  | stub
  | fault (t : Trap)

/-- The fetch of the focus at its pc (log 57: DEDUCED, unsafe). -/
def fetch (s : State) : Fetched :=
  let va := s.cur.pc
  if va.toNat % 4 ≠ 0 then .fault (scalarTrap 0 va .fetch) else
  match scalarPlace s (who s) .fetch va.toNat with
  | .error f => .fault (scalarTrap f va .fetch)
  | .ok (.mem k, use) =>
    if hasError k 4 s then .fault (scalarTrap 49 (errorAddr k) .fetch)
    else .word (BitVec.ofNat 32 (natOf (seeBytes s .fetch k 4))) (useScalar s.curKey use s)
  | .ok (.stub, _) => .stub
  | .ok (.queueReg _ _, _) => .fault (scalarTrap 26 va .fetch)

/-- A fault of a fetch; one behind an open convoy is the convoy's, which begins again at its first word (R98); any other leaves `vcvx` as it is (R194) (log 39: DEDUCED, unsafe; log 57: DEDUCED, unsafe). -/
def fetchFault (t : Trap) (s : State) : State :=
  let s := if t.code = 49 then logError s.die 1 (some s.core) t.tval (openField s) s else s
  if t.code = heldCode then s else if s.cur.convoy.isEmpty then raise t s else memberTrap t s

/-- A word that ran and did not stand waiting: the focus has gone on, or the word is one that may lead back to itself, and never waits. -/
def wordDone (w : Word32) (s t : State) : Bool :=
  let op := (w.extractLsb' 0 7).toNat
  t.cur.pc != s.cur.pc || t.cur.convoy != s.cur.convoy || op == 0x6F || op == 0x67 || op == 0x63 || op == 0x73 || (op == 0x7B && w.extractLsb' 12 3 == 0)

/-- What follows a word that ran: a bound of a fault it stood in stops, and a debugger that steps stops it (R130, R355). -/
def afterWord (w : Word32) (s : State) (r : Result) : Result :=
  match r with
  | .next t => .next (if wordDone w s t then stepStop (faultServed t) else t)
  | x => x

/-- The focus runs its next word, or the runtime its action. -/
def runContext (s : State) : Result :=
  if s.cur.priv == .s && s.cur.pc == Config.runtimeEntry then runtimeAction s else
  match fetch s with
  | .word w t => afterWord w s (runWord w t)
  | .stub => .next (if s.cur.convoy.isEmpty then retireTask s else illegalConvoy s)
  | .fault t => .next (fetchFault t s)

/-! ## Time (R3, R15 to R18, R37, R49) -/

/-- The time that passes in a step, in parts of a reference tick: free, but it does not pass the end of a relock, which is 150 ticks after its begin (log 5: DESIGN CHOICE, safe). -/
def stepTime (s : State) : Nat :=
  let ends (i : Instr) : Bool := match i with | .relockEnd _ => true | _ => false
  if s.agenda.any (·.any ends) then 0 else
  s.timers.foldl (fun m t => if ends t.event then min m ((s.wall / Config.tickParts + t.left) * Config.tickParts - s.wall) else m) (Config.elapsed s.nonce)

/-- Reference ticks that pass in a time. -/
def ticksIn (s : State) (e : Nat) : Nat := (s.wall + e) / Config.tickParts - s.wall / Config.tickParts

/-- A die's reference counter runs: it is out of reset; the hub's always does. -/
def ticking (s : State) (d : Nat) : Bool := decide (8 ≤ d) || (dieAt s d).released

/-- Core cycles of a die that pass in a time, as many to a tick as its clock setting has: none while it is in reset or relocks; the hub runs at 1.0 GHz (R15, R17). -/
def cyclesIn (s : State) (e d : Nat) : Nat :=
  let x := dieAt s d
  if !ticking s d || relocking x then 0 else
  let r := if 8 ≤ d then 10 else x.clock.ratio
  (s.wall + e) * r / Config.tickParts - s.wall * r / Config.tickParts

/-- Event codes that a die counts in traffic that the spec does not fix (R50, log 5). -/
def openDieCodes : List Nat := [0x100, 0x101, 0x103]

/-- A pair of a die that selects one of the codes counts what happens in a step (log 5: DESIGN CHOICE, safe). -/
def countOpen (nonce : Nat) (codes : List Nat) (c : Counter) : Counter :=
  let code := bits c.sel.toNat 11 0
  if bit c.sel.toNat 62 && codes.contains code then countIn (Config.counted nonce code) c else c

/-- What a core counts in a step of the events reckoned in cycles, no more than the cycles that pass: cycles with a ready context and no issue, and of each context whose
events the pair counts the stalls and the replay passes (R49, R50) (log 5: DESIGN CHOICE, safe). -/
def openCounts (s : State) (e g : Nat) (c : Counter) : Nat :=
  let code := bits c.sel.toNat 11 0
  let amount (k : Nat) : Nat := min (cyclesIn s e (dieOf g)) (Config.counted (freeIndex s (4 * g + k)) code)
  if code = 0x003 then (if (upTo 4).any (fun k => (ctxAt s (4 * g + k)).state == .running) then amount 0 else 0)
  else if 0x010 ≤ code ∧ code ≤ 0x013 then
    ((upTo 4).map (fun k => if countsCtx code k (ctxAt s (4 * g + k)).priv c then amount k else 0)).foldl (· + ·) 0
  else 0

/-- A pair of a core after a step. -/
def countCycles (s : State) (e g : Nat) (c : Counter) : Counter := if bit c.sel.toNat 62 then countIn (openCounts s e g c) c else c

/-- The clocks and counters of a die after a step: both advance by the time passed, CYCLE by the die's ratio for each tick (R15, R18) (log 5: DESIGN CHOICE, safe; log 23: DESIGN CHOICE, safe). -/
def tickDie (s : State) (e d : Nat) (x : Die) : Die :=
  let x := { x with counters := x.counters.map (fun p => (p.1, countOpen (freeIndex s d) openDieCodes p.2)) }
  if ticking s d then { x with cycle := x.cycle + BitVec.ofNat 64 (cyclesIn s e d), refk := x.refk + BitVec.ofNat 64 (ticksIn s e) } else x

/-- What a bound loses in a step: cycles or ticks of its die (R3). -/
def elapsed (s : State) (e : Nat) (t : Timer) : Nat :=
  if t.inCycles then cyclesIn s e t.die else if ticking s t.die then ticksIn s e else 0

/-- Bounds run; those that run out make their steps fall due (log 5: DESIGN CHOICE, safe; log 23: DESIGN CHOICE, safe). -/
def tickTimers (e : Nat) (s : State) : State :=
  let out := s.timers.filter (fun t => t.left ≤ elapsed s e t)
  let on := (s.timers.filter (fun t => !(t.left ≤ elapsed s e t))).map (fun t => { t with left := t.left - elapsed s e t })
  out.foldl (fun s t => postOnce t.event s) { s with timers := on }

/-- A queue's watchdog runs: commands are in flight, and no checkpoint that covers it copies (R37, R40) (log 36: DESIGN CHOICE, unsafe). -/
def watchdogRuns (s : State) (q : Nat) : Bool :=
  let k := queueAt s q
  watchdogLive k && k.wdog != 0 && decide (0 < inFlight k) && (dieAt s k.home).released &&
    !s.checkpoints.any (fun c => c.copying && (c.q == q || (match k.part with | some p => c.all || c.parts.contains p | none => false)))

/-- The watchdogs count down (log 5: DESIGN CHOICE, safe). -/
def tickQueues (e : Nat) (s : State) : State :=
  (upTo 64).foldl (fun s q =>
    if watchdogRuns s q && (queueAt s q).wleft != 0 then
      let left := (queueAt s q).wleft.toNat - ticksIn s e
      let s := updQueue s q (fun k => { k with wleft := BitVec.ofNat 32 left })
      if left = 0 then postOnce (.watchdogExpiry q) s else s
    else s) s

/-- Time passes before a step: the clocks of the released dies and of the hub, the bounds, the watchdogs, the counters reckoned in time (log 4: DESIGN CHOICE, unsafe; log 5: DESIGN CHOICE, safe; log 23: DESIGN CHOICE, safe). -/
def advance (s : State) : State :=
  if !s.axis.powered then { s with nonce := s.nonce + 1 } else
  let e := stepTime s
  let t := tickQueues e (tickTimers e s)
  let count (g : Nat) (k : Core) : Core := { k with counters := k.counters.map (countCycles s e g) }
  { t with dies := t.dies.mapIdx (fun d x => tickDie s e d x), hub := tickDie s e 8 t.hub, cores := t.cores.map (fun c => (c.1, count c.1 c.2)),
           wall := s.wall + e, nonce := s.nonce + 1 }

/-! ## Who acts next -/

/-- Who may act in a step: the outside, a list of steps that have fallen due, a context. -/
inductive Agent where
  | outside
  | due (i : Nat)
  | context (key : Nat)
  deriving DecidableEq, Repr

/-- A context may run a word: its die is released and its clock runs (log 4: DESIGN CHOICE, unsafe). -/
def canRun (s : State) (key : Nat) : Bool :=
  let d := dieAt s (dieOf (key / 4))
  (ctxAt s key).state == .running && d.released && !d.held && !relocking d

/-- Those who may act. Without power, only the outside; a request of the management port waits its turn (log 4: DESIGN CHOICE, unsafe). -/
def agents (s : State) : List Agent :=
  let out := if s.inputs.isEmpty || portWaits s then [] else [.outside]
  if !s.axis.powered then out
  else out ++ (upTo s.agenda.length).map .due ++ ((ctxKeys s).filter (canRun s)).map .context

/-- Who acts: of several, any may (log 4: DESIGN CHOICE, unsafe). -/
def chosen (s : State) : Option Agent :=
  match agents s with
  | [] => none
  | [a] => some a
  | l => l[Config.choose s.nonce % l.length]?

/-- A step of the device that is not a word. -/
def isEvent (i : Instr) : Bool := (encode i).isNone

/-- A step of the device is carried out; a word is none. -/
def runEvent (i : Instr) (s : State) : Result := if isEvent i then exec i s else .next s

/-- An agent acts (log 4: DESIGN CHOICE, unsafe; log 22: DESIGN CHOICE, unsafe). -/
def act (a : Agent) (s : State) : Result :=
  match a with
  | .outside => match s.inputs with | i :: t => runEvent i { s with inputs := t } | [] => .next s
  | .due n =>
    match s.agenda[n]? with
    | some (i :: t) => runEvent i { s with agenda := if t.isEmpty then s.agenda.eraseIdx n else setAt s.agenda n t }
    | _ => .next { s with agenda := s.agenda.eraseIdx n }
  | .context key => runContext (focus s key)

/-- The objects that a thread's `twait` or a GRUN waits for and that have reached its target, by where they stand (R34, R257). -/
def metObjects (s : State) : List Nat :=
  let met (part : Nat) (obj target : Word) : Option Nat :=
    match deviceAddr s part obj with | .ok pa => if reached (physRead s pa 16) target then some pa else none | .error _ => none
  (threads s).filterMap (fun th => match waitOfThread s th, taskOfThread s th with
    | some (.twait _ obj target), some t => met t.part obj target
    | _, _ => none) ++
  (upTo 64).flatMap (fun q => (queueAt s q).cmds.filterMap (fun c => match c.onObject with | some (p, obj, target) => met p obj target | none => none))

/-- Retiring regions that have nothing left retire, however the last task ended (R73). -/
def sweepRetiring (s : State) : State :=
  (s.regions.filter (fun r => r.state == .retiring)).foldl (fun s r => checkRetire r.part r.idx s) s

/-- A charge of a region is lower than it was. -/
def chargeFell (old now : Region) : Bool :=
  decide (now.segUse < old.segUse) || decide (now.ctxUse < old.ctxUse) || decide (now.planeUse < old.planeUse) || decide (now.facetUse < old.facetUse) ||
    decide (now.coreUse.length < old.coreUse.length)

/-- Entries become due where a charge of their partition fell, or a context of the die was freed or began to wait (R84). -/
def sweepDue (old s : State) : State :=
  let fell := (old.regions.filter (fun r => match regionAt s r.part r.idx with | some n => chargeFell r n | none => false)).map (·.part)
  let idle (s : State) (k : Nat) : Nat := match (ctxAt s k).state with | .free => 1 | .waiting _ => 2 | _ => 0
  let left := ((ctxKeys s ++ ctxKeys old).filter (fun k => idle s k != 0 && idle s k != idle old k)).map (fun k => dieOf (k / 4))
  left.eraseDups.foldl (fun s d => markDueDie d s) (fell.eraseDups.foldl (fun s p => markDuePart p s) s)

/-- What follows every step: failures owed to a POLICY are delivered (R72), waits whose object has reached its target end (R34, R257), regions retire (R73), entries
become due (R84), and the words of region blocks are written as they changed (R53). -/
def afterStep (old : State) (r : Result) : Result :=
  match r with
  | .next s =>
    let s := settleOwed s
    let s := (metObjects s).foldl (fun s pa => wakeWaiters pa s) s
    .next (syncBlocks old (sweepDue old (sweepRetiring s)))
  | x => x

/-- One step: time passes and one of those who may act does (log 22: DESIGN CHOICE, unsafe). -/
def stepOnce (s : State) : Result :=
  let s := advance s
  match chosen s with
  | none => .next s
  | some a => afterStep s (act a s)

/-! ## A word placed where the next step fetches it -/

/-- The page tables, code page and word that `placeWord` lays: tables at 0, 64 KiB and 128 KiB, one executable page of virtual address 0
at 192 KiB, the word at 0x1000 of it (log 3: DESIGN CHOICE, safe). -/
def placedMemory (bs : List Byte) (m : Memory) : Memory :=
  setBytes (physKey 0x31000) bs (setBytes (physKey 0x20000) (bytesOf 8 0x3007D) (setBytes (physKey 0x10000) (bytesOf 8 0x20001) (setBytes (physKey 0) (bytesOf 8 0x10001) m)))

/-- A partition of one core with all its share in the first GiB (log 3: DESIGN CHOICE, safe). -/
def placedPart (id g : Nat) : Part :=
  { id := id, root := 0, hbase := 0, hlen := 2 ^ 30, stkBase := 0, stkN := 0, stkSize := 0, cores := [g], stackSlots := [], frames := [], pages := [],
    backing := (0, 0), tier := (0, 0), drain := none, expired := [], quiesced := false, destroy := [], portDrains := 0, announced := true }

/-- The task of a context that has none (log 3: DESIGN CHOICE, safe). -/
def placedTask : Task := { thread := 0, node := 0, tseq := 0, part := 0, region := 0, comp := 0, operands := [], stack := none }

/-- The state in which the next step fetches and runs four bytes on the slot in focus, booted, with nothing else to be done (log 3: DESIGN CHOICE, safe). -/
def placeWord (bs : List Byte) (s : State) : State :=
  let t := s.cur.task.getD placedTask
  let c := { s.cur with task := some t, state := .running, priv := .u, pc := 0x1000, convoy := [], stale := [], stepping := false }
  let s := updCore s s.core (fun k => { k with tlb := [] })
  let s := updDie s s.die (fun x => { x with released := true, held := false, tlb := [], clock := { x.clock with stage := none } })
  { s with cur := c, parked := [], mem := placedMemory bs s.mem, parts := placedPart t.part s.core :: s.parts.filter (fun p => p.id != t.part),
           badCells := [], agenda := [], timers := [], inputs := [], owed := [], engines := [],
           axis := { s.axis with stage := .ready, windows := true, powered := true } }

end Sys2Proof.Machine
end

