-- ==== Sys2Proof/Machine/Step.lean ====
section
/-! DEFINITION. One step of the package, and the state in which the next step runs a given word. -/

namespace Sys2Proof.Machine

/-- One step of the package. -/
def step (s : State) : Host.Outcome State Fault Refusal := stepOnce s

/-- The state with an instruction stored where the next step fetches (log 3: DESIGN CHOICE, safe). -/
def State.withFetchWord (s : State) (nbits w : Nat) : State := placeWord (tableBytes nbits w) s

end Sys2Proof.Machine
end

