-- ==== Sys2Proof/Safety.lean ====
section
/-! DEFINITION. What a run is, what counts as a safe one, and the words in which statements say that an instruction
completes, traps, or leaves things alone. -/

namespace Sys2Proof

open Machine

/-! ## Runs -/

/-- A state that steps lead to. -/
inductive Reaches : State → State → Prop where
  | here (s : State) : Reaches s s
  | on {s t u : State} : step s = .next t → Reaches t u → Reaches s u

/-- A run is safe when every step of it has a next state: none ends in a fault or a refusal. -/
def SafeFrom (s : State) : Prop := ∀ t, Reaches s t → ∃ u, step t = .next u

/-- A property that every step keeps. -/
def Keeps (P : State → Prop) : Prop := ∀ s t, P s → step s = .next t → P t

/-! ## What an instruction does -/

/-- An instruction answers a next state, and P holds there. -/
def Completes (i : Instr) (s : State) (P : State → Prop) : Prop := ∃ t, exec i s = .next t ∧ P t

/-- The state after a trap of the focus at a word (R194): the exception registers take what the trap gives, the context enters S mode at
its `stvec`, the words of an open convoy are gone, and nothing else of the context has changed but `sfinfo`, `vstart` and `vcvx`, which
a statement gives apart. A remote-page fault is not taken so (R112). -/
def Trapped (code : Nat) (tval epc : Word) (s t : State) : Prop :=
  t.mem = s.mem ∧
  t.cur = { s.cur with
    scause := BitVec.ofNat 64 code, stval := tval, sepc := epc &&& ~~~3#64, spp := (s.cur.priv == .s), priv := .s, pc := s.cur.stvec,
    convoy := [], sfinfo := t.cur.sfinfo, vstart := t.cur.vstart, vcvx := t.cur.vcvx }

/-! ## What stays -/

/-- Every byte of memory reads as before. -/
def SameMemory (s t : State) : Prop := ∀ k, getByte k t.mem = getByte k s.mem

/-- Every byte of memory outside a stretch reads as before. -/
def SameOutside (key n : Nat) (s t : State) : Prop := ∀ k, k < key ∨ key + n ≤ k → getByte k t.mem = getByte k s.mem

/-- Every core is as before but for its event counters (R49). -/
def SameCores (s t : State) : Prop := ∀ g, coreAt t g = { coreAt s g with counters := (coreAt t g).counters }

/-- Outside the focus nothing has changed but event counters. -/
def OnlyFocus (s t : State) : Prop := t = { s with cur := t.cur, cores := t.cores } ∧ SameCores s t

/-- A trap of a scalar word: at the pc, with `vstart` and `vcvx` as they were, and nothing outside the context changed but event counters. -/
def ScalarTrapped (code : Nat) (tval : Word) (s t : State) : Prop :=
  Trapped code tval s.cur.pc s t ∧ OnlyFocus s t ∧ t.cur.vstart = s.cur.vstart ∧ t.cur.vcvx = s.cur.vcvx

/-- Outside the focus nothing has changed but TLBs and event counters. -/
def OnlyFocusAndTlb (s t : State) : Prop :=
  t = { s with cur := t.cur, cores := t.cores, dies := t.dies, hub := t.hub } ∧
    (∀ g, coreAt t g = { coreAt s g with tlb := (coreAt t g).tlb, counters := (coreAt t g).counters }) ∧
    (∀ d, dieAt t d = { dieAt s d with tlb := (dieAt t d).tlb })

/-- A word that writes at most one scalar register and goes on: every other register, flag, special register and exception register of
the context is as it was, and so is everything outside it but event counters. -/
def OnlyRegister (d : BitVec 5) (s t : State) : Prop :=
  OnlyFocus s t ∧ t.cur = { s.cur with x := t.cur.x, pc := t.cur.pc } ∧ (∀ r, r ≠ d → getX t.cur r = getX s.cur r)

/-! ## Vector words -/

/-- What each VX and VM word does, apart from its register fields (R236 to R241). -/
def vectorOp : Instr → Option VOp
  | .vaddVv _ _ _ _ _ => some (.arith .add .vv)
  | .vaddVx _ _ _ _ _ => some (.arith .add .vx)
  | .vaddVi _ _ _ _ _ => some (.arith .add .vi)
  | .vaddVs _ _ _ _ => some (.arith .add .vs)
  | .vaddRay _ _ _ _ _ => some (.arith .add .ray)
  | .vsubVv _ _ _ _ _ => some (.arith .sub .vv)
  | .vsubVx _ _ _ _ _ => some (.arith .sub .vx)
  | .vsubVi _ _ _ _ _ => some (.arith .sub .vi)
  | .vsubVs _ _ _ _ => some (.arith .sub .vs)
  | .vsubRay _ _ _ _ _ => some (.arith .sub .ray)
  | .vrsubVx _ _ _ _ _ => some (.arith .rsub .vx)
  | .vrsubVi _ _ _ _ _ => some (.arith .rsub .vi)
  | .vrsubVs _ _ _ _ => some (.arith .rsub .vs)
  | .vrsubRay _ _ _ _ _ => some (.arith .rsub .ray)
  | .vmulVv _ _ _ _ _ => some (.arith .mul .vv)
  | .vmulVx _ _ _ _ _ => some (.arith .mul .vx)
  | .vmulVs _ _ _ _ => some (.arith .mul .vs)
  | .vmulRay _ _ _ _ _ => some (.arith .mul .ray)
  | .vmulhVv _ _ _ _ _ => some (.arith .mulh .vv)
  | .vmulhVx _ _ _ _ _ => some (.arith .mulh .vx)
  | .vmulhVs _ _ _ _ => some (.arith .mulh .vs)
  | .vmulhRay _ _ _ _ _ => some (.arith .mulh .ray)
  | .vdivVv _ _ _ _ _ => some (.arith .div .vv)
  | .vdivVx _ _ _ _ _ => some (.arith .div .vx)
  | .vdivVs _ _ _ _ => some (.arith .div .vs)
  | .vdivRay _ _ _ _ _ => some (.arith .div .ray)
  | .vremVv _ _ _ _ _ => some (.arith .rem .vv)
  | .vremVx _ _ _ _ _ => some (.arith .rem .vx)
  | .vremVs _ _ _ _ => some (.arith .rem .vs)
  | .vremRay _ _ _ _ _ => some (.arith .rem .ray)
  | .vminVv _ _ _ _ _ => some (.arith .min .vv)
  | .vminVx _ _ _ _ _ => some (.arith .min .vx)
  | .vminVi _ _ _ _ _ => some (.arith .min .vi)
  | .vminVs _ _ _ _ => some (.arith .min .vs)
  | .vminRay _ _ _ _ _ => some (.arith .min .ray)
  | .vmaxVv _ _ _ _ _ => some (.arith .max .vv)
  | .vmaxVx _ _ _ _ _ => some (.arith .max .vx)
  | .vmaxVi _ _ _ _ _ => some (.arith .max .vi)
  | .vmaxVs _ _ _ _ => some (.arith .max .vs)
  | .vmaxRay _ _ _ _ _ => some (.arith .max .ray)
  | .vandVv _ _ _ _ _ => some (.arith .and .vv)
  | .vandVx _ _ _ _ _ => some (.arith .and .vx)
  | .vandVi _ _ _ _ _ => some (.arith .and .vi)
  | .vandVs _ _ _ _ => some (.arith .and .vs)
  | .vandRay _ _ _ _ _ => some (.arith .and .ray)
  | .vorVv _ _ _ _ _ => some (.arith .or .vv)
  | .vorVx _ _ _ _ _ => some (.arith .or .vx)
  | .vorVi _ _ _ _ _ => some (.arith .or .vi)
  | .vorVs _ _ _ _ => some (.arith .or .vs)
  | .vorRay _ _ _ _ _ => some (.arith .or .ray)
  | .vxorVv _ _ _ _ _ => some (.arith .xor .vv)
  | .vxorVx _ _ _ _ _ => some (.arith .xor .vx)
  | .vxorVi _ _ _ _ _ => some (.arith .xor .vi)
  | .vxorVs _ _ _ _ => some (.arith .xor .vs)
  | .vxorRay _ _ _ _ _ => some (.arith .xor .ray)
  | .vsllVv _ _ _ _ _ => some (.arith .sll .vv)
  | .vsllVx _ _ _ _ _ => some (.arith .sll .vx)
  | .vsllVi _ _ _ _ _ => some (.arith .sll .vi)
  | .vsllVs _ _ _ _ => some (.arith .sll .vs)
  | .vsllRay _ _ _ _ _ => some (.arith .sll .ray)
  | .vsrlVv _ _ _ _ _ => some (.arith .srl .vv)
  | .vsrlVx _ _ _ _ _ => some (.arith .srl .vx)
  | .vsrlVi _ _ _ _ _ => some (.arith .srl .vi)
  | .vsrlVs _ _ _ _ => some (.arith .srl .vs)
  | .vsrlRay _ _ _ _ _ => some (.arith .srl .ray)
  | .vsraVv _ _ _ _ _ => some (.arith .sra .vv)
  | .vsraVx _ _ _ _ _ => some (.arith .sra .vx)
  | .vsraVi _ _ _ _ _ => some (.arith .sra .vi)
  | .vsraVs _ _ _ _ => some (.arith .sra .vs)
  | .vsraRay _ _ _ _ _ => some (.arith .sra .ray)
  | .vfmaVv _ _ _ _ _ => some (.fused .fma .vv)
  | .vfmaVx _ _ _ _ _ => some (.fused .fma .vx)
  | .vfmaVs _ _ _ _ => some (.fused .fma .vs)
  | .vfmaRay _ _ _ _ _ => some (.fused .fma .ray)
  | .vfmsVv _ _ _ _ _ => some (.fused .fms .vv)
  | .vfmsVx _ _ _ _ _ => some (.fused .fms .vx)
  | .vfmsVs _ _ _ _ => some (.fused .fms .vs)
  | .vfmsRay _ _ _ _ _ => some (.fused .fms .ray)
  | .vfnmaVv _ _ _ _ _ => some (.fused .fnma .vv)
  | .vfnmaVx _ _ _ _ _ => some (.fused .fnma .vx)
  | .vfnmaVs _ _ _ _ => some (.fused .fnma .vs)
  | .vfnmaRay _ _ _ _ _ => some (.fused .fnma .ray)
  | .vsaddVv _ _ _ _ _ => some (.arith .sadd .vv)
  | .vsaddVx _ _ _ _ _ => some (.arith .sadd .vx)
  | .vsaddVi _ _ _ _ _ => some (.arith .sadd .vi)
  | .vsaddVs _ _ _ _ => some (.arith .sadd .vs)
  | .vsaddRay _ _ _ _ _ => some (.arith .sadd .ray)
  | .vssubVv _ _ _ _ _ => some (.arith .ssub .vv)
  | .vssubVx _ _ _ _ _ => some (.arith .ssub .vx)
  | .vssubVi _ _ _ _ _ => some (.arith .ssub .vi)
  | .vssubVs _ _ _ _ => some (.arith .ssub .vs)
  | .vssubRay _ _ _ _ _ => some (.arith .ssub .ray)
  | .vceq _ _ _ _ _ => some (.cmp .eq false false)
  | .vcne _ _ _ _ _ => some (.cmp .eq false true)
  | .vcequ _ _ _ _ _ => some (.cmp .eq true false)
  | .vcneu _ _ _ _ _ => some (.cmp .eq true true)
  | .vclt _ _ _ _ _ => some (.cmp .lt false false)
  | .vcnlt _ _ _ _ _ => some (.cmp .lt false true)
  | .vcltu _ _ _ _ _ => some (.cmp .lt true false)
  | .vcnltu _ _ _ _ _ => some (.cmp .lt true true)
  | .vcle _ _ _ _ _ => some (.cmp .le false false)
  | .vcnle _ _ _ _ _ => some (.cmp .le false true)
  | .vcleu _ _ _ _ _ => some (.cmp .le true false)
  | .vcnleu _ _ _ _ _ => some (.cmp .le true true)
  | .vcun _ _ _ _ _ => some (.cmp .un false false)
  | .vcord _ _ _ _ _ => some (.cmp .un false true)
  | .vcsn _ _ _ _ => some (.cmp .sn true false)
  | .vcnsn _ _ _ _ => some (.cmp .sn true true)
  | .vsel _ _ _ _ => some (.sel)
  | .vmvVx _ _ _ _ => some (.mvX)
  | .vmvVi _ _ _ _ => some (.mvI)
  | .vmvX _ _ => some (.mvToX)
  | .vmvVv _ _ _ _ => some (.mvV)
  | .vcvt _ _ t _ _ => some (.cvt t false)
  | .vcvts _ _ t _ _ => some (.cvt t true)
  | .vneg _ _ _ _ => some (.unary .neg)
  | .vabs _ _ _ _ => some (.unary .abs)
  | .vsqrt _ _ _ _ => some (.unary .sqrt)
  | .vrcpe _ _ _ _ => some (.unary .rcpe)
  | .vrsqe _ _ _ _ => some (.unary .rsqe)
  | .vexp2 _ _ _ _ => some (.unary .exp2)
  | .vlog2 _ _ _ _ => some (.unary .log2)
  | .vclz _ _ _ _ => some (.unary .clz)
  | .vpopc _ _ _ _ => some (.unary .popc)
  | .vbrev _ _ _ _ => some (.unary .brev)
  | .vclass _ _ _ _ => some (.unary .class)
  | .vredsum _ _ _ _ => some (.red .sum)
  | .vredosum _ _ _ _ => some (.red .osum)
  | .vredmin _ _ _ _ => some (.red .min)
  | .vredmax _ _ _ _ => some (.red .max)
  | .vredand _ _ _ _ => some (.red .and)
  | .vredor _ _ _ _ => some (.red .or)
  | .vredxor _ _ _ _ => some (.red .xor)
  | .vargmax _ _ _ => some (.argmax)
  | .vcompress _ _ => some (.compress)
  | .vexpand _ _ => some (.expand)
  | .vpcnt _ _ _ => some (.vpcnt)
  | .vconfl _ _ _ => some (.confl)
  | .vslideup _ _ _ _ => some (.slideUp)
  | .vslidedn _ _ _ _ => some (.slideDn)
  | .vperm _ _ _ _ => some (.perm)
  | .viota _ _ _ => some (.iota)
  | .vsscanAdd _ _ => some (.scan .add)
  | .vsscanMin _ _ => some (.scan .min)
  | .vsscanMax _ _ => some (.scan .max)
  | .vsscanOr _ _ => some (.scan .or)
  | .vtopk _ _ _ _ => some (.topk)
  | .vinter _ _ _ _ => some (.inter)
  | .vsortk _ _ _ => some (.sortk)
  | .pand _ _ _ _ => some (.pred .and)
  | .por _ _ _ _ => some (.pred .or)
  | .pxor _ _ _ _ => some (.pred .xor)
  | .pnot _ _ _ => some (.pred .not)
  | .pmov _ _ _ => some (.pred .mov)
  | .pcnt _ _ _ => some (.pcnt)
  | .pfirst _ _ _ => some (.pfirst)
  | .vldUnit _ _ _ _ => some (.ld .unit false)
  | .vldStrided _ _ _ _ _ => some (.ld .strided false)
  | .vldIndexed _ _ _ _ => some (.ld .indexed false)
  | .vldffUnit _ _ _ _ => some (.ld .unit true)
  | .vldffStrided _ _ _ _ _ => some (.ld .strided true)
  | .vldffIndexed _ _ _ _ => some (.ld .indexed true)
  | .vstUnit _ _ _ _ => some (.st .unit)
  | .vstStrided _ _ _ _ _ => some (.st .strided)
  | .vstIndexed _ _ _ _ => some (.st .indexed)
  | .vstn _ _ _ _ _ => some (.stn)
  | .vrsAddUnit _ _ _ _ => some (.rs .add false)
  | .vrsAddIndexed _ _ _ _ _ => some (.rs .add true)
  | .vrsMinUnit _ _ _ _ => some (.rs .min false)
  | .vrsMinIndexed _ _ _ _ _ => some (.rs .min true)
  | .vrsMaxUnit _ _ _ _ => some (.rs .max false)
  | .vrsMaxIndexed _ _ _ _ _ => some (.rs .max true)
  | .vrsOrUnit _ _ _ _ => some (.rs .or false)
  | .vrsOrIndexed _ _ _ _ _ => some (.rs .or true)
  | .vspill _ _ => some (.spill)
  | .vfill _ _ => some (.fill)
  | .vprep _ _ _ => some (.prep)
  | .vtrimh _ _ _ => some (.trimh)
  | .vtrimt _ _ _ => some (.trimt)
  | .vsplit _ _ _ => some (.split)
  | .vjoin _ _ _ => some (.join)
  | .vshare _ _ => some (.share)
  | .vretype t _ _ => some (.retype (t.setWidth 4))
  | .vlen _ _ => some (.len)
  | .vfree _ => some (.free)
  | .vnorm _ _ => some (.norm)
  | .fclaim _ _ _ => some (.fclaim)
  | .frel => some (.frel)
  | .fins _ _ _ _ => some (.fins)
  | .fprobe _ _ _ _ _ => some (.fprobe)
  | .fdel _ _ _ => some (.fdel)
  | .faccAdd _ _ _ _ => some (.facc .add)
  | .faccMin _ _ _ _ => some (.facc .min)
  | .faccMax _ _ _ _ => some (.facc .max)
  | .faccOr _ _ _ _ => some (.facc .or)
  | .faccCount _ _ _ _ => some (.facc .count)
  | .fdrain _ _ => some (.fdrain)
  | _ => none

/-- The register or predicate number in a word's destination field (R238: a predicate stands in bits [9:7]). -/
def vectorDest (w : Word32) (op : VOp) : Nat :=
  match op with
  | .cmp _ _ _ | .pred _ => (w.extractLsb' 7 5).toNat % 8
  | _ => (w.extractLsb' 7 5).toNat

/-- The member that a VX or VM word becomes on entry to its convoy (R97): its fields, with the x registers it names as they stand. -/
def memberOf (s : State) (w : Word32) (op : VOp) : Member :=
  { word := w, op := op, masked := !w.getLsbD 25, d := vectorDest w op, a := (w.extractLsb' 15 5).toNat, b := (w.extractLsb' 20 5).toNat,
    xa := rx s (w.extractLsb' 15 5), xb := rx s (w.extractLsb' 20 5) }

end Sys2Proof
end

