-- ==== Sys2Proof/Certificates/Slice0/Obligations.lean ====
section
/-! DEFINITION. The statements for the provers: what the instructions and the steps of the device do, each from the rules of the spec it
cites. `Completes i s P` says that the instruction has a next state and P holds of it. A statement of several parts is the conjunction of
its claims, each with the rules it formalises. -/

namespace Sys2Proof

open Machine

/-! ## Where the steps of the device complete -/

/-- Where the steps of tasks, tenders, saves and runtime calls complete: `exec` answers a next state that has the step's own effect (R57 to R91, R143 to R155, R179 to R202, R265, R337, R344, R355, R367, R369). -/
def Claims.TaskStepsComplete : Prop :=
  ∀ (s u v : State) (ctx l n core part region : Nat) (obj node x y : Word) (e : Entry) (k : Task) (p : Part) (estat : BitVec 8) (ph : BitVec 2),
    let c := ctxAt s ctx
    let running (i : Instr) : Prop := Completes i s (fun t => (ctxAt t ctx).state = .running)
    let returns (i : Instr) : Prop := Completes i s (fun t => (ctxAt t ctx).pc = c.sepc + 4 ∧ getX (ctxAt t ctx) 10 = 0)
    let due (i j : Instr) : Prop := Completes i s (fun t => isDue t j = true)
    let units := x.toNat
    let space : Prop := x.toNat % 65536 = 0 ∧ y.toNat % 65536 = 0 ∧ x.toNat + y.toNat ≤ 2 ^ 47
    let pages := pagesOf x.toNat y.toNat
    (∀ pa, obj ≠ 0 → deviceAddr s part obj = .ok pa → Memory.wf s.mem = true → pa + 16 ≤ 8 * Config.hbmPerDie → Completes (.completionObjectUpdate part region obj estat) s (fun t =>
      recNat (getBytes pa 8 t.mem) 0 8 = (recNat (getBytes pa 8 s.mem) 0 8 + 1) % 2 ^ 64)) ∧
    (∀ pa, deviceAddr s part node = .ok pa → Memory.wf s.mem = true → pa + 128 ≤ 8 * Config.hbmPerDie → let pred := nodePred (getBytes pa 128 s.mem)
      1 < pred → ∀ i ∈ [Instr.predDecrement part region node core, .cancellingDecrement part region node core], Completes i s (fun t => recNat (getBytes (pa + 20) 2 t.mem) 0 2 = pred - 1)) ∧
    (c.task = some k → c.state = .waiting .retiring → releaseNow ctx .sys s = some u → (ctxAt u ctx).task = some k → failedCopies u k.thread = [] → Completes (.retireComplete ctx) s (fun t => ctxAt t ctx = Ctx.reset)) ∧
    (∀ r, regionAt s part region = some r →
      (r.state = .killing → r.retirers = [] → Completes (.killEnd part region) s (fun t => ∃ q, regionAt t part region = some q ∧ q.state = .active)) ∧
      (r.state = .retiring → r.live = 0 → r.outs = 0 → Completes (.regionRetire part region) s (fun t => regionAt t part region = none))) ∧
    (∀ (op : EngineOp) toFar space far off len size dims, s.engines.find? (fun e => e.num == op.num && e.failed.isNone) = some op → mayStart op s = true → op.kind = .copy toFar space far off len size dims → op.object = 0 →
      runMoves op (movesOf op.kind) s = (v, none) → Completes (.engineOperationComplete op.num) s (fun t => t.mem = v.mem ∧ ∀ e ∈ t.engines, e.num ≠ op.num)) ∧
    (∀ q, s.pending.find? (fun r => r.num == q.num) = some q → oldestOfLine s q = true → s.badCells = [] → Completes (.writeQueueApply q.num) s (fun t => t.pending = s.pending.filter (fun r => r.num != q.num))) ∧
    (∀ sc, c.release = some sc → phaseBusy c = false → (∀ q ∈ s.pending, ∀ j ∈ q.issuers, j.thread ≠ threadOf c) → (∀ j ∈ s.tokens, j.issuer.thread ≠ threadOf c) →
      Completes (.releaseComplete ctx) s (fun t => (ctxAt t ctx).release = none ∧ (ctxAt t ctx).phase = c.phase + 1)) ∧
    Completes (.phaseCountersCleared ctx ph) s (fun t => (ctxAt t ctx).uncleared = c.uncleared &&& ~~~(1#4 <<< ph.toNat)) ∧
    Completes (.lrReservationExpiry ctx) s (fun t => (ctxAt t ctx).resv = none) ∧
    (∀ (j : Token) e score rest, s.tokens.find? (·.num == j.num) = some j → Memory.wf s.mem = true → j.die < 8 →
      ((sortRanked (fun x y => decide (y < x)) (j.scores.zipIdx.map (fun x => (x.2, rank 9 false x.1)))).take 4).map (fun x => (x.1, j.scores.getD x.1 0)) = (e, score) :: rest → queueGranted s j e = true →
      recNat (getBytes (planeKey j.die (j.queues.getD e 0)) 4 s.mem) 0 4 < j.cap → j.cap < 65536 → Completes (.tokenArrival j.num) s (fun t => ∀ x ∈ t.tokens, x.num ≠ j.num)) ∧
    (entryAt s l n = some e → e.num = n → l < 9 →
      (eligible s core e = true → (coreAt s core).awards.all (·.committed) = true → slotFor s core e.part e ≠ none → due (.tenderArrival l n e.round core) (.bidReceive l n e.round core (some (bidCost s l core e)))) ∧
      (∀ bid, e.state = .tendering → (∀ a ∈ e.answers, a.1 ≠ core) → (∃ c ∈ e.asked, c ≠ core ∧ ∀ a ∈ e.answers, a.1 ≠ c) → Completes (.bidReceive l n e.round core bid) s (fun t =>
        entryAt t l n = some { e with answers := e.answers ++ [(core, bid)] })) ∧
      (e.state = .tendering → winner l e = some core → due (.bidWindowExpiry l n e.round) (.awardArrival l n e.round core)) ∧
      (e.state = .awarded core → eligible s core e = true → (dieAt s (dieOf core)).tlbHeld = [] → (∃ q, partAt s e.part = some q ∧ q.drain = none) → slotFor s core e.part e ≠ none → due (.awardArrival l n e.round core) (.commitReceive l n e.round core)) ∧
      (e.state = .awarded core → (∃ c ∈ tenderCores s l e, c ∉ e.leftOut ++ [core]) → ∀ i ∈ [Instr.withdrawalReceive l n e.round core, .commitTimeout l n e.round], Completes i s (fun t => ∃ x, entryAt t l n = some x ∧ x.state = .tendering)) ∧
      (∀ a d, (coreAt s core).awards.find? (fun a => a.locus == l && a.entry == n && !a.committed) = some a → e.state = .awarded core → e.origin = none → a.slot < 4 → (∀ b ∈ (coreAt s core).awards, b.slot = a.slot → b = a) → a.resume = none →
        (ctxAt s (core * 4 + a.slot)).task = none → deviceRead s a.part a.node 128 = some d → (coreAt s core).scored.length + (copiedIn d).length ≤ 32 →
        Completes (.commitReceive l n e.round core) s (fun t => (ctxAt t (core * 4 + a.slot)).state = .running ∧ (ctxAt t (core * 4 + a.slot)).pc = BitVec.ofNat 64 (nodeEntry d))) ∧
      Completes (.tenderPriorityRise l n) s (fun t => ∃ x, entryAt t l n = some x ∧ x.rises = e.rises + 1) ∧
      (l < 8 → e.state = .escalated → (locusAt s 8).entries.length < 1048576 → (∀ y ∈ (locusAt s 8).entries, y.num ≠ (locusAt s 8).nextEntry) →
        Completes (.escalatedTenderReceive l n) s (fun t => ∃ x ∈ (locusAt t 8).entries, x.origin = some (l, n) ∧ x.node = e.node)) ∧
      (e.state = .dispatched → Completes (.hubTenderResult l n true) s (fun t => ∀ x ∈ (locusAt t l).entries, x.num ≠ n))) ∧
    (let open' (f : Entry) : Prop := f ∈ (locusAt s l).entries ∧ f.state = .waiting ∧ f.due = true ∧ ¬(f.resume = none ∧ ∃ i ∈ ancestry s f.part f.region, ∃ r, regionAt s f.part i = some r ∧ r.eff.ctxs ≤ r.ctxUse)
     runningTenders (locusAt s l) < 8 → (∃ f, open' f) → ∃ f, open' f ∧ (entryAt s l f.num = some f → (∃ c ∈ tenderCores s l f, c ∉ f.leftOut) → Completes (.tenderStart l) s (fun t => ∃ x, entryAt t l f.num = some x ∧ x.state = .tendering))) ∧
    (∀ h rest tseq, (locusAt s l).heldSubs = h :: rest → h.resume = none → h.grun = none → (locusAt s l).entries.length < 1048576 → let w := updLocus l (fun x => { x with heldSubs := rest }) s
      (∀ d, ((deviceRead w h.part h.node 128).bind (gangPlace w)).map (·.1) = some d → d ≠ l → locusFull (locusAt w d) = false) → submitFrom true h.part h.node l h.submitter h.submitter.isNone w = (v, .accepted tseq) →
      Completes (.locusWaitingSubmissionEnter l) s (fun t => locusAt t l = locusAt v l)) ∧
    (∀ r w f, c.state = .saving r w f →
      (c.release = none → loadsTile s ctx = false → due (.saveOwedWritesDelivered ctx) (.saveImageWritten ctx)) ∧
      (c.task = some k → c.release = none → (coreAt s (ctx / 4)).awards = [] → Memory.wf s.mem = true → (∀ q ∈ s.pending, ∀ j ∈ q.issuers, j.thread ≠ threadOf c) → (∀ j ∈ s.tokens, j.issuer.thread ≠ threadOf c) →
        Completes (.saveImageWritten ctx) s (fun t => ctxAt t ctx = Ctx.reset ∧ ∃ z ∈ t.saved, z.frame = f ∧ z.task = k))) ∧
    (∀ a f, (coreAt s (ctx / 4)).awards.find? (fun a => a.committed && a.slot == ctx % 4) = some a → c.task ≠ none → c.state = .running → a.frame = some f → ∀ i ∈ [Instr.convoyBoundaryStop ctx, .preemptionStopTimeout ctx],
      Completes i s (fun t => (ctxAt t ctx).state = .saving (if a.swap then .wait else .preempt) none f)) ∧
    (ctx < 2 ^ 32 → Completes (.protectionExpiry ctx) s (fun t => (ctxAt t ctx).isProtected = false)) ∧
    (c.task = some k → partAt s k.part = some p →
      let mine (j : Nat) : Prop := lookupKey (y.toNat / 65536 + j) (dieAt s (dieOf (ctx / 4))).plane = some (k.part, k.region)
      (1 ≤ units → units ≤ 1024 → (∀ i ∈ ancestry s k.part k.region, ∀ r, regionAt s k.part i = some r → r.planeUse + units ≤ r.eff.plane) →
        (∃ b, b + units ≤ 1024 ∧ ∀ j < units, lookupKey (b + j) (dieAt s (dieOf (ctx / 4))).plane = none) → returns (.planeAllocate ctx x)) ∧
      (y.toNat % 65536 = 0 → 1 ≤ units → y.toNat / 65536 + units ≤ 1024 → (∀ j < units, mine j) → returns (.planeFree ctx y x)) ∧
      (∀ m, space → leavesOf s p pages = some m → (∀ d ∈ partDies p, (pinInto k.region m (dieAt s d).tlb).countP (fun e => e.pinned.isSome && !e.revoked) ≤ 2048) → returns (.pin ctx x y)) ∧
      (space → (∀ d ∈ partDies p, ∀ va ∈ pages, ∃ e ∈ (dieAt s d).tlb, pinnedBy k.part k.region va e = true) → returns (.unpin ctx x y)) ∧
      (x.toNat % 65536 = 0 → y.toNat % 65536 = 0 → Completes (.invalidate ctx x y 1) s (fun t => ∃ req, (ctxAt t ctx).state = .waiting (.invalidation req))) ∧
      (∀ q, s.invals.find? (·.num == q.num) = some q → due (.dieTlbHoldEnd q.num) (.rangedInvalidationComplete q.num) ∧
        (transfersIn s q = false → q.drain = false → q.asker = some k.thread → slotOfThread s k.thread = some ctx → c.state = .waiting (.invalidation q.num) → returns (.rangedInvalidationComplete q.num))) ∧
      (p.drain = some .operations → Completes (.drainOperationsSettled k.part) s (fun t => ∀ q, partAt t k.part = some q → q.drain = some .invalidating)) ∧
      (∀ h, c.state = .waiting (.rayPermit h) → Completes (.rayPermitWaitExpiry ctx) s (fun t => ∃ w, t = standFaulted ctx k.thread (deliver k.part k.region
        { cause := c.scause.toNat, core := ctx / 4, slot := ctx % 4, node := k.node, detail := c.stval } (some k.thread) false w)))) ∧
    (c.state = .waiting .poolEmpty → running (.poolEmptyRestart ctx)) ∧ (∀ h, c.state = .waiting (.rayPermit h) → running (.rayPermitResume ctx)) ∧
    (c.state = .waiting .poolEmpty → c.task = none → Completes (.poolEmptyWaitExpiry ctx) s (fun t => ∀ m ∈ t.timers, m.event ≠ .poolEmptyWaitExpiry ctx)) ∧
    (∀ single, c.state = .waiting .debugger → c.priv = .u → running (.debuggerResume ctx single)) ∧
    (∀ rd o target, ctx < 2 ^ 32 → slotOfThread s (threadOf c) = some ctx → c.state = .waiting (.twait rd o target) → running (.regionWatchdogExpiry ctx)) ∧
    (∀ page q e f b, (part, page) ∈ s.fetches → partAt s part = some q → stillRemote s q page = true → fetchSource s q page = some (e, f, b) → Completes (.pageFetchComplete part page true) s (fun t => (part, page) ∉ t.fetches))

/-- Where the steps of clocks, queues, commands, boot, the management port, links and memory from outside complete: `exec` answers a next state that has the step's own effect (R10 to R52, R54, R64, R73, R132, R197). -/
def Claims.DeviceStepsComplete : Prop :=
  ∀ (s v : State) (d p q n a0 a1 : Nat) (hseq : BitVec 32) (x : Word) (c : Cmd) (a : Auth) (img : List Byte) (told : BitVec 5) (nonce : BitVec 256),
    let k := (dieAt s d).clock
    let w := queueAt s q
    let now (i : Instr) (f : State → Prop) : Prop := Completes i s f
    let clock (i : Instr) (f : Clock → Prop) : Prop := Completes i s (fun t => f (dieAt t d).clock)
    let queue (i : Instr) (f : Queue → Prop) : Prop := Completes i s (fun t => f (queueAt t q))
    let axis (i : Instr) (f : Axis → Prop) : Prop := Completes i s (fun t => f t.axis)
    let port (i : Instr) (f : Port → Prop) : Prop := Completes i s (fun t => f (portAt t d p))
    let answered (i : Instr) : Prop := queue i (fun z => ∃ e, z.due = w.due ++ [e] ∧ e.hseq = hseq ∧ e.status = 0 ∧ e.event = false)
    (d < 8 → (∀ r, k.stage = some .raising → k.current = some r → clock (.supplyRampDone d) (fun z => z.supply = minSupply r.ratio)) ∧
      (∀ r, k.stage = some .relocking → k.current = some r → clock (.relockEnd d) (fun z => z.ratio = r.ratio)) ∧ clock (.thermalPolicy d n) (fun z => z.temp = n)) ∧
    (q < 64 → s.axis.windows = true →
      queue (.qdbellWrite q x) (fun z => z.dbell = x.setWidth 32) ∧ queue (.qwdogWrite q x) (fun z => z.wdog = x.setWidth 32) ∧
      (seqLe (x.setWidth 32) w.dseq = true → queue (.qaconsWrite q x) (fun z => z.acons = x.setWidth 32)) ∧
      (w.state = .disabled → queue (.qctlEnSet q x) (fun z => z.holdBit = x.getLsbD 2 ∧ z.alog2 = (x.extractLsb' 19 5).toNat) ∧ queue (.queueRegisterWrite q 0x008 8 x) (fun z => z.sbase = x)) ∧
      (w.state = .running → w.cmds = [] → queue (.qctlEnClear q x) (fun z => z.state = .disabled)) ∧
      (x.getLsbD 0 = true → x.getLsbD 1 = false → x.getLsbD 3 = false → let on : QState := if x.getLsbD 2 then .held else .running
        (w.state = .halted → queue (.qctlResume q x) (fun z => z.state = on) ∧ queue (.qctlDisc q x) (fun z => z.slot = w.dbell)) ∧ (w.state = .running → queue (.qctlHold q x) (fun z => z.state = on)))) ∧
    (q < 64 → s.axis.stage = .ready →
      (canConsume w = true → let slot := physRead s (w.sbase.toNat + w.slot.toNat % 2 ^ w.slog2 * 64) 64
        recNat slot 6 2 = slotCheck slot → BitVec.ofNat 32 (recNat slot 0 4) = w.hseq + 1 → queue (.slotConsume q) (fun z => z.slot = w.slot + 1 ∧ ∃ c, z.cmds = w.cmds ++ [c])) ∧
      (w.due ≠ [] → canEmit w = true → w.state ≠ .draining → (∀ p ∈ s.parts, p.drain = none) → s.waitingDrains = [] → queue (.answerEmit q) (fun z => z.dseq = w.dseq + 1)) ∧
      (∀ id z, q ≠ 0 → w.state = .running → w.wdog ≠ 0 → w.cmds ≠ [] → w.wleft = 0 → w.part = some id → partAt s id = some z → z.drain = none → copying s id = false → queue (.watchdogExpiry q) (fun z => z.state = .draining))) ∧
    (q < 64 → cmdAt s q hseq = some c → c.begun = false → c.flags = 0 → (∀ e ∈ w.due, e.event = true ∨ e.hseq ≠ hseq) → a0 = (c.args.getD 0 0).toNat → a1 = (c.args.getD 1 0).toNat →
      ((∀ e ∈ c.args, e = 0) → answered (.nop q hseq) ∧ (earliest s q hseq = true → answered (.qfence q hseq))) ∧
      queue (.reservedOpcode q hseq) (fun z => ∃ e, z.due = w.due ++ [e] ∧ e.status = 1) ∧
      ((∀ e ∈ c.args.drop 1, e = 0) →
        (a0 < 2 ^ 32 → answered (.wdog q hseq)) ∧
        (∀ z, mayDestroy s a0 = true → partAt s a0 = some z → z.drain = none → copying s a0 = false → now (.pdestroy q hseq) (fun t => ∃ z, partAt t a0 = some z ∧ z.drain = some .operations ∧ (q, hseq) ∈ z.destroy)) ∧
        (∀ z, q = 0 → partAt s a0 = some z → z.drain = none → copying s a0 = false → now (.pdrain q hseq) (fun t => ∃ z, partAt t a0 = some z ∧ z.drain = some .operations)) ∧
        (∀ id r, w.part = some id → regionAt s id (a0 % 65536) = some r → a0 / 65536 = id → r.idx ≠ 0 → r.state = .active → (∀ y ∈ s.regions, y.part = id → y.parent = some r.idx → y.state = .retired) →
          now (.rretire q hseq) (fun t => ∃ y, regionAt t id r.idx = some y ∧ y.state = .retiring ∧ (q, hseq) ∈ y.retirers))) ∧
      ((∀ e ∈ c.args.drop 2, e = 0) →
        (createPart a0 a1 s = some v → (settleQuiesced s).parts = s.parts → now (.pcreate q hseq) (fun t => ∃ z ∈ t.parts, z.id = a1)) ∧
        (1 ≤ a0 → a0 < 64 → (queueAt s a0).state = .disabled → a1 = 0xFF → now (.qbind q hseq) (fun t => (queueAt t a0).part = none)) ∧
        (∀ id idx, w.part = some id → createRegion id (c.args.getD 0 0) (c.args.getD 1 0) s = some (idx, v) → answered (.rcreate q hseq)) ∧
        (d < 8 → a0 = 2 ^ d → 6 ≤ a1 → a1 ≤ 18 → k.stage = none → k.ratio ≠ a1 → clock (.fstep q hseq) (fun z => z.current = some { ratio := a1, askers := [(q, hseq)] }))) ∧
      (∀ z id, (∀ e ∈ c.args.drop 2, e = 0) → q ≠ 0 → w.part = some id → a1 = 0 → partAt s id = some z → a0 % 2 ^ 30 = 0 → a0 + z.hlen ≤ Config.tierSize →
        ∀ i ∈ [Instr.cksave q hseq, .ckload q hseq], now i (fun t => t.checkpoints.length = s.checkpoints.length + 1)) ∧
      (∀ id o tseq, w.part = some id → (∀ e ∈ c.args.drop 3, e = 0) → a1 % 16 = 0 → submitNode id (c.args.getD 0 0) w.home none true (updCmd q hseq (fun c => { c with begun := true }) s) = (v, .accepted tseq) →
        deviceRead v id (c.args.getD 1 0) 16 = some o → (c.args.getD 2 0).toNat ≤ recNat o 0 8 → answered (.grun q hseq)) ∧
      (∀ z y pid, checkpointAt s q hseq = some z → z.all = false → z.parts = [pid] → partAt s pid = some y → Memory.wf s.mem = true →
        (z.copying = false → now (.checkpointQuiesced q hseq) (fun t => isDue t (.checkpointCopyComplete q hseq) = true)) ∧
        (z.copying = true → answered (.checkpointCopyComplete q hseq) ∧ queue (.checkpointCxlError q hseq n) (fun z => ∃ e, z.due = w.due ++ [e] ∧ e.hseq = hseq ∧ e.status = 9)))) ∧
    axis .powerOnReset (fun z => z.store.boots = s.axis.store.boots + 1 ∧ z.powered = true) ∧ axis .powerFail (fun z => z.powered = false) ∧
    (s.axis.powered = true →
      (s.axis.stage = .rom →
        (x.toNat % 2 ^ 24 ≠ 0 → axis (.bootlenWrite x) (fun z => z.bootLen = x.toNat % 2 ^ 24)) ∧ axis .bootSourceNoAnswer (fun z => z.tried = s.axis.tried + 1) ∧
        (hostSource s = false → imageFault s 1 img = none → axis (.bootImageFetched img) (fun z => z.stage = .bringup ∧ z.firmware = img))) ∧
      (told ≠ 0 → axis (.alarmTrip told) (fun z => z.alarm.tripped = s.axis.alarm.tripped ||| (told ||| causesOf s))) ∧
      (∀ i ∈ [Instr.identity, .attest nonce, .status], axis i (fun z => ∃ m, z.mgmt = s.axis.mgmt ++ [m])) ∧
      (∀ o, s.axis.stage ≠ .halted → s.axis.store.operators = [] → img.length < 256 → o = [img] → a.key = 0 → s.axis.store.keys = none → (lastCounter s.axis.store img).toNat < a.counter.toNat →
        Config.requestSigned img 9 (img.length :: img.map (·.toNat)) a.counter a.sig = true → axis (.provision a o) (fun z => z.store.keys ≠ none)) ∧
      (∀ key last, s.axis.stage = .ready → s.axis.store.operators[a.key]? = some (key, last) → last.toNat < a.counter.toNat →
        let takes (svc : Nat) (args : List Nat) (i : Instr) (m : MgmtAnswer) : Prop := Config.requestSigned key svc args a.counter a.sig = true → axis i (fun z => z.store.operators = setAt s.axis.store.operators a.key (key, a.counter) ∧ z.mgmt = s.axis.mgmt ++ [m])
        (d ≤ 8 → takes 3 [d, hseq.toNat] (.logRead a d hseq) (.log ((dieAt s d).log.filter (fun e => seqLe hseq e.seq)))) ∧
        (d ≤ 8 → n < 32 → takes 4 [d, n] (.counters a d n none) (.counter (dieCounter s d n).sel (dieCounter s d n).cnt)) ∧
        (recNat img 4 4 = 1 → imageFault s 1 img = none → takes 5 (img.map (·.toNat)) (.firmware a img) (.firmware true)) ∧
        (bindQueue x.toNat 0xFF s ≠ none → takes 6 [3, x.toNat, 0xFF] (.partition a 3 x 0xFF) (.partition 0 0)) ∧
        (d < 8 → 6 ≤ n → n ≤ 18 → takes 7 [d, n] (.step a d n) (.step true)) ∧ takes 8 [] (.alarm a none) (.alarm (alarmBits s.axis.alarm) s.axis.alarm.locked))) ∧
    (s.axis.stage = .bringup → imageFault s 2 (runtimeImage img s) = none → axis (.firmwareBringup img) (fun z => z.stage = .ready ∧ z.dies = 0xFF)) ∧
    (s.axis.store.erasing = true → axis .keyStoreEraseDone (fun z => z.store.keys = none ∧ z.store.erasing = false)) ∧
    (∀ (h : BitVec 64) (payload : BitVec 512), d ≤ 8 → p < 8 → (portAt s d p).up = true → relocking (dieAt s d) = false → h.toNat / 2 ^ 48 = flitCrc h payload → badFlit h = false → flitAck h = 0 → flitDst h = d →
      flitSeq h = (portAt s d p).seqIn → port (.flitReceive d p h payload) (fun z => z.inbox = (portAt s d p).inbox ++ [(h, payload)])) ∧
    (d < 8 → p < 4 → (portAt s d p).down = false → port (.linkRetrain d p) (fun z => z.up = false) ∧ port (.linkTrainingComplete d p true) (fun z => z.up = true) ∧ port (.linkDown d p) (fun z => z.down = true)) ∧
    (∀ (pkg : BitVec 16) (f : BitVec 64 × BitVec 512), p < 16 → f.1.toNat / 2 ^ 48 = flitCrc f.1 f.2 → badFlit f.1 = false → flitAck f.1 = 0 → flitSeq f.1 = fabricSeq s p →
      now (.fabricFrameReceive p pkg [f]) (fun t => t.fabric.delivered = s.fabric.delivered ++ [(p, pkg, f.1, f.2)])) ∧
    now (.fabricReplayTimeout p) (fun t => t.fabric.sent = s.fabric.sent ++ s.fabric.unacked.filter (·.1 == p)) ∧
    (img ≠ [] → n + img.length ≤ 8 * Config.hbmPerDie → Memory.wf s.mem = true → now (.hostMemoryWrite n img) (fun t => getBytes n img.length t.mem = img)) ∧
    (n < 8 * Config.hbmPerDie → now (.memoryError 5 n false) (fun t => t.badCells = s.badCells ++ [(n / 8 * 8, 8)]))

/-! ## The scalar base -/

/-- The register a word of the scalar base writes and the value it gives it, in the terms of R245. -/
def scalarResult (s : State) : Instr → Option (BitVec 5 × Word)
  | .lui u d => some (d, (u ++ 0#12 : BitVec 32).signExtend 64)
  | .auipc u d => some (d, s.cur.pc + (u ++ 0#12 : BitVec 32).signExtend 64)
  | .addi i a d => some (d, rx s a + i.signExtend 64)
  | .slti i a d => some (d, if (rx s a).toInt < (i.signExtend 64).toInt then 1 else 0)
  | .sltiu i a d => some (d, if (rx s a).toNat < (i.signExtend 64).toNat then 1 else 0)
  | .xori i a d => some (d, rx s a ^^^ i.signExtend 64)
  | .ori i a d => some (d, rx s a ||| i.signExtend 64)
  | .andi i a d => some (d, rx s a &&& i.signExtend 64)
  | .slli h a d => some (d, BitVec.ofNat 64 ((rx s a).toNat * 2 ^ h.toNat))
  | .srli h a d => some (d, BitVec.ofNat 64 ((rx s a).toNat / 2 ^ h.toNat))
  | .srai h a d => some (d, BitVec.ofInt 64 ((rx s a).toInt / 2 ^ h.toNat))
  | .add b a d => some (d, rx s a + rx s b)
  | .sub b a d => some (d, rx s a - rx s b)
  | .sll b a d => some (d, BitVec.ofNat 64 ((rx s a).toNat * 2 ^ ((rx s b).toNat % 64)))
  | .slt b a d => some (d, if (rx s a).toInt < (rx s b).toInt then 1 else 0)
  | .sltu b a d => some (d, if (rx s a).toNat < (rx s b).toNat then 1 else 0)
  | .xor b a d => some (d, rx s a ^^^ rx s b)
  | .srl b a d => some (d, BitVec.ofNat 64 ((rx s a).toNat / 2 ^ ((rx s b).toNat % 64)))
  | .sra b a d => some (d, BitVec.ofInt 64 ((rx s a).toInt / 2 ^ ((rx s b).toNat % 64)))
  | .or b a d => some (d, rx s a ||| rx s b)
  | .and b a d => some (d, rx s a &&& rx s b)
  | .mul b a d => some (d, BitVec.ofInt 64 ((rx s a).toInt * (rx s b).toInt))
  | .mulh b a d => some (d, BitVec.ofInt 64 ((rx s a).toInt * (rx s b).toInt / 2 ^ 64))
  | .mulhsu b a d => some (d, BitVec.ofInt 64 ((rx s a).toInt * (rx s b).toNat / 2 ^ 64))
  | .mulhu b a d => some (d, BitVec.ofNat 64 ((rx s a).toNat * (rx s b).toNat / 2 ^ 64))
  | .div b a d => some (d, if rx s b = 0 then BitVec.allOnes 64 else BitVec.ofInt 64 ((rx s a).toInt.tdiv (rx s b).toInt))
  | .divu b a d => some (d, if rx s b = 0 then BitVec.allOnes 64 else BitVec.ofNat 64 ((rx s a).toNat / (rx s b).toNat))
  | .rem b a d => some (d, if rx s b = 0 then rx s a else BitVec.ofInt 64 ((rx s a).toInt.tmod (rx s b).toInt))
  | .remu b a d => some (d, if rx s b = 0 then rx s a else BitVec.ofNat 64 ((rx s a).toNat % (rx s b).toNat))
  | .addiw i a d => some (d, ((rx s a + i.signExtend 64).setWidth 32).signExtend 64)
  | .slliw h a d => some (d, (((rx s a).setWidth 32) <<< h.toNat).signExtend 64)
  | .srliw h a d => some (d, (((rx s a).setWidth 32) >>> h.toNat).signExtend 64)
  | .sraiw h a d => some (d, BitVec.ofInt 64 (((rx s a).setWidth 32).toInt / 2 ^ h.toNat))
  | .addw b a d => some (d, ((rx s a + rx s b).setWidth 32).signExtend 64)
  | .subw b a d => some (d, ((rx s a - rx s b).setWidth 32).signExtend 64)
  | .sllw b a d => some (d, (((rx s a).setWidth 32) <<< ((rx s b).toNat % 32)).signExtend 64)
  | .srlw b a d => some (d, (((rx s a).setWidth 32) >>> ((rx s b).toNat % 32)).signExtend 64)
  | .sraw b a d => some (d, BitVec.ofInt 64 (((rx s a).setWidth 32).toInt / 2 ^ ((rx s b).toNat % 32)))
  | .mulw b a d => some (d, ((rx s a * rx s b).setWidth 32).signExtend 64)
  | .divw b a d =>
    let x := (rx s a).setWidth 32; let y := (rx s b).setWidth 32
    some (d, if y = 0 then BitVec.allOnes 64 else (BitVec.ofInt 32 (x.toInt.tdiv y.toInt)).signExtend 64)
  | .divuw b a d =>
    let x := (rx s a).setWidth 32; let y := (rx s b).setWidth 32
    some (d, if y = 0 then BitVec.allOnes 64 else (BitVec.ofNat 32 (x.toNat / y.toNat)).signExtend 64)
  | .remw b a d =>
    let x := (rx s a).setWidth 32; let y := (rx s b).setWidth 32
    some (d, if y = 0 then x.signExtend 64 else (BitVec.ofInt 32 (x.toInt.tmod y.toInt)).signExtend 64)
  | .remuw b a d =>
    let x := (rx s a).setWidth 32; let y := (rx s b).setWidth 32
    some (d, if y = 0 then x.signExtend 64 else (BitVec.ofNat 32 (x.toNat % y.toNat)).signExtend 64)
  | _ => none

/-- The scalar arithmetic of R245: every word writes its result and goes on to the next word; a destination x0 keeps 0. -/
def Claims.ScalarArithmetic : Prop :=
  ∀ (i : Instr) (s : State) (d : BitVec 5) (v : Word), s.cur.convoy = [] → scalarResult s i = some (d, v) →
    Completes i s (fun t => getX t.cur d = (if d = 0 then 0 else v) ∧ t.cur.pc = s.cur.pc + 4 ∧ OnlyRegister d s t)

/-! ## Bit fields, jumps and branches -/

/-- Bit fields (R263): with off and w the low seven bits of the two registers, every bit of the result. -/
def Claims.BitFields : Prop :=
  ∀ (e b a d : BitVec 5) (s : State), s.cur.convoy = [] →
    let off := (rx s b).toNat % 128
    let w := (rx s e).toNat % 128
    let top := min (off + w) 64
    Completes (.bfx e b a d) s (fun t => t.cur.pc = s.cur.pc + 4 ∧ OnlyRegister d s t ∧
      ∀ i < 64, (getX t.cur d).getLsbD i = (decide (d ≠ 0) && decide (off + i < top) && (rx s a).getLsbD (off + i))) ∧
    Completes (.bfxs e b a d) s (fun t => t.cur.pc = s.cur.pc + 4 ∧ OnlyRegister d s t ∧
      ∀ i < 64, (getX t.cur d).getLsbD i =
        (decide (d ≠ 0) && decide (w ≠ 0) && decide (off < 64) && (rx s a).getLsbD (min (off + i) (top - 1)))) ∧
    Completes (.bfi e b a d) s (fun t => t.cur.pc = s.cur.pc + 4 ∧ OnlyRegister d s t ∧
      ∀ i < 64, (getX t.cur d).getLsbD i =
        (decide (d ≠ 0) && if off ≤ i ∧ i < top then (rx s a).getLsbD (i - off) else (rx s d).getLsbD i))

/-- What a jump or a branch does: the register it links (x0 for a branch), its target, and whether it goes there (R245). -/
def jumpOf (s : State) : Instr → Option (BitVec 5 × Word × Prop)
  | .jal j d => some (d, s.cur.pc + immJ j, True)
  | .jalr i a d => some (d, (rx s a + i.signExtend 64) &&& ~~~1#64, True)
  | .beq h b a l => some (0, s.cur.pc + immB h l, rx s a = rx s b)
  | .bne h b a l => some (0, s.cur.pc + immB h l, rx s a ≠ rx s b)
  | .blt h b a l => some (0, s.cur.pc + immB h l, (rx s a).toInt < (rx s b).toInt)
  | .bge h b a l => some (0, s.cur.pc + immB h l, (rx s b).toInt ≤ (rx s a).toInt)
  | .bltu h b a l => some (0, s.cur.pc + immB h l, (rx s a).toNat < (rx s b).toNat)
  | .bgeu h b a l => some (0, s.cur.pc + immB h l, (rx s b).toNat ≤ (rx s a).toNat)
  | _ => none

/-- Jumps and branches (R245, R246): one that goes to an aligned target goes there and links. -/
def Claims.JumpsAndBranches : Prop :=
  ∀ (i : Instr) (s : State) (d : BitVec 5) (target : Word) (goes : Prop), s.cur.convoy = [] → jumpOf s i = some (d, target, goes) →
    (goes → target.toNat % 4 = 0 → Completes i s (fun t => t.cur.pc = target ∧ (d ≠ 0 → getX t.cur d = s.cur.pc + 4) ∧ OnlyRegister d s t)) ∧
    (¬goes → Completes i s (fun t => t.cur.pc = s.cur.pc + 4 ∧ OnlyRegister 0 s t)) ∧
    (goes → target.toNat % 4 ≠ 0 → Completes i s (ScalarTrapped 0 target s))

/-! ## Scalar memory -/

/-- A load: its bytes, whether it extends the sign, and its operands (R245). -/
def loadForm : Instr → Option (Nat × Bool × BitVec 12 × BitVec 5 × BitVec 5)
  | .lb i a d => some (1, true, i, a, d)
  | .lh i a d => some (2, true, i, a, d)
  | .lw i a d => some (4, true, i, a, d)
  | .ld i a d => some (8, true, i, a, d)
  | .lbu i a d => some (1, false, i, a, d)
  | .lhu i a d => some (2, false, i, a, d)
  | .lwu i a d => some (4, false, i, a, d)
  | _ => none

/-- A value of n bytes in a register. -/
def extended (n : Nat) (signed : Bool) (v : Nat) : Word :=
  if signed then (BitVec.ofNat (8 * n) v).signExtend 64 else (BitVec.ofNat (8 * n) v).setWidth 64

/-- Scalar loads (R137, R143, R197, R245, R246): a misaligned address traps with code 4 and an address that faults with its class. -/
def Claims.Loads : Prop :=
  ∀ (i : Instr) (s : State) (n : Nat) (signed : Bool) (imm : BitVec 12) (a d : BitVec 5), s.cur.convoy = [] →
    loadForm i = some (n, signed, imm, a, d) →
    let va := rx s a + imm.signExtend 64
    let done (v : Nat) (t : State) : Prop :=
      getX t.cur d = (if d = 0 then 0 else extended n signed v) ∧ (∀ r, r ≠ d → getX t.cur r = getX s.cur r) ∧
        t.cur = { s.cur with x := t.cur.x, pc := s.cur.pc + 4 } ∧ OnlyFocusAndTlb s t
    (va.toNat % n ≠ 0 → Completes i s (ScalarTrapped 4 va s)) ∧
    (va.toNat % n = 0 → ∀ f, scalarPlace s (who s) .load va.toNat = .error f → f ≠ 27 → f ≠ heldCode → Completes i s (ScalarTrapped f va s)) ∧
    (va.toNat % n = 0 → scalarPlace s (who s) .load va.toNat = .error heldCode → Completes i s (· = s)) ∧
    (va.toNat % n = 0 → ∀ k use, scalarPlace s (who s) .load va.toNat = .ok (.mem k, use) → scoreboardStalls s k n false = false →
      hasError k n s = false → Completes i s (done (natOf (seeBytes s .scalar k n)))) ∧
    (va.toNat % n = 0 → ∀ q off use, scalarPlace s (who s) .load va.toNat = .ok (.queueReg q off, use) →
      Completes i s (done (readQueueReg s q off n).toNat))

/-- A store: its bytes and operands (R245). -/
def storeForm : Instr → Option (Nat × BitVec 7 × BitVec 5 × BitVec 5 × BitVec 5)
  | .sb h b a l => some (1, h, b, a, l)
  | .sh h b a l => some (2, h, b, a, l)
  | .sw h b a l => some (4, h, b, a, l)
  | .sd h b a l => some (8, h, b, a, l)
  | _ => none

/-- Scalar stores (R137, R143, R178, R245, R246, R265): a misaligned address traps with code 6 and an address that faults with its class. -/
def Claims.Stores : Prop :=
  ∀ (i : Instr) (s : State) (n : Nat) (h : BitVec 7) (b a l : BitVec 5), s.cur.convoy = [] → storeForm i = some (n, h, b, a, l) →
    let va := rx s a + (h ++ l : BitVec 12).signExtend 64
    (va.toNat % n ≠ 0 → Completes i s (ScalarTrapped 6 va s)) ∧
    (va.toNat % n = 0 → ∀ f, scalarPlace s (who s) .store va.toNat = .error f → f ≠ 27 → f ≠ heldCode → Completes i s (ScalarTrapped f va s)) ∧
    (va.toNat % n = 0 → scalarPlace s (who s) .store va.toNat = .error heldCode → Completes i s (· = s)) ∧
    (va.toNat % n = 0 → Memory.wf s.mem = true → s.cur.release = none →
      ∀ k use, scalarPlace s (who s) .store va.toNat = .ok (.mem k, use) → scoreboardStalls s k n true = false → partialOnError k n s = false →
      Completes i s (fun t =>
        (∀ j < n, getByte (k + j) t.mem = (rx s b).extractLsb' (8 * j) 8 ∨
          (getByte (k + j) t.mem = getByte (k + j) s.mem ∧ ∃ e ∈ s.cur.stale, e.toScalar = true ∧ e.key ≤ k + j ∧ k + j < e.key + e.old.length)) ∧
        SameOutside k n s t ∧ t.cur = { s.cur with pc := s.cur.pc + 4, stale := t.cur.stale } ∧
        (∀ key, key ≠ s.curKey → ctxAt t key = { ctxAt s key with resv := (ctxAt t key).resv, stale := (ctxAt t key).stale } ∧
          (ctxAt t key).resv ≠ some (k / 64)))) ∧
    (va.toNat % n = 0 → s.cur.release = none → ∀ q off use, scalarPlace s (who s) .store va.toNat = .ok (.queueReg q off, use) →
      Completes i s (fun t => t.cur = { s.cur with pc := s.cur.pc + 4 } ∧ t.mem = s.mem ∧ ∀ j, queueAt t j = queueAt (writeQueueReg q off n (rx s b) s) j))

/-- A read-modify-write atomic: its aq, rl and width bits, its operands and what it writes, of the old value and the operand (R245). -/
def amoForm : Instr → Option (BitVec 1 × BitVec 1 × BitVec 1 × BitVec 5 × BitVec 5 × BitVec 5 × ((m : Nat) → BitVec m → BitVec m → BitVec m))
  | .amoswap q r b a w d => some (q, r, w, b, a, d, fun _ _ y => y)
  | .amoadd q r b a w d => some (q, r, w, b, a, d, fun _ x y => x + y)
  | .amoxor q r b a w d => some (q, r, w, b, a, d, fun _ x y => x ^^^ y)
  | .amoand q r b a w d => some (q, r, w, b, a, d, fun _ x y => x &&& y)
  | .amoor q r b a w d => some (q, r, w, b, a, d, fun _ x y => x ||| y)
  | .amomin q r b a w d => some (q, r, w, b, a, d, fun _ x y => if x.toInt ≤ y.toInt then x else y)
  | .amomax q r b a w d => some (q, r, w, b, a, d, fun _ x y => if x.toInt ≤ y.toInt then y else x)
  | .amominu q r b a w d => some (q, r, w, b, a, d, fun _ x y => if x.toNat ≤ y.toNat then x else y)
  | .amomaxu q r b a w d => some (q, r, w, b, a, d, fun _ x y => if x.toNat ≤ y.toNat then y else x)
  | _ => none

/-- The state in which an atomic acts: after its release where rl is set (R264). -/
def atomicStart (r : BitVec 1) (s : State) : Option State := if r = 1 then releaseNow s.curKey .sys s else some s

/-- The state in which an atomic reads its location: behind the older entries of its line in the write queue of its home (R151). -/
def atHome (k : Nat) (use : Option (TlbEntry × Source)) (u : State) : State := applyLine k (useScalar u.curKey use u)

/-- Read-modify-write atomics (R245, R264): after the release that rl asks for, and behind the older entries of its line in a write queue (R151), the old value goes to rd sign-extended and the new one stands at the address, with no other byte changed and no other register. -/
def Claims.Atomics : Prop :=
  ∀ (i : Instr) (s u : State) (q r w : BitVec 1) (b a d : BitVec 5) (f : (m : Nat) → BitVec m → BitVec m → BitVec m),
    s.cur.convoy = [] → amoForm i = some (q, r, w, b, a, d, f) →
    let n := if w = 1 then 8 else 4
    let va := rx s a
    (va.toNat % n ≠ 0 → Completes i s (ScalarTrapped 6 va s)) ∧
    (va.toNat % n = 0 → ∀ e, scalarPlace s (who s) .atomic va.toNat = .error e → e ≠ 27 → e ≠ heldCode → Completes i s (ScalarTrapped e va s)) ∧
    (va.toNat % n = 0 → scalarPlace s (who s) .atomic va.toNat = .error heldCode → Completes i s (· = s)) ∧
    (va.toNat % n = 0 → s.cur.release = none → ∀ k use, scalarPlace s (who s) .atomic va.toNat = .ok (.mem k, use) →
      scoreboardStalls s k n true = false → atomicStart r s = some u → hasError k n u = false → Memory.wf (atHome k use u).mem = true →
      let old := BitVec.ofNat (8 * n) (natOf (getBytes k n (atHome k use u).mem))
      Completes i s (fun t => getX t.cur d = (if d = 0 then 0 else old.signExtend 64) ∧ (∀ g, g ≠ d → getX t.cur g = getX u.cur g) ∧
        t.cur.pc = u.cur.pc + 4 ∧ natOf (getBytes k n t.mem) = (f (8 * n) old ((rx u b).setWidth (8 * n))).toNat ∧ SameOutside k n (atHome k use u) t))

/-- Load-reserved and store-conditional (R246, R264, R265): `lr` reserves the aligned 64-byte block, until more than 128 cycles of the die have passed. -/
def Claims.LoadReservedStoreConditional : Prop :=
  ∀ (s u : State) (q r w : BitVec 1) (b a d : BitVec 5), s.cur.convoy = [] →
    let n := if w = 1 then 8 else 4
    let va := rx s a
    va.toNat % n = 0 → ∀ k use, scalarPlace s (who s) .atomic va.toNat = .ok (.mem k, use) → scoreboardStalls s k n true = false →
    atomicStart r s = some u → hasError k n u = false →
    let v := atHome k use u
    Completes (.lr q r a w d) s (fun t =>
      getX t.cur d = (if d = 0 then 0 else (BitVec.ofNat (8 * n) (natOf (getBytes k n v.mem))).signExtend 64) ∧
      (∀ g, g ≠ d → getX t.cur g = getX u.cur g) ∧ t.cur.pc = u.cur.pc + 4 ∧ t.cur.resv = some (k / 64) ∧
      { die := u.die, inCycles := true, left := 129, event := .lrReservationExpiry u.curKey } ∈ t.timers ∧ t.mem = v.mem) ∧
    (s.cur.release = none → Memory.wf v.mem = true → Completes (.sc q r b a w d) s (fun t =>
      t.cur.pc = u.cur.pc + 4 ∧ t.cur.resv = none ∧ (∀ g, g ≠ d → getX t.cur g = getX u.cur g) ∧ SameOutside k n v t ∧
      (v.cur.resv = some (k / 64) → isDue v (.lrReservationExpiry v.curKey) = false → (d ≠ 0 → getX t.cur d = 0) ∧ natOf (getBytes k n t.mem) = (rx u b).toNat % 2 ^ (8 * n)) ∧
      ((v.cur.resv ≠ some (k / 64) ∨ isDue v (.lrReservationExpiry v.curKey) = true) → (d ≠ 0 → getX t.cur d = 1) ∧ t.mem = v.mem)))

/-! ## CSRs and system words -/

/-- Who may read a CSR and who may write it, as R267 tabulates; a number it does not list nobody may. -/
def csrAllowed (p : Priv) (writes : Bool) (n : Nat) : Prop :=
  (n = 0x100 ∨ n = 0x105 ∨ (0x140 ≤ n ∧ n ≤ 0x143) ∨ (0x5C0 ≤ n ∧ n ≤ 0x5CF) ∨ n = 0x5D0) ∧ p = .s ∨
  (0x800 ≤ n ∧ n ≤ 0x807) ∨ (0x810 ≤ n ∧ n ≤ 0x817) ∨ n = 0x820 ∨
  (0x840 ≤ n ∧ n ≤ 0x84F) ∧ (p = .s ∨ writes = false) ∨
  (n = 0xC00 ∨ (0xCC0 ≤ n ∧ n ≤ 0xCCB)) ∧ writes = false

/-- The CSRs that only a D-core has (R267). -/
def csrOfDCore (n : Nat) : Prop := (0x810 ≤ n ∧ n ≤ 0x817) ∨ n = 0xCC2

/-- A CSR instruction: its CSR, its destination, whether it writes, and what, of the old value (R245, R266). -/
def csrForm (s : State) : Instr → Option (Nat × BitVec 5 × Bool × (Word → Word))
  | .csrrw c a d => some (c.toNat, d, true, fun _ => rx s a)
  | .csrrs c a d => some (c.toNat, d, a != 0, fun old => old ||| rx s a)
  | .csrrc c a d => some (c.toNat, d, a != 0, fun old => old &&& ~~~(rx s a))
  | .csrrwi c u d => some (c.toNat, d, true, fun _ => u.setWidth 64)
  | .csrrsi c u d => some (c.toNat, d, u != 0, fun old => old ||| u.setWidth 64)
  | .csrrci c u d => some (c.toNat, d, u != 0, fun old => old &&& ~~~(u.setWidth 64))
  | _ => none

/-- CSR instructions (R96, R246, R266, R267): one whose access R267 allows gives the old value and, where its form writes, leaves the CSRs as a write of the new value does, a counter at just that value. -/
def Claims.CsrWords : Prop :=
  ∀ (i : Instr) (s : State) (n : Nat) (d : BitVec 5) (writes : Bool) (new : Word → Word) (w : Word32), s.cur.convoy = [] →
    csrForm s i = some (n, d, writes, new) → encode i = some w →
    (csrOfDCore n → isDCore s.core = false → Completes i s (ScalarTrapped 25 (w.setWidth 64) s)) ∧
    (¬(csrOfDCore n ∧ isDCore s.core = false) → ¬csrAllowed s.cur.priv writes n → Completes i s (ScalarTrapped 2 (w.setWidth 64) s)) ∧
    (¬(csrOfDCore n ∧ isDCore s.core = false) → csrAllowed s.cur.priv writes n →
      let u := if writes then csrWrite n (new (csrRead s n)) s else s
      Completes i s (fun t => getX t.cur d = (if d = 0 then 0 else csrRead s n) ∧ (∀ r, r ≠ d → getX t.cur r = getX s.cur r) ∧
        t.cur = { u.cur with x := t.cur.x, pc := s.cur.pc + 4 } ∧ OnlyFocus u t ∧
        (writes = true → 0x840 ≤ n → n ≤ 0x84F → csrRead t n = new (csrRead s n))))

/-- A word of S mode alone, and what it does there (R246, R260, R262). -/
def supervisorForm (s t : State) : Instr → Option Prop
  | .sret => some (OnlyFocus s t ∧ t.cur = { s.cur with priv := (if s.cur.spp then .s else .u), spp := false, pc := s.cur.sepc })
  | .tlbdrop b a => some (t.cur = { s.cur with pc := s.cur.pc + 4 } ∧ OnlyFocusAndTlb s t ∧
      let r := roundOut (rx s a) (rx s b)
      (coreAt t s.core).tlb = (coreAt s s.core).tlb.filter (fun e => !(decide (e.vbase < r.1 + r.2) && decide (r.1 < e.vbase + e.size))) ∧
      (∀ g, g ≠ s.core → (coreAt t g).tlb = (coreAt s g).tlb) ∧ ∀ d, dieAt t d = dieAt s d)
  | .evfrz a => some (t.cur = { s.cur with pc := s.cur.pc + 4 } ∧ OnlyFocus s t ∧ ∀ i : Fin 16,
      ((coreAt t s.core).counters[i].sel).getLsbD 62 =
        (!(rx s a).getLsbD i.val && ((rx s a).getLsbD (16 + i.val) || ((coreAt s s.core).counters[i].sel).getLsbD 62)))
  | _ => none

/-- Words of S mode alone (R194, R246, R260, R262, R273): in S mode each has its effect, in U mode each traps as illegal encoding. -/
def Claims.SupervisorWords : Prop :=
  ∀ (i : Instr) (s : State) (w : Word32), s.cur.convoy = [] → encode i = some w → supervisorForm s s i ≠ none →
    (s.cur.priv = .s → Completes i s (fun t => ∃ p, supervisorForm s t i = some p ∧ p)) ∧
    (s.cur.priv = .u → Completes i s (ScalarTrapped 2 (w.setWidth 64) s))

/-- Calls of the runtime and hints (R192, R246): `ecall` from U mode traps with code 8, from S mode as illegal encoding; `ebreak` traps with its own address. -/
def Claims.Calls : Prop :=
  ∀ s : State, s.cur.convoy = [] →
    (s.cur.priv = .u → Completes .ecall s (ScalarTrapped 8 0 s)) ∧
    (s.cur.priv = .s → Completes .ecall s (ScalarTrapped 2 0x73 s)) ∧
    Completes .ebreak s (ScalarTrapped 3 s.cur.pc s)

/-- Words that in this model of one thread change nothing but what later accesses of it may miss (R178, R246, R252, R261): `fence`, `wfi` and the hints only go on. -/
def Claims.FencesAndHints : Prop :=
  ∀ (s : State) (imm : BitVec 12) (h : BitVec 6) (a b d : BitVec 5) (sc : BitVec 2), s.cur.convoy = [] →
    let goesOn (t : State) : Prop := t.cur.pc = s.cur.pc + 4 ∧ OnlyRegister 0 s t
    let onlyStale (t : State) : Prop := t.cur = { s.cur with pc := s.cur.pc + 4, stale := t.cur.stale } ∧ OnlyFocus s t ∧ t.cur.stale.length = s.cur.stale.length
    Completes (.fence imm a d) s goesOn ∧ Completes .wfi s goesOn ∧ Completes (.syHint h b a) s goesOn ∧
    Completes (.fenceI imm a d) s (fun t => onlyStale t ∧ ∀ e ∈ t.cur.stale, e.toFetch = false) ∧
    Completes (.cflush b a) s (fun t => t.cur = { s.cur with pc := s.cur.pc + 4, stale := t.cur.stale } ∧
      t = { s with cur := t.cur, parked := t.parked, cores := t.cores } ∧ SameCores s t ∧
      (∀ key, key ≠ s.curKey → ctxAt t key = { ctxAt s key with stale := (ctxAt t key).stale }) ∧
      let r := roundOut (rx s a) (rx s b)
      ∀ key, key / 4 = s.core → ∀ e ∈ (ctxAt t key).stale, r.1 ≤ e.addr → e.addr + e.old.length ≤ r.1 + r.2 → e.toFetch = false) ∧
    Completes (.fenceSv sc) s (fun t => onlyStale t ∧ ∀ e ∈ t.cur.stale, e.byVector = false → inScope (scopeOf sc) s.core e.key = true → e.toVector = false)

/-- Fences after vector writes, releases and acquires (R178, R179, R180, R252, R253): `fence.vs` and `fence.vv` first apply the thread's reduce-stores and then leave scalar or vector accesses no vector write in scope to miss, `fence.vv` once the thread's tile stores in scope are performed (R325). -/
def Claims.FencesReleasesAcquires : Prop :=
  ∀ (s : State) (sc : BitVec 2), s.cur.convoy = [] →
    let u := settleThread (threadOf s.cur) s
    let fenced (t : State) : Prop := t.cur = { u.cur with pc := u.cur.pc + 4, stale := t.cur.stale } ∧ OnlyFocus u t
    Completes (.fenceVs sc) s (fun t => fenced t ∧
      ∀ e ∈ t.cur.stale, e.byVector = true → inScope (scopeOf sc) u.core e.key = true → e.toScalar = false) ∧
    (storesTile (scopeOf sc) s = false → Completes (.fenceVv sc) s (fun t => fenced t ∧
      ∀ e ∈ t.cur.stale, e.byVector = true → inScope (scopeOf sc) u.core e.key = true → e.toVector = false)) ∧
    (storesTile (scopeOf sc) s = true → Completes (.fenceVv sc) s (· = s)) ∧
    ((∀ p ∈ s.pending, ∀ j ∈ p.issuers, j.thread ≠ threadOf s.cur) → (∀ k ∈ s.tokens, k.issuer.thread ≠ threadOf s.cur) → u = s) ∧
    (s.cur.release = none → Completes (.rel sc) s (fun t => t.cur = { s.cur with pc := s.cur.pc + 4, release := some (scopeOf sc) } ∧
      isDue t (.releaseComplete s.curKey) = true ∧ t.mem = s.mem)) ∧
    Completes (.acq sc) s (fun t => t.cur = { s.cur with pc := s.cur.pc + 4, stale := t.cur.stale } ∧ t.mem = s.mem ∧ (∀ e ∈ t.cur.stale, e.yields = false) ∧
      (2 ≤ sc.toNat → ∀ e : Fin 8, (dieAt t s.die).appClock[e] = (dieAt s e).relClock[e]))

/-- A grant of type and length (R133, R248): the least of x[s1] and VLMAX, in `vl` and in rd. -/
def Claims.Grants : Prop :=
  ∀ (s : State) (ty a d : BitVec 5), s.cur.convoy = [] → 1 ≤ ty.toNat → ty.toNat ≤ 14 →
    let vl := min (rx s a).toNat (vlmax (ty.setWidth 4))
    Completes (.vsetl ty a d) s (fun t => t.cur.vtype = ty.setWidth 4 ∧ t.cur.vl = vl ∧ getX t.cur d = (if d = 0 then 0 else BitVec.ofNat 64 vl) ∧
      t.cur.pc = s.cur.pc + 4 ∧ (∀ r, r ≠ d → getX t.cur r = getX s.cur r) ∧ t.cur.vstart = s.cur.vstart ∧ t.cur.vflags = s.cur.vflags ∧ t.mem = s.mem ∧
      (s.cur.vtype = 0 ∧ s.cur.validMode = false → ∀ r < 32, vreg t.cur r = Chain.empty) ∧
      (¬(s.cur.vtype = 0 ∧ s.cur.validMode = false) → t.cur.v = s.cur.v ∧ OnlyFocus s t))

/-- `vsmine` (R133, R250): with d the lesser of `vl` and the count, every selected pointer moves by d times its step, the count falls by d, `vl` is granted anew, and the loop goes on until the count is 0. -/
def Claims.StripMining : Prop :=
  ∀ (s : State) (o : BitVec 12) (k : BitVec 4) (n : BitVec 5) (w : Word32), s.cur.convoy = [] → (Instr.vsmine o k n).wf = true →
    encode (.vsmine o k n) = some w →
    (s.cur.vtype = 0 → Completes (.vsmine o k n) s (ScalarTrapped 2 (w.setWidth 64) s)) ∧
    (s.cur.vtype ≠ 0 →
      let d := min s.cur.vl (rx s n).toNat
      let left := (rx s n).toNat - d
      Completes (.vsmine o k n) s (fun t =>
        getX t.cur n = BitVec.ofNat 64 left ∧ t.cur.vl = min left (vlmax s.cur.vtype) ∧
        t.cur.pc = (if left = 0 then s.cur.pc + 4 else s.cur.pc + o.signExtend 64 * 4) ∧
        (∀ r : BitVec 5, r ≠ n → getX t.cur r = getX s.cur r +
          (if 10 ≤ r.toNat ∧ r.toNat < 14 ∧ k.getLsbD (r.toNat - 10) = true
            then BitVec.ofNat 64 d * (s.cur.vpstep.extractLsb' (8 * (r.toNat - 10)) 8).signExtend 64 else 0)) ∧
        OnlyFocus s t ∧ t.cur = { s.cur with x := t.cur.x, vl := t.cur.vl, pc := t.cur.pc }))

/-- The queries (R115, R132, R259): an argument past the last segment or context gives all ones. -/
def Claims.Queries : Prop :=
  ∀ (s : State) (a d : BitVec 5), s.cur.convoy = [] →
    let n := (rx s a).toNat
    let broken : Prop := n ≤ 4095 ∧ ((coreAt s s.core).lost.contains n = true ∨ ∃ x ∈ (coreAt s s.core).segs, x.2.num = n ∧ x.2.badEntry = true)
    (broken → Completes (.qseg a d) s (Trapped 49 (BitVec.ofNat 64 (4 * 2 ^ 56 + n)) s.cur.pc s)) ∧
    (¬broken → Completes (.qseg a d) s (fun t => t.cur.pc = s.cur.pc + 4 ∧ OnlyRegister d s t ∧
      (d ≠ 0 → 4095 < n → getX t.cur d = BitVec.allOnes 64) ∧
      (d ≠ 0 → n ≤ 4095 → (∀ x ∈ (coreAt s s.core).segs, x.2.num ≠ n) → (coreAt s s.core).used.contains n = false → getX t.cur d = 0) ∧
      (d ≠ 0 → ∀ x, (coreAt s s.core).segs.find? (fun x => x.2.num == (rx s a).toNat) = some x → (rx s a).toNat ≤ 4095 → x.2.count < 256 →
        (getX t.cur d).toNat % 256 = x.2.count ∧ (getX t.cur d).toNat / 256 % 4 = contextNumber s x.2.tag % 4))) ∧
    Completes (.qctx a d) s (fun t => t.cur.pc = s.cur.pc + 4 ∧ OnlyRegister d s t ∧
      (d ≠ 0 → 3 < (rx s a).toNat → getX t.cur d = BitVec.allOnes 64) ∧
      (d ≠ 0 → (rx s a).toNat ≤ 3 → let c := ctxAt s (s.core * 4 + (rx s a).toNat)
        c.pres < 256 → (∀ r ∈ s.regions, r.eff.prio < 8) → (∀ l, (coreAt s s.core).lsplit = some l → l < 4) →
        (getX t.cur d).toNat % 256 ≤ 32 ∧ (getX t.cur d).toNat / 2 ^ 8 % 256 = c.pres ∧ (getX t.cur d).toNat / 2 ^ 25 % 4 = (coreAt s s.core).lsplit.getD 0 ∧
          (c.state = .free → (getX t.cur d).toNat / 2 ^ 30 % 4 = 0) ∧ (c.state = .running → (getX t.cur d).toNat / 2 ^ 30 % 4 = 1) ∧
          (c.task = none → (getX t.cur d).toNat / 2 ^ 32 = 0)))

/-- A word that may not join the convoy open before it (R100): a scalar, SY or MT word, or a fifth vector word, makes the convoy an illegal encoding, taken at its first word, with `vcvx` the index of its last word and `stval` that word. -/
def Claims.BrokenConvoys : Prop :=
  ∀ (i : Instr) (w : Word32) (s : State) (ms : List Member) (m : Member), encode i = some w → s.cur.convoy = ms ++ [m] →
    ((w.extractLsb' 0 7 ≠ 0x0B ∧ w.extractLsb' 0 7 ≠ 0x2B) ∨ 3 ≤ ms.length) →
    Completes i s (fun t => Trapped 2 (m.word.setWidth 64) s.cur.convoyPc s t ∧ t = { s with cur := t.cur } ∧
      t.cur.vcvx = BitVec.ofNat 2 ms.length ∧ t.cur.vstart = s.cur.vstart)

/-! ## Vector words that stand alone -/

/-- A VX or VM word that stands alone and has elements to process: no convoy is open, it has c = 0, `vstart` is below `vl`, it passes
the checks of decode, no segment of the core holds an uncorrectable error, and no stop for pre-emption falls in it (R89). -/
structure Alone (s : State) (w : Word32) (op : VOp) : Prop where
  closed : s.cur.convoy = []
  last : w.getLsbD 26 = false
  length : s.cur.vstart < s.cur.vl
  legal : decodeTrap (memberOf s w op) s = none
  sound : ∀ x ∈ (coreAt s s.core).segs, x.2.badData = false ∧ x.2.badEntry = false
  unpressed : stopPoint s = none

/-- The state in which a word that stands alone runs. -/
def running (s : State) (w : Word32) (op : VOp) : State :=
  { s with cur := { s.cur with convoy := [memberOf s w op], convoyPc := s.cur.pc } }

/-- The state in which an elementwise word runs: the thread's own writes are all those of earlier words. -/
def started (s : State) (w : Word32) (op : VOp) : State := settleFresh (running s w op)

/-- The own writes that later reads may miss are as they were, but for the mark on those of the word under way, which an elementwise word takes off. -/
def SameWrites (u t : State) : Prop := t.cur.stale = u.cur.stale ∨ t.cur.stale = (settleFresh u).cur.stale

/-- The state after a word that stood alone has retired (R268): `u` with `vstart` and `vcvx` 0 and the pc past the word. -/
def Retired (u t : State) : Prop :=
  t.cur = { u.cur with vstart := 0, vcvx := 0, convoy := [], expiredRay := [], pc := u.cur.pc + 4, stale := t.cur.stale } ∧ SameWrites u t ∧ OnlyFocus u t

/-- Element e of a chain as a source reads it; past the chain's end it is zero (R126). -/
def chainElem (s : State) (t : BitVec 4) (r e : Nat) : Nat := (readElems t (chainBytes (coreAt s s.core) (vreg s.cur r))).getD e 0

/-- The elements that a chain has. -/
def chainCount (s : State) (t : BitVec 4) (r : Nat) : Nat := elemsOfBytes t (chainBytes (coreAt s s.core) (vreg s.cur r)).length

/-- Element e of a register's old chain, as a lane that is masked off keeps it (R126). -/
def oldElem (s : State) (t : BitVec 4) (r e : Nat) : Nat := (elemsOf t (chainBytes (coreAt s s.core) (vreg s.cur r))).getD e 0

/-- A lane takes part (R275). -/
def laneActive (s : State) (m : Member) (e : Nat) : Bool := !m.masked || (predAt s.cur 0).getLsbD e

/-- Operands of the elementwise words (R236, R277): the first, the second and the third source of lane e. -/
def operandA (s : State) (t : BitVec 4) (m : Member) (e : Nat) : Nat :=
  match m.op with
  | .arith _ .vv | .fused _ .vv | .sel | .mvV | .cvt _ _ | .unary _ | .cmp _ _ _ => chainElem s t m.a e
  | .arith _ _ | .fused _ _ => chainElem s t m.b e
  | _ => 0
def operandB (s : State) (t : BitVec 4) (m : Member) (e : Nat) : Nat :=
  match m.op with
  | .arith _ .vv | .fused _ .vv | .sel => chainElem s t m.b e
  | .cmp .sn _ _ => 0
  | .cmp _ _ _ => chainElem s t m.b e
  | .arith _ .vx | .fused _ .vx | .mvX => m.xa.toNat % 2 ^ typeBits t
  | _ => 0
def operandC (s : State) (t : BitVec 4) (m : Member) (e : Nat) : Nat :=
  match m.op with
  | .fused _ _ => chainElem s t m.d e
  | _ => 0

/-- The chains that an elementwise word reads. -/
def sources (m : Member) : List Nat :=
  match m.op with
  | .arith _ .vv | .sel => [m.a, m.b]
  | .cmp .sn _ _ => [m.a]
  | .cmp _ _ _ => [m.a, m.b]
  | .arith _ _ => [m.b]
  | .fused _ .vv => [m.a, m.b, m.d]
  | .fused _ _ => [m.b, m.d]
  | .mvV | .cvt _ _ | .unary _ => [m.a]
  | _ => []

/-- The elements that a word processes: from `vstart` to `vl` (R268). -/
def span (s : State) : List Nat := List.range' s.cur.vstart (s.cur.vl - s.cur.vstart)

/-- The lanes of an elementwise word whose result has type rt. -/
def lanesOf (s : State) (t rt : BitVec 4) (m : Member) : List Lane :=
  (span s).map (fun e =>
    { i := e, active := laneActive s m e, a := operandA s t m e, b := operandB s t m e, c := operandC s t m e, old := oldElem s rt m.d e })

/-- SHORT is raised (R126): a lane below `vl` is active and a source has fewer than `vl` elements. -/
def shortOf (s : State) (t : BitVec 4) (m : Member) : Bool :=
  (List.range s.cur.vl).any (laneActive s m) && (sources m).any (fun r => decide (chainCount s t r < s.cur.vl))

/-- The elements before `vstart`, which an earlier run wrote. -/
def earlier (s : State) (t : BitVec 4) (m : Member) : List Nat := (List.range s.cur.vstart).map (oldElem s t m.d)

/-- Flags with SHORT where it is raised. -/
def withShort (f : Flags) (short : Bool) : Flags := if short then { f with v := f.v ||| vShort } else f

/-- The elementwise words that write one chain: the forms vv, vx and vi of the operations, `vsel`, the moves, the unary words, and the
conversions to and from types other than e2m1. -/
def writesChain (t : BitVec 4) (op : VOp) : Prop :=
  match op with
  | .arith _ .vv | .arith _ .vx | .arith _ .vi | .fused _ .vv | .fused _ .vx | .sel | .mvX | .mvI | .mvV | .unary _ => True
  | .cvt target _ => target ≠ 14 ∧ t ≠ 14
  | _ => False

/-! ### What a lane computes (R279, R283, R284, R285) -/

/-- Operand b of an integer word: the immediate of form 010, which the shifts take unsigned, else the lane's (R277). -/
def secondOf (o : ArithOp) (f : VForm) (n imm : Nat) (b : Nat) : BitVec n :=
  match f, o with
  | .vi, .sll | .vi, .srl | .vi, .sra => BitVec.ofNat n imm
  | .vi, _ => BitVec.ofInt n (BitVec.ofNat 5 imm).toInt
  | _, _ => BitVec.ofNat n b

/-- A number as an n-bit pattern of a signed or unsigned type holds it. -/
def numberOf {n : Nat} (signed : Bool) (x : BitVec n) : Int := if signed then x.toInt else x.toNat

/-- The least and the largest number of an n-bit type. -/
def lowest (signed : Bool) (n : Nat) : Int := if signed then -2 ^ (n - 1) else 0
def highest (signed : Bool) (n : Nat) : Int := if signed then 2 ^ (n - 1) - 1 else 2 ^ n - 1

/-- A pattern, and whether SAT is raised. -/
def clamped (signed : Bool) (n : Nat) (i : Int) : BitVec n × Bool :=
  if i < lowest signed n then (BitVec.ofInt n (lowest signed n), true)
  else if highest signed n < i then (BitVec.ofInt n (highest signed n), true) else (BitVec.ofInt n i, false)

/-- The integer operations, each as the table of R279 gives it. -/
def integerLane (t : BitVec 4) (o : ArithOp) (f : VForm) (imm a b : Nat) : BitVec (typeBits t) × Bool :=
  let n := typeBits t
  let signed := isSigned t
  let x := BitVec.ofNat n a
  let y := secondOf o f n imm b
  let k := y.toNat % n
  let addend : Int := if f = .vi then (BitVec.ofNat 5 imm).toInt else numberOf signed y
  match o with
  | .add => (x + y, false)
  | .sub => (x - y, false)
  | .rsub => (y - x, false)
  | .mul => (x * y, false)
  | .mulh => (BitVec.ofInt n (numberOf signed x * numberOf signed y / 2 ^ n), false)
  | .div => (if y = 0 then BitVec.allOnes n else if signed then x.sdiv y else x / y, false)
  | .rem => (if y = 0 then x else if signed then x.srem y else x % y, false)
  | .min => (if numberOf signed x ≤ numberOf signed y then x else y, false)
  | .max => (if numberOf signed x ≤ numberOf signed y then y else x, false)
  | .and => (x &&& y, false)
  | .or => (x ||| y, false)
  | .xor => (x ^^^ y, false)
  | .sll => (x <<< k, false)
  | .srl => (x >>> k, false)
  | .sra => (x.sshiftRight k, false)
  | .sadd => clamped signed n (numberOf signed x + addend)
  | .ssub => clamped signed n (numberOf signed x - addend)

/-- The number of the class that `vclass` finds a pattern of sign, exponent and fraction in (R285). -/
def classOf (t : BitVec 4) (x : Nat) : Nat :=
  let n := typeBits t
  let e := x / 2 ^ manBits t % 2 ^ expBits t
  let m := x % 2 ^ manBits t
  let minus := decide (2 ^ (n - 1) ≤ x)
  if e = 2 ^ expBits t - 1 then (if m = 0 then (if minus then 0 else 7) else if m < 2 ^ (manBits t - 1) then 8 else 9)
  else if e = 0 then (if m = 0 then (if minus then 3 else 4) else if minus then 2 else 5)
  else if minus then 1 else 6

/-- What a lane of a word computes where it takes no rounding: the integer operations, `vsel` and the moves, the conversions between integer types, and the
unary words on bits and signs. `sel` is predicate p0. -/
def plainLane (t : BitVec 4) (op : VOp) (imm : Nat) (sel : Nat → Bool) (l : Lane) : Option (Nat × Bool) :=
  let n := typeBits t
  let x := BitVec.ofNat n l.a
  match op with
  | .arith o f => if isInt t then some ((integerLane t o f imm l.a l.b).1.toNat, (integerLane t o f imm l.a l.b).2) else none
  | .sel => some (if sel l.i then l.a else l.b, false)
  | .mvX => some (l.b, false)
  | .mvI => if isInt t then some ((BitVec.ofInt n (BitVec.ofNat 5 imm).toInt).toNat, false) else if t = 14 then some (imm % 16, false) else none
  | .mvV => some (l.a, false)
  | .cvt target sat =>
    let n' := typeBits target
    if !(isInt t && isInt target) then none
    else if sat then some ((clamped (isSigned target) n' (numberOf (isSigned t) x)).1.toNat, (clamped (isSigned target) n' (numberOf (isSigned t) x)).2)
    else some ((BitVec.ofInt n' (numberOf (isSigned t) x)).toNat, false)
  | .unary .neg => if isInt t then some ((-x).toNat, false) else some ((l.a + 2 ^ (n - 1)) % 2 ^ n, false)
  | .unary .abs => if isInt t then some ((if isSigned t && x.msb then -x else x).toNat, false) else some (l.a % 2 ^ (n - 1), false)
  | .unary .clz => some (((List.range n).find? (fun j => x.getLsbD (n - 1 - j))).getD n, false)
  | .unary .popc => some ((List.range n).countP x.getLsbD, false)
  | .unary .brev => some (((List.range n).map (fun j => if x.getLsbD (n - 1 - j) then 2 ^ j else 0)).sum, false)
  | .unary .class => some (2 ^ classOf t l.a, false)
  | _ => none

/-- Elementwise VX words that write a chain (R125, R126, R208, R268, R275 to R285): every active lane from `vstart` on gets the operation's value of its operands, every other keeps the old element, and the elements are written to the destination with the result's type, the flags of the active lanes raised. -/
def Claims.ElementwiseWords : Prop :=
  ∀ (i : Instr) (s u : State) (w : Word32) (op : VOp), encode i = some w → vectorOp i = some op → writesChain s.cur.vtype op → Alone s w op →
    let t := s.cur.vtype
    let m := memberOf s w op
    let rt := resultType t op
    let r := mapLanes (laneVal t s.cur.frm op m.a (fun e => (predAt s.cur 0).getLsbD e)) (lanesOf s t rt m)
    let total := bytesOfElems rt s.cur.vl
    ceilDiv total 256 ≤ allocatable s s.curKey →
    writeResult s.curKey m.d rt total (bytesOfElems rt s.cur.vstart) (bytesOfList rt (padNibble s) (earlier s rt m ++ r.1)) (raiseAll (withShort r.2 (shortOf s t m)) (running s w op)) = some u →
    Completes i s (Retired u)

/-- The bits of a predicate: those of f below n, and none from n on. -/
def predOfBits (n : Nat) (f : Nat → Bool) (p : BitVec 4096) : Prop := ∀ j < 4096, p.getLsbD j = (decide (j < n) && f j)

/-- Compares and predicate words (R126, R275, R276, R282, R298): a compare gives each active lane's predicate bit the comparison, leaves the other lanes' bits, and clears every bit from `vl` on. -/
def Claims.ComparesAndPredicates : Prop :=
  ∀ (i : Instr) (s : State) (w : Word32) (op : VOp), encode i = some w → vectorOp i = some op → Alone s w op →
    let t := s.cur.vtype
    let m := memberOf s w op
    let bitAt (r j : Nat) : Bool := (predAt s.cur r).getLsbD j
    let written (p : BitVec 4096) (f : Flags) (t : State) : Prop :=
      Retired (raiseAll f { running s w op with cur := setPred m.d p (running s w op).cur }) t
    (∀ o variant neg, op = .cmp o variant neg → Completes i s (fun u => ∃ p,
      predOfBits s.cur.vl (fun j => if s.cur.vstart ≤ j ∧ laneActive s m j = true then (compare t o variant (operandA s t m j) (operandB s t m j)).1 != neg else bitAt m.d j) p ∧
      written p (withShort { f := (span s).foldl (fun f j =>
        if laneActive s m j then f ||| (compare t o variant (operandA s t m j) (operandB s t m j)).2 else f) 0, v := 0 } (shortOf s t m)) u)) ∧
    (∀ o, op = .pred o → Completes i s (fun u => ∃ p, predOfBits s.cur.vl (fun j => if j < s.cur.vstart then bitAt m.d j else match o with
        | .and => bitAt m.a j && bitAt m.b j
        | .or => bitAt m.a j || bitAt m.b j
        | .xor => bitAt m.a j != bitAt m.b j
        | .not => !bitAt m.a j
        | .mov => bitAt m.a j) p ∧ written p Flags.none u))

/-- Conversions to e2m1 (R215): the codes go to the destination and the blocks' records to the register after it, a block with no active lane keeping its old record. -/
def Claims.ConversionsToE2m1 : Prop :=
  ∀ (i : Instr) (s u1 u : State) (w : Word32) (sat : Bool), encode i = some w → vectorOp i = some (.cvt 14 sat) → s.cur.vstart = 0 → Alone s w (.cvt 14 sat) →
    let t := s.cur.vtype
    let m := memberOf s w (.cvt 14 sat)
    let lanes := lanesOf s t 14 m
    let codes := mapLanes (codeTo4 t s.cur.frm sat) lanes
    let blocks := ceilDiv s.cur.vl 32
    let records := blockRecords t s.cur.frm sat blocks lanes (chainBytes (coreAt s s.core) (vreg s.cur (m.d + 1)))
    let total := bytesOfElems 14 s.cur.vl
    ceilDiv total 256 + ceilDiv (2 * blocks) 256 ≤ allocatable s s.curKey →
    writeResult s.curKey m.d 14 total 0 (bytesOfList 14 (padNibble s) codes.1)
      (raiseAll (withShort (codes.2.or records.2) (shortOf s t m)) (running s w (.cvt 14 sat))) = some u1 →
    writeResult s.curKey (m.d + 1) 2 (2 * blocks) 0 records.1 u1 = some u →
    Completes i s (Retired u)

/-- Conversions from e2m1 (R216, R220): each active code is converted with its block's record. -/
def Claims.ConversionsFromE2m1 : Prop :=
  ∀ (i : Instr) (s : State) (w : Word32) (target : BitVec 4) (sat : Bool), s.cur.vtype = 14 → target ≠ 14 → encode i = some w →
    vectorOp i = some (.cvt target sat) → s.cur.vstart = 0 → Alone s w (.cvt target sat) →
    let m := memberOf s w (.cvt target sat)
    let records := chainBytes (coreAt s s.core) (vreg s.cur (m.a + 1))
    let lanes := lanesOf s 14 target m
    let r := mapLanes (fun l => convertFrom4 target s.cur.frm sat (records.getD (l.i / 32 * 2 + 1) 0).toNat l.a) lanes
    let short := (List.range s.cur.vl).any (laneActive s m) && (decide (chainCount s 14 m.a < s.cur.vl) || decide (records.length < ceilDiv s.cur.vl 32 * 2))
    let total := bytesOfElems target s.cur.vl
    ((∀ e < s.cur.vl, laneActive s m e = true → badRecord records e = none) → ceilDiv total 256 ≤ allocatable s s.curKey → ∀ u,
      writeResult s.curKey m.d target total 0 (bytesOfList target (padNibble s) r.1) (raiseAll (withShort r.2 short) (running s w (.cvt target sat))) = some u →
      Completes i s (Retired u)) ∧
    (laneActive s m 0 = true → ∀ off, badRecord records 0 = some off →
      Completes i s (fun t => Trapped 31 (BitVec.ofNat 64 off) s.cur.pc (settleFresh (running s w (.cvt target sat))) t ∧ OnlyFocus s t ∧ t.cur.vstart = 0 ∧ t.cur.vcvx = 0))

/-- Words of form 111 (R299): with a message at the head of the ray's queue, the first operand comes from it, as many elements as it has and `vl` allows are processed, SHORT is raised where it has fewer, and the message is released at retirement. -/
def Claims.RayForms : Prop :=
  ∀ (i : Instr) (s u : State) (w : Word32) (op : VOp) (d : Nat) (r : Ray) (msg : Msg) (rest : List Msg), encode i = some w → vectorOp i = some op →
    isRayForm op = true → s.cur.vstart = 0 → Alone s w op → s.cur.expiredRay = [] →
    let t := s.cur.vtype
    let m := memberOf s w op
    rayOfRecv s (threadOf s.cur) m.xa.toNat = some (d, r) → r.queue = msg :: rest →
    let es := elemsOf t (msg.pieces.map (pieceBytes (coreAt s s.core))).flatten
    let n := min s.cur.vl es.length
    let lanes := (List.range n).map (fun e =>
      { i := e, active := laneActive s m e, a := es.getD e 0, b := chainElem s t m.b e, c := operandC s t m e, old := oldElem s t m.d e : Lane })
    let x := mapLanes (laneVal t s.cur.frm op m.a (fun _ => false)) lanes
    let short := (lanes.any (·.active) && (sources m).any (fun c => decide (chainCount s t c < s.cur.vl))) || decide (n < s.cur.vl)
    let total := bytesOfElems t n
    ceilDiv total 256 ≤ allocatable s s.curKey →
    writeResult s.curKey m.d t total 0 (bytesOfList t (padNibble s) x.1) (raiseAll (withShort x.2 short) (running s w op)) = some u →
    Completes i s (Retired (popMessage m.xa.toNat u)) ∧
      ∀ l ∈ lanes, ∀ v sat, plainLane t op m.a (fun _ => false) l = some (v, sat) →
        laneVal t s.cur.frm op m.a (fun _ => false) l = { w := v, f := 0, v := if sat then vSat else 0 }

/-- The elements that a chain has by its LEN (R119). -/
def lenCount (s : State) (t : BitVec 4) (r : Nat) : Nat := elemsOfBytes t (chainLen (vreg s.cur r))

/-- Element e of the elements that a chain wholly has; past them it is zero (R292). -/
def wholeElem (s : State) (t : BitVec 4) (r e : Nat) : Nat := if e < lenCount s t r then chainElem s t r e else 0

/-- What a cross-element word gives: its elements, its flags, and whether SHORT is raised (R287 to R297). -/
def crossResult (s : State) (m : Member) : Option (List Nat × Flags × Bool) :=
  let t := s.cur.vtype
  let rm := s.cur.frm
  let n := s.cur.vl
  let active := laneActive s m
  let old := oldElem s (resultType t m.op) m.d
  let a := chainElem s t m.a
  let b := chainElem s t m.b
  let each (f : Nat → Nat) : List Nat := (List.range n).map (fun e => if active e then f e else old e)
  let lanes (f g h : Nat → Nat) : List Lane := (List.range n).map (fun e => { i := e, active := active e, a := f e, b := g e, c := h e, old := old e })
  let few (r : Nat) (t : BitVec 4) : Bool := decide (lenCount s t r < n)
  let none' (r : Nat) : Bool := decide (lenCount s t r = 0)
  let any := (List.range n).any active
  let values (f : Nat → Nat) : List (Option Nat) := (List.range n).map (fun e => if active e then some (f e) else none)
  let special := (Config.word (freeIndex s 2)).toInt
  match m.op with
  | .arith _ .vs =>
    let r := mapLanes (laneVal t rm m.op 0 (fun _ => false)) (lanes b (fun _ => a 0) (fun _ => 0))
    some (r.1, r.2, any && (few m.b t || none' m.a))
  | .fused _ .vs =>
    let r := mapLanes (laneVal t rm m.op 0 (fun _ => false)) (lanes b (fun _ => a 0) (chainElem s t m.d))
    some (r.1, r.2, any && (few m.b t || few m.d t || none' m.a))
  | .red op =>
    let r := reduce t rm op (if m.a = 0 then none else some (a 0)) (values b)
    some ([r.1], r.2, few m.b t || (m.a != 0 && none' m.a))
  | .argmax => let r := argmax t (values b); some ([r.1], r.2, few m.b t)
  | .compress => some (((List.range n).filter (fun e => (predAt s.cur 0).getLsbD e)).map b, Flags.none, few m.b t)
  | .expand => some (each (fun e => b ((List.range e).countP active)), Flags.none, few m.b t)
  | .vpcnt => some (each (fun e => (List.range e).countP (fun j => (predAt s.cur (m.a % 8)).getLsbD j) % 2 ^ typeBits t), Flags.none, false)
  | .iota => some (each (fun e => (m.xa.toNat + e) % 2 ^ typeBits t), Flags.none, false)
  | .confl => some (each (fun e => ((List.range e).reverse.find? (fun j => active j && a j == a e)).getD 0xFFFFFFFF), Flags.none, few m.a t)
  | .slideUp => some ((List.range n).map (fun e => if active e && decide (m.xa.toNat ≤ e) then wholeElem s t m.b (e - m.xa.toNat) else old e), Flags.none, false)
  | .slideDn => some (each (fun e => wholeElem s t m.b (m.xa.toNat + e)), Flags.none, false)
  | .perm => some (each (fun e => wholeElem s t m.b (chainElem s 6 m.a e)), Flags.none, few m.a 6)
  | .scan op =>
    let r := scanFrom (combine t rm op) (fun e => (predAt s.cur 0).getLsbD e) none (lanes b (fun _ => 0) (fun _ => 0))
    some (r.1, r.2, few m.b t)
  | .topk => some (topk t special m.xb.toNat (lanes a (fun _ => 0) (fun _ => 0)), Flags.none, (List.range n).any (fun e => active e && decide (lenCount s t m.a ≤ e)))
  | .sortk => some (sortk t special (lanes a (fun _ => 0) (fun _ => 0)), Flags.none, (List.range n).any (fun e => active e && decide (lenCount s t m.a ≤ e)))
  | .inter =>
    let side (r : Nat) : List Lane := (List.range (min n ((readElems t (chainBytes (coreAt s s.core) (vreg s.cur r))).take (lenCount s t r)).length)).map (fun e => { i := e, active := active e, a := chainElem s t r e, b := 0, c := 0, old := 0 })
    some (interWalk t special (2 * n + 1) ((Config.word (freeIndex s 1)).getLsbD 0) (side m.a) (side m.b), Flags.none, few m.a t || few m.b t)
  | _ => none

/-- Cross-element VX words (R221, R277, R287 to R297): the elements of `crossResult` are written to the destination as a whole chain of the result's type. -/
def Claims.CrossElementWords : Prop :=
  ∀ (i : Instr) (s : State) (w : Word32) (op : VOp) (es : List Nat) (f : Flags) (short : Bool), encode i = some w → vectorOp i = some op →
    Alone s w op → crossResult s (memberOf s w op) = some (es, f, short) →
    let m := memberOf s w op
    let rt := resultType s.cur.vtype op
    let written := writeResult s.curKey m.d rt (bytesOfElems rt es.length) 0 (bytesOfList rt (padNibble s) es) (running s w op)
    (∀ u, written = some u → Completes i s (Retired (raiseAll (withShort f short) u))) ∧
    (written = none → Completes i s (fun t => Trapped 30 (BitVec.ofNat 64 (pfree s s.core)) s.cur.pc (running s w op) t ∧ t.cur.vstart = 0 ∧ t.cur.vcvx = 0 ∧
      t.cur.vflags = s.cur.vflags ∧ t.cur.v = s.cur.v))

/-- What a word gives in an x register whatever the length (R283, R298, R304). -/
def scalarAnswer (s : State) (m : Member) : Option (Nat × Word) :=
  let k := coreAt s s.core
  let set := (List.range s.cur.vl).filter (fun j => (predAt s.cur m.a).getLsbD j)
  match m.op with
  | .mvToX => some (m.d, match readElems s.cur.vtype (chainBytes k (vreg s.cur m.a)) with | e :: _ => elemWord s.cur.vtype e | [] => 0)
  | .len => some (m.d, BitVec.ofNat 64 (elemsOfBytes (vreg s.cur m.a).type (chainLen (vreg s.cur m.a))))
  | .pcnt => some (m.d, BitVec.ofNat 64 set.length)
  | .pfirst => some (m.d, match set with | e :: _ => BitVec.ofNat 64 e | [] => BitVec.allOnes 64)
  | _ => none

/-- Words that answer in an x register (R268, R283, R298, R304): where the convoy has an element to process, and where `vl` is 0, `vmv.x`, `vlen`, `pcnt` and `pfirst` write it and nothing else. -/
def Claims.ScalarAnswers : Prop :=
  ∀ (i : Instr) (s : State) (w : Word32) (op : VOp) (r : Nat) (v : Word), encode i = some w → vectorOp i = some op → s.cur.convoy = [] →
    w.getLsbD 26 = false → decodeTrap (memberOf s w op) s = none → s.cur.vl = 0 ∨ (s.cur.vstart < s.cur.vl ∧ stopPoint s = none) →
    (op = .mvToX → badElem (regOf (coreAt s s.core) (vreg s.cur (memberOf s w op).a)) (typeBits s.cur.vtype) 0 = none) →
    scalarAnswer s (memberOf s w op) = some (r, v) →
    Completes i s (Retired (wx (BitVec.ofNat 5 r) v (running s w op)))

/-- The checks of decode in their order, each as the class of its trap and what `stval` gets (R96, R100, R133, R134, R160, R167, R195, R235, R276, R299). -/
def decodeChecks (s : State) (m : Member) (code : Nat) (tval : Word) : Prop :=
  let t := s.cur.vtype
  let word := m.word.setWidth 64
  let absent : Prop := isApex m.op = true ∧ isDCore s.core = true
  let wrong : Prop := t = 0 ∨ acceptsType m.op t = false ∨ pairOk m t = false ∨ (isPredicateWord m = true ∧ 4096 < s.cur.vl) ∨
    (∃ x ∈ xReads m, x ≠ 0 ∧ ∃ e ∈ s.cur.convoy, x ∈ xWrites e)
  let unclaimed : Prop := needsClaim m.op = true ∧ visibleClaim s = none
  let size : Prop := takesKeys m.op = true ∧ ∃ c, visibleClaim s = some c ∧ typeBits t ≠ 8 * keyBytes c
  let invalid (r : Nat) : Prop := s.cur.validMode = true ∧ (regReads t m).find? (fun r => !countsValid s r) = some r
  let valid : Prop := s.cur.validMode = true → ∀ r ∈ regReads t m, countsValid s r = true
  let closed : Prop := isRayForm m.op = true ∧ rayOfRecv s (threadOf s.cur) m.xa.toNat = none
  (code = 25 ∧ tval = word ∧ (absent ∨ (¬wrong ∧ unclaimed))) ∨
  (code = 2 ∧ tval = word ∧ ¬absent ∧ (wrong ∨ (¬unclaimed ∧ size))) ∨
  (code = 24 ∧ ¬absent ∧ ¬wrong ∧ ¬unclaimed ∧ ¬size ∧ ∃ r, invalid r ∧ tval = BitVec.ofNat 64 r) ∨
  (code = 50 ∧ tval = m.xa ∧ ¬absent ∧ ¬wrong ∧ ¬unclaimed ∧ ¬size ∧ valid ∧ closed)

/-- How a VX or VM word enters a convoy (R97, R98, R134, R195): one that fails a check of decode traps at the convoy's first word with its place in `vcvx`, the words before it discarded. -/
def Claims.ConvoyEntry : Prop :=
  ∀ (i : Instr) (s : State) (w : Word32) (op : VOp), encode i = some w → vectorOp i = some op → s.cur.convoy.length < 4 →
    let m := memberOf s w op
    let first := if s.cur.convoy = [] then s.cur.pc else s.cur.convoyPc
    (∀ code tval, decodeChecks s m code tval → Completes i s (fun t => Trapped code tval first s t ∧ t = { s with cur := t.cur } ∧
      t.cur.vcvx = BitVec.ofNat 2 s.cur.convoy.length ∧ t.cur.vstart = s.cur.vstart)) ∧
    ((∀ code tval, ¬decodeChecks s m code tval) → decodeTrap m s = none) ∧
    (decodeTrap m s = none → w.getLsbD 26 = true → Completes i s (fun t =>
      t = { s with cur := { s.cur with convoy := s.cur.convoy ++ [m], convoyPc := first, pc := s.cur.pc + 4 } }))

/-! ## Vector memory -/

/-- A word with indexed addresses. -/
def isIndexed (op : VOp) : Bool := match op with | .ld .indexed _ | .st .indexed | .rs _ true => true | _ => false

/-- How a vector memory word forms its addresses (R308, R313). -/
def addrKind (op : VOp) : AddrKind := match op with | .ld k _ | .st k => k | .rs _ true => .indexed | _ => .unit

/-- The lanes of a vector memory word: the element it stores, and its index. -/
def accessLanes (s : State) (m : Member) : List Lane :=
  let t := s.cur.vtype
  (span s).map (fun e =>
    { i := e, active := laneActive s m e, a := (match m.op with | .ld _ _ => 0 | _ => chainElem s t m.d e),
      b := if isIndexed m.op then chainElem s 6 m.b e else 0, c := 0, old := oldElem s t m.d e })

/-- SHORT of a vector memory word (R301): the elements it stores, or its indexes, are fewer than `vl`. -/
def accessShort (s : State) (m : Member) : Bool :=
  (match m.op with | .ld _ _ => false | _ => decide (chainCount s s.cur.vtype m.d < s.cur.vl)) || (isIndexed m.op && decide (chainCount s 6 m.b < s.cur.vl))

/-- The pass of a load over the elements below n. -/
def loadPass (s : State) (w : Word32) (op : VOp) (n : Nat) : Pass :=
  let m := memberOf s w op
  loadLanes s.cur.vtype s.cur.vmt.toNat (addrKind op) m.xa m.xb ((accessLanes s m).take (n - s.cur.vstart)) (started s w op)

/-- A load's result as it is written: `es` from `vstart` on, of a chain of `n` elements. -/
def loadResult (s u : State) (m : Member) (n : Nat) (pad : Nat) (es : List Nat) : Option State :=
  let t := s.cur.vtype
  writeResult s.curKey m.d t (bytesOfElems t n) (bytesOfElems t s.cur.vstart) (bytesOfList t pad (earlier s t m ++ es)) u

/-- What a load's element is (R126, R178, R308, R309): an inactive lane's old element, an active one's memory as vector words see it at the element's address,
which is aligned and readable. -/
def loadedElem (s : State) (op : VOp) (m : Member) (l : Lane) (x : Nat) : Prop :=
  let t := s.cur.vtype
  let addr := elemAddr t (addrKind op) m.xa m.xb l.b l.i
  let n := typeSize t
  (l.active = false → x = l.old) ∧
  (l.active = true → addr.toNat % n = 0 ∧ ∃ k use,
    spacePlace s (who s) s.cur.vmt.toNat .load addr.toNat = .ok (k, use) ∧ hasError k n s = false ∧
    x = (let b := natOf (seeBytes s .vector k n); if t = 14 then (if l.i % 2 = 0 then b % 16 else b / 16) else b))

/-- A pass of a vector memory word, with the translations of its pages entered once each into the TLBs (R142). -/
def Pass.entered (p : Pass) : State := usePages p.uses p.s

/-- An access of the pass must wait: for an engine operation on its range (R152), or for a die TLB that an invalidation holds (R143). -/
def Pass.waits (p : Pass) : Prop := (p.hit = none ∧ p.stall = true) ∨ ∃ e f, p.hit = some (e, f) ∧ f.code = heldCode

/-- Vector loads (R126, R142, R308, R309): where no element faults and none must wait, every element is loaded and the chain is written; where one must wait, nothing changes. -/
def Claims.VectorLoads : Prop :=
  ∀ (i : Instr) (s : State) (w : Word32) (kind : AddrKind) (first : Bool), encode i = some w → vectorOp i = some (.ld kind first) →
    Alone s w (.ld kind first) →
    let op := VOp.ld kind first
    let m := memberOf s w op
    let p := loadPass s w op s.cur.vl
    (p.hit = none → p.stall = false →
      (ceilDiv (bytesOfElems s.cur.vtype s.cur.vl) 256 ≤ allocatable s s.curKey →
        ∀ u, loadResult s (raiseAll (withShort Flags.none (accessShort s m)) (Pass.entered p)) m s.cur.vl (padNibble s) p.es = some u → Completes i s (Retired u)) ∧
      (Pass.entered p).cur = (started s w op).cur ∧ OnlyFocusAndTlb (started s w op) (Pass.entered p) ∧ p.es.length = (accessLanes s m).length ∧
      ∀ x ∈ (accessLanes s m).zip p.es, loadedElem (started s w op) op m x.1 x.2) ∧
    (Pass.waits p → ceilDiv (bytesOfElems s.cur.vtype s.cur.vl) 256 ≤ allocatable s s.curKey → Completes i s (· = s))

/-- First-fault loads (R311): a fault above the first element shortens `vl` to the element at fault, loads what lies below it, and for a remote page asks for the page. -/
def Claims.FirstFaultLoads : Prop :=
  ∀ (i : Instr) (s u : State) (w : Word32) (kind : AddrKind) (e : Nat) (f : Trap), encode i = some w → vectorOp i = some (.ld kind true) →
    Alone s w (.ld kind true) → (loadPass s w (.ld kind true) s.cur.vl).hit = some (e, f) → f.code ≠ heldCode → s.cur.vstart < e →
    let m := memberOf s w (.ld kind true)
    let q := loadPass s w (.ld kind true) e
    let short := isIndexed m.op && decide (chainCount s 6 m.b < e)
    q.stall = false → ceilDiv (bytesOfElems s.cur.vtype e) 256 ≤ allocatable s s.curKey →
    loadResult s (raiseAll (withShort Flags.none short) (Pass.entered q)) m e (padNibble s) q.es = some u →
    q.hit = none ∧ Completes i s (fun t => t.cur.vl = e ∧ ∃ v : State, v.cur = { u.cur with vl := e } ∧ Retired v t ∧
      (f.code ≠ 27 → v = { u with cur := v.cur }) ∧
      (f.code = 27 → ∀ k, s.cur.task = some k → v = fetchPage k.part (f.tval.toNat / 65536) { u with cur := v.cur }))

/-! ## Vector stores -/

/-- The elements that a store writes, each with the byte it goes to, in order: every active lane's place in the state that the elements before it leave. -/
def storeSpots (t : BitVec 4) (vmt : Nat) (kind : AddrKind) (base stride : Word) : List Lane → State → List (Nat × Lane)
  | [], _ => []
  | l :: rest, s =>
    if !l.active then storeSpots t vmt kind base stride rest s else
    match elemPlace s 1 vmt (typeSize t) .store (elemAddr t kind base stride l.b l.i), storeLane t vmt kind base stride l s with
    | .ok (k, _), .ok (u, _) => (k, l) :: storeSpots t vmt kind base stride rest u
    | _, _ => []

/-- Two stored elements that share a byte of memory, or, in e2m1, half a byte. -/
def collide (t : BitVec 4) (x y : Nat × Lane) : Prop :=
  if t = 14 then x.1 = y.1 ∧ x.2.i % 2 = y.2.i % 2 else x.1 < y.1 + typeSize t ∧ y.1 < x.1 + typeSize t

/-- A byte to which the thread has made a write that no fence orders before a vector write, so that it may be performed after it (R178). -/
def unordered (s : State) (k : Nat) : Prop := ∃ e ∈ s.cur.stale, e.yields = true ∧ e.toVector = true ∧ e.key ≤ k ∧ k < e.key + e.old.length

/-- Memory after a store: every byte outside the stored elements as before, and every element that no later one overwrites at its place (R309), but for bytes where
an unordered write of the thread's own is performed after it. -/
def storedAt (t : BitVec 4) (spots : List (Nat × Lane)) (s u : State) : Prop :=
  (∀ k, (∀ x ∈ spots, k < x.1 ∨ x.1 + typeSize t ≤ k) → getByte k u.mem = getByte k s.mem) ∧
  (∀ pre x post, spots = pre ++ x :: post → (∀ y ∈ post, ¬collide t x y) →
    if t = 14 then (getByte x.1 u.mem).toNat / 16 ^ (x.2.i % 2) % 16 = x.2.a % 16 ∨
      (unordered s x.1 ∧ (getByte x.1 u.mem).toNat / 16 ^ (x.2.i % 2) % 16 = (getByte x.1 s.mem).toNat / 16 ^ (x.2.i % 2) % 16)
    else ∀ j < typeSize t, getByte (x.1 + j) u.mem = BitVec.ofNat 8 (x.2.a / 256 ^ j) ∨ (unordered s (x.1 + j) ∧ getByte (x.1 + j) u.mem = getByte (x.1 + j) s.mem))

/-- Vector stores (R142, R178, R301, R308, R309): a stride of 0 takes the shape fault. -/
def Claims.VectorStores : Prop :=
  ∀ (i : Instr) (s : State) (w : Word32) (kind : AddrKind), encode i = some w → vectorOp i = some (.st kind) → Alone s w (.st kind) →
    let op := VOp.st kind
    let m := memberOf s w op
    let t := s.cur.vtype
    s.cur.release = none →
    (kind = .strided → m.xb = 0 → Completes i s (fun v => Trapped 48 0 s.cur.pc (started s w op) v ∧ v.cur.vcvx = 0)) ∧
    ((kind = .strided → m.xb ≠ 0) →
      let p := storeLanes t s.cur.vmt.toNat kind m.xa m.xb (accessLanes s m) (started s w op)
      (Pass.waits p → Completes i s (· = s)) ∧
      (p.hit = none → p.stall = false →
        Completes i s (fun v => Retired (raiseAll (withShort Flags.none (accessShort s m)) (Pass.entered p)) v ∧
          (s.badCells = [] → p.s.cur = { (started s w op).cur with stale := p.s.cur.stale, resv := p.s.cur.resv }) ∧
          (Memory.wf s.mem = true → s.badCells = [] → storedAt t (storeSpots t s.cur.vmt.toNat kind m.xa m.xb (accessLanes s m) (started s w op)) s v))))

/-- The data and the progress words that a `vstn` writes, block by block: the stored elements, the word's byte and the count. -/
def notifySpots (t : BitVec 4) (vmt : Nat) (base word : Word) (n : Nat) : Nat → List Lane → State → List (List (Nat × Lane) × Nat × Nat)
  | 0, _, _ => []
  | _, [], _ => []
  | fuel + 1, l :: ls, s =>
    let stop := (l.i / perBlock t + 1) * perBlock t
    let block := (l :: ls).takeWhile (fun x => decide (x.i < stop))
    match elemPlace s 1 vmt 8 .store word with
    | .error _ => []
    | .ok (k, _) =>
      let p := storeLanes t vmt .unit base 0 block s
      (storeSpots t vmt .unit base 0 block s, k, min stop n) ::
        notifySpots t vmt base word n fuel ((l :: ls).dropWhile (fun x => decide (x.i < stop))) (progressWrite vmt word k (min stop n) p.s)

/-- `vstn` (R142, R153, R312): where nothing faults and nothing must wait, the word retires, its data stored, and the progress word holds `vl`. -/
def Claims.StoreWithNotify : Prop :=
  ∀ (i : Instr) (s : State) (w : Word32), encode i = some w → vectorOp i = some .stn → Alone s w .stn → s.cur.release = none →
    let m := memberOf s w .stn
    let t := s.cur.vtype
    let vmt := s.cur.vmt.toNat
    let n := s.cur.vl
    let p := notifyBlocks t vmt m.xa m.xb s.cur.vstart n n (n + 1) (accessLanes s m) (started s w .stn)
    let spots := notifySpots t vmt m.xa m.xb n (n + 1) (accessLanes s m) (started s w .stn)
    (Pass.waits p → Completes i s (· = s)) ∧
    (p.hit = none → p.stall = false →
      Completes i s (fun v => Retired (raiseAll (withShort Flags.none (accessShort s m)) (Pass.entered p)) v ∧
        (∀ j < spots.length, (spots[j]?.map (·.2.2)) = some (min ((s.cur.vstart / perBlock t + j + 1) * perBlock t) n)) ∧
        (Memory.wf s.mem = true → s.badCells = [] →
          (∀ x, spots.getLast? = some x → x.2.2 = n ∧ natOf (getBytes x.2.1 8 v.mem) = n % 2 ^ 64) ∧
          (s.pending = [] → s.tokens = [] →
            ∀ k, (∀ x ∈ spots, (k < x.2.1 ∨ x.2.1 + 8 ≤ k) ∧ ∀ y ∈ x.1, k < y.1 ∨ y.1 + typeSize t ≤ k) → getByte k v.mem = getByte k s.mem))))

/-- The elements that a reduce-store combines, each with its byte. -/
def reduceSpots (t : BitVec 4) (vmt : Nat) (op : CombOp) (kind : AddrKind) (base : Word) : List Lane → State → List (Nat × Lane)
  | [], _ => []
  | l :: rest, s =>
    if !l.active then reduceSpots t vmt op kind base rest s else
    let addr := elemAddr t kind base 0 l.b l.i
    match elemPlace s 1 vmt (typeSize t) .reduce addr with
    | .error _ => []
    | .ok (k, _) => (k, l) :: reduceSpots t vmt op kind base rest (reduceElem t vmt op addr.toNat k l.a s)

/-- The elements of one reduce-store that name the byte k, combined in ascending index (R313). -/
def combined (t : BitVec 4) (frm : BitVec 3) (op : CombOp) (spots : List (Nat × Lane)) (k : Nat) : Nat :=
  match (spots.filter (fun x => x.1 == k)).map (·.2.a) with
  | [] => 0
  | a :: rest => rest.foldl (fun v b => (combine t frm op v b).w) a

/-- Reduce-stores (R142, R151, R207, R208, R313): where no element faults and none must wait, the word retires. -/
def Claims.ReduceStores : Prop :=
  ∀ (i : Instr) (s : State) (w : Word32) (op : CombOp) (indexed : Bool), encode i = some w → vectorOp i = some (.rs op indexed) →
    Alone s w (.rs op indexed) → s.cur.release = none →
    let m := memberOf s w (.rs op indexed)
    let t := s.cur.vtype
    let vmt := s.cur.vmt.toNat
    let kind := addrKind m.op
    let p := reduceAll t vmt op kind m.xa (accessLanes s m) (started s w (.rs op indexed))
    let spots := reduceSpots t vmt op kind m.xa (accessLanes s m) (started s w (.rs op indexed))
    (Pass.waits p → Completes i s (· = s)) ∧
    (p.hit = none → p.stall = false →
      Completes i s (fun v => Retired (raiseAll (withShort Flags.none (accessShort s m)) (Pass.entered p)) v ∧
        (vmt ≤ 1 → v.mem = s.mem ∧ ∀ x ∈ spots, ∃ q ∈ v.pending, q.op = op ∧ q.type = t ∧ q.line = x.1 / 256 * 256 ∧ (∃ y ∈ q.elems, y.key = x.1) ∧
          (s.pending = [] → { key := x.1, value := combined t s.cur.frm op spots x.1, frm := s.cur.frm } ∈ q.elems)) ∧
        (2 ≤ vmt → Memory.wf s.mem = true → s.badCells = [] →
          (∀ k, (∀ x ∈ spots, k < x.1 ∨ x.1 + typeSize t ≤ k) → getByte k v.mem = getByte k s.mem) ∧
          ((∀ x ∈ spots, spots.countP (fun z => decide (z.1 < x.1 + typeSize t) && decide (x.1 < z.1 + typeSize t)) = 1) → ∀ x ∈ spots,
            natOf (getBytes x.1 (typeSize t) v.mem) = (combine t s.cur.frm op (natOf (getBytes x.1 (typeSize t) s.mem)) x.2.a).w % 2 ^ (8 * typeSize t)))))

/-! ## The pool -/

/-- How often a segment is named by the v registers of the focus. -/
def timesNamed (s : State) (g : Nat) : Nat := (s.cur.v.toList.flatMap (·.pieces)).countP (fun p => p.seg == g)

/-- The pool of the focus's core is in order as far as its v registers go (R114 to R117, R119): entries stand under rising names below the next new one; every
piece lies within a segment that is in use, whose data is 256 bytes, and whose COUNT covers every time that these registers name it. -/
structure PoolOk (s : State) : Prop where
  rising : ((coreAt s s.core).segs.map (·.1)).Pairwise (· < ·)
  below : ∀ x ∈ (coreAt s s.core).segs, x.1 < (coreAt s s.core).nextSeg
  whole : ∀ x ∈ (coreAt s s.core).segs, x.2.data.length = 256
  held : ∀ c ∈ s.cur.v.toList, ∀ p ∈ c.pieces, ∃ x ∈ (coreAt s s.core).segs, x.1 = p.seg ∧ 1 ≤ p.count ∧ p.first + p.count ≤ 256
  counted : ∀ x ∈ (coreAt s s.core).segs, timesNamed s x.1 ≤ x.2.count

/-- The bytes of a register. -/
def regBytes (s : State) (r : Nat) : List Byte := chainBytes (coreAt s s.core) (vreg s.cur r)

/-- A register has the same descriptor and the same bytes. -/
def SameReg (s t : State) (r : Nat) : Prop := vreg t.cur r = vreg s.cur r ∧ regBytes t r = regBytes s r

/-- What a result or an edit leaves alone: everything of the context but its v registers, its reserve and `vflags`; memory; every other core's pool. -/
def OnlyChains (s t : State) : Prop :=
  t.cur = { s.cur with v := t.cur.v, pres := t.cur.pres, vflags := t.cur.vflags } ∧ t.mem = s.mem ∧ t.curKey = s.curKey ∧
    ∀ g, g ≠ s.core → (coreAt t g).segs = (coreAt s g).segs

/-- What each chain edit leaves, as R122 and R303 tabulate: the registers that take a result, each with its type and bytes (a later line of the table
stands over an earlier), and the registers released unless they take one. -/
def editTable (s : State) (m : Member) : Option (List (Nat × BitVec 4 × List Byte) × List Nat) :=
  let a := regBytes s m.a
  let b := regBytes s m.b
  let ta := (vreg s.cur m.a).type
  let n := m.xb.toNat
  let elems := elemsOfBytes ta a.length
  let cut := if elems ≤ n then a.length else bytesOfElems ta n
  let oddCut : Prop := ta = 14 ∧ n % 2 = 1 ∧ n < elems
  match m.op with
  | .prep => if 16384 < a.length + b.length then none else some ([(m.d, (vreg s.cur m.b).type, a ++ b)], if m.a = m.b then [] else [m.b])
  | .join => if 16384 < a.length + b.length then none else some ([(m.d, ta, a ++ b)], [m.a, m.b])
  | .trimh => if oddCut then none else some ([(m.d, ta, a.drop cut)], [m.a])
  | .trimt => if oddCut then none else some ([(m.d, ta, a.take (a.length - cut))], [m.a])
  | .split => if oddCut then none else some ((if elems ≤ n then [] else [(m.a, ta, a.take cut)]) ++ [(m.d, ta, a.drop cut)], [])
  | .share => some ([(m.d, ta, a)], [])
  | .retype t => if t ≠ 14 ∧ a.length % typeSize t ≠ 0 then none else some ([(m.d, t, a)], [m.a])
  | .norm => some ([(m.d, ta, a)], [m.a])
  | .free => some ([], [m.d])
  | _ => none

/-- A chain edit. -/
def isEdit (op : VOp) : Bool := match op with | .prep | .trimh | .trimt | .split | .join | .share | .retype _ | .free | .norm => true | _ => false

/-- Chain edits (R120 to R123, R303): a shape fault where R303 asks for it, and nothing changes. -/
def Claims.ChainEdits : Prop :=
  ∀ (i : Instr) (s : State) (w : Word32) (op : VOp), encode i = some w → vectorOp i = some op → isEdit op = true → Alone s w op → PoolOk s →
    let m := memberOf s w op
    (editTable s m = none → Completes i s (fun t => Trapped 48 0 s.cur.pc (running s w op) t ∧ t.cur.vstart = 0 ∧ t.cur.vcvx = 0 ∧ t = { s with cur := t.cur })) ∧
    (∀ sets frees, editTable s m = some (sets, frees) → (vreg s.cur m.a).pieces.length + (vreg s.cur m.b).pieces.length ≤ 64 →
      (∀ x ∈ (coreAt s s.core).segs, x.2.count < 128) → (op = .norm → ceilDiv (regBytes s m.a).length 256 ≤ allocatable s s.curKey) →
      Completes i s (fun t => (∃ u, PoolOk u ∧ OnlyChains (running s w op) u ∧ u.cur.vflags = s.cur.vflags ∧ Retired u t) ∧
        (∀ x ∈ sets, (vreg t.cur x.1).valid = true ∧ (vreg t.cur x.1).type = x.2.1 ∧ regBytes t x.1 = x.2.2) ∧
        (∀ r ∈ frees, (∀ x ∈ sets, x.1 ≠ r) → vreg t.cur r = releasedChain s.cur) ∧
        (∀ r < 32, r ∉ frees → (∀ x ∈ sets, x.1 ≠ r) → SameReg s t r) ∧
        (op = .norm → (vreg t.cur m.d).pieces.length = ceilDiv (regBytes s m.a).length 256 ∧ ∀ p ∈ (vreg t.cur m.d).pieces, p.first = 0)))

/-- Compaction (R124): an edit's pieces are packed until at most 64 are left, the bytes they hold are the same, in order, and only fresh segments are written. -/
def Claims.Compaction : Prop :=
  ∀ (s u : State) (ps qs : List Piece) (fresh : List Nat), PoolOk s →
    (∀ p ∈ ps, ∃ x ∈ (coreAt s s.core).segs, x.1 = p.seg ∧ 1 ≤ p.count ∧ p.first + p.count ≤ 256) →
    ps.length ≤ 128 → (ps.map (·.count)).sum ≤ 16384 → compact s.curKey 128 ps [] s = .ok (qs, fresh, u) →
    qs.length ≤ 64 ∧ (qs.map (pieceBytes (coreAt u u.core))).flatten = (ps.map (pieceBytes (coreAt s s.core))).flatten ∧
      (∀ g ∈ fresh, ∀ x ∈ (coreAt s s.core).segs, x.1 ≠ g) ∧ (∀ x ∈ (coreAt s s.core).segs, x ∈ (coreAt u u.core).segs) ∧ u.cur = { s.cur with pres := u.cur.pres }

/-! ## Spill and fill -/

/-- The 64 bytes of a spill image's header (R119, R305). -/
def spillHeader (type : BitVec 4) (len : Nat) : List Byte :=
  bytesOf 64 (2 ^ 31 + type.toNat * 2 ^ 27 + ceilDiv len 256 * 2 ^ 15 + len)

/-- `vspill` (R305, R306): an address that is not 64-byte aligned traps with code 6. -/
def Claims.Spills : Prop :=
  ∀ (a r : BitVec 5) (s : State) (w : Word32), encode (.vspill a r) = some w → Alone s w .spill →
    let m := memberOf s w .spill
    let c := vreg s.cur m.d
    let vmt := s.cur.vmt.toNat
    let data := chainBytes (coreAt s s.core) c
    let header := spillHeader c.type (chainLen c)
    let off := m.xa.toNat
    (off % 64 ≠ 0 → Completes (.vspill a r) s (fun v => Trapped 6 m.xa s.cur.pc (running s w .spill) v ∧ v.cur.vstart = 0)) ∧
    (off % 64 = 0 → s.cur.release = none → ∀ s1 s2, spillBlocks vmt 257 (m.xa + 64) data (running s w .spill) = (s1, none, false) →
      spillBlocks vmt 2 m.xa header s1 = (s2, none, false) →
      Completes (.vspill a r) s (fun v => Retired (releaseReg s.curKey m.d s2) v ∧ v.mem = s2.mem ∧ vreg v.cur m.d = releasedChain s.cur)) ∧
    (off % 64 = 0 → ∀ s1 f st, spillBlocks vmt 257 (m.xa + 64) data (running s w .spill) = (s1, some f, st) → f.code = heldCode → Completes (.vspill a r) s (· = s)) ∧
    (off % 64 = 0 → s.cur.release = none → vmt = 2 → (∀ k, ¬unordered s k) → data.length = chainLen c → chainLen c ≤ 16384 → off + 64 + 16384 ≤ scratchSize s.core →
      (coreAt s s.core).claim = none → (coreAt s s.core).scored = [] → s.badCells = [] → Memory.wf s.mem = true →
      Completes (.vspill a r) s (fun v => getBytes (scratchKey s.core off) 64 v.mem = header ∧ getBytes (scratchKey s.core (off + 64)) (chainLen c) v.mem = data ∧
        SameOutside (scratchKey s.core off) (64 + chainLen c) s v ∧ v.cur.pc = s.cur.pc + 4))

/-- `vfill` (R305, R307): an address that is not 64-byte aligned traps with code 4, a header that fails its check with code 48. -/
def Claims.Fills : Prop :=
  ∀ (a d : BitVec 5) (s : State) (w : Word32), encode (.vfill a d) = some w → Alone s w .fill →
    let m := memberOf s w .fill
    let vmt := s.cur.vmt.toNat
    let off := m.xa.toNat
    (off % 64 ≠ 0 → Completes (.vfill a d) s (fun v => Trapped 4 m.xa s.cur.pc (running s w .fill) v ∧ v.cur.vstart = 0)) ∧
    (off % 64 = 0 → ∀ f, fillBlocks vmt 2 m.xa 64 (running s w .fill) = .error f → f.code = heldCode → Completes (.vfill a d) s (· = s)) ∧
    (off % 64 = 0 → ∀ h s1, fillBlocks vmt 2 m.xa 64 (running s w .fill) = .ok (h, s1, false) →
      (headerOk h = none → Completes (.vfill a d) s (fun v => Trapped 48 m.xa s.cur.pc (running s w .fill) v ∧ v.cur.vstart = 0 ∧ v.cur.v = s.cur.v)) ∧
      (∀ type len bs s2, headerOk h = some (type, len) → fillBlocks vmt 257 (m.xa + 64) len s1 = .ok (bs, s2, false) → ceilDiv len 256 ≤ allocatable s s.curKey →
        ∃ ps s3, freshPieces s.curKey (blocksOf 65 bs) s2 = some (ps, s3) ∧
          Completes (.vfill a d) s (fun t => Retired (replaceReg s.curKey m.d { valid := true, type := type, pieces := ps } s3) t ∧
            (PoolOk s → (vreg t.cur m.d).valid = true ∧ (vreg t.cur m.d).type = type ∧ regBytes t m.d = bs ∧ ps.length = ceilDiv len 256 ∧
              (∀ p ∈ ps, p.first = 0 ∧ ∀ x ∈ (coreAt s s.core).segs, x.1 ≠ p.seg) ∧ ∀ r < 32, r ≠ m.d → SameReg s t r)))) ∧
    (∀ n at', at' % 64 = 0 → vmt = 2 → at' + n ≤ scratchSize s.core → (coreAt s s.core).claim = none → (coreAt s s.core).scored = [] → s.badCells = [] → s.cur.stale = [] →
      n ≤ 16384 → fillBlocks vmt 257 (BitVec.ofNat 64 at') n s = .ok (getBytes (scratchKey s.core at') n s.mem, s, false)) ∧
    (∀ type len, type.toNat ≤ 14 → len ≤ 16384 → headerOk (spillHeader type len) = some (type, len))

/-! ## The Facet table -/

/-- What `fclaim` reports, the first that holds of 4, 1, 2, 3, 5 (R159). -/
def claimReport (s : State) (l cfg : Nat) : Nat :=
  let mine := who s
  let top := if isDCore s.core then 20 else 21
  if l < 16 ∨ top < l ∨ 2 ^ 33 ≤ cfg then 4
  else match (coreAt s s.core).claim with
    | some c => if c.part = mine.part ∧ c.region = mine.region then 1 else 2
    | none =>
      if s.cur.task ≠ none ∧ ∃ j ∈ ancestry s mine.part mine.region, ∃ r, regionAt s mine.part j = some r ∧ r.eff.facet < r.facetUse + 2 ^ l / 65536 then 3
      else if ∃ e ∈ (coreAt s s.core).scored, scratchSize s.core - 2 ^ l < e.base + e.len then 5
      else 0

/-- A region's line, charged for the Facet budget by f. -/
def facetCharged (s : State) (part region : Nat) (f : Nat → Nat) : List Region :=
  s.regions.map (fun r => if r.part = part ∧ r.idx ∈ ancestry s part region then { r with facetUse := f r.facetUse } else r)

/-- A claim just made: its configuration, no spill area and nothing spilled. -/
def newClaim (s : State) (l cfg : Nat) : Claim :=
  { part := (who s).part, region := (who s).region, log2 := l, wide := decide (2 ^ 32 ≤ cfg), seed := BitVec.ofNat 32 cfg, spill := 0, head := 0, count := 0 }

/-- `fclaim` and `frel` (R159, R160, R268, R316), where the convoy has an element to process and where `vl` is 0: `fclaim` writes its code, and on code 0 charges the budget, clears the top 2^L bytes of the scratchpad and sets up the claim. -/
def Claims.FacetClaims : Prop :=
  ∀ (s : State) (b a d : BitVec 5) (w v : Word32), s.cur.convoy = [] → s.cur.vtype ≠ 0 → Memory.wf s.mem = true →
    s.cur.vl = 0 ∨ (s.cur.vstart < s.cur.vl ∧ stopPoint s = none) → encode (.fclaim b a d) = some w → encode .frel = some v →
    let l := (rx s a).toNat
    let cfg := (rx s b).toNat
    let code := claimReport s l cfg
    let base (n : Nat) := scratchKey s.core (scratchSize s.core - 2 ^ n)
    let cleared (n : Nat) (t : State) : Prop := (∀ k < 2 ^ n, getByte (base n + k) t.mem = 0) ∧ SameOutside (base n) (2 ^ n) s t
    Completes (.fclaim b a d) s (fun t => getX t.cur d = (if d = 0 then 0 else BitVec.ofNat 64 code) ∧ (∀ r, r ≠ d → getX t.cur r = getX s.cur r) ∧ t.cur.pc = s.cur.pc + 4 ∧
      (code ≠ 0 → Retired (wx d (BitVec.ofNat 64 code) (running s w .fclaim)) t) ∧
      (code = 0 → (coreAt t s.core).claim = some (newClaim s l cfg) ∧ cleared l t ∧
        t.regions = facetCharged s (who s).part (who s).region (· + 2 ^ l / 65536))) ∧
    (visibleClaim s = none → Completes .frel s (Retired (running s v .frel))) ∧
    (∀ c, visibleClaim s = some c → 16 ≤ c.log2 → Completes .frel s (fun t => (coreAt t s.core).claim = none ∧ cleared c.log2 t ∧ t.cur.x = s.cur.x ∧ t.cur.pc = s.cur.pc + 4 ∧
      t.regions = facetCharged s c.part c.region (· - 2 ^ c.log2 / 65536)))

/-- A key of the table. -/
def isKey (c : Claim) (k : Nat) : Prop := k < 2 ^ (8 * keyBytes c)

/-- The value under a key (R165). -/
def tableGet (s : State) (c : Claim) (key : Nat) : Option Nat := (search s c key).map (fun p => slotValue s c p.1 p.2)

/-- A table in order (R165, R166): the search for a key finds every slot of its window that holds it, so that a window holds a key once and never behind an empty slot. -/
def TableOk (s : State) (c : Claim) : Prop :=
  ∀ key, isKey c key → ∀ j ∈ windowOf c key, ∀ i < slotsOf c, occBit (bucketHead s c j) i = true →
    natOf (getBytes (slotKey s c j i) (keyBytes c) s.mem) = key → search s c key = some (j, i)

/-- The focus's core holds a claim that its scratchpad can hold, and no byte of it is in error. -/
structure Claimed (s : State) (c : Claim) : Prop where
  held : (coreAt s s.core).claim = some c
  least : 16 ≤ c.log2
  most : c.log2 ≤ if isDCore s.core then 20 else 21
  sound : s.badCells = []
  memory : Memory.wf s.mem = true

/-- Nothing but bytes of the table, reservations, and what earlier writes to those bytes may still be missed has changed. -/
def OnlyTable (s t : State) (c : Claim) : Prop :=
  SameOutside (bucketKey s c 0) (2 ^ c.log2) s t ∧ t = { s with mem := t.mem, cur := t.cur, parked := t.parked, engines := t.engines } ∧
    t.cur = { s.cur with resv := t.cur.resv, stale := t.cur.stale } ∧ t.engines.length = s.engines.length

/-- The value operand of a lane of a keyed word (R317). -/
def keyedOperand (s : State) (m : Member) (e : Nat) : Nat :=
  match m.op with
  | .fins => chainElem s s.cur.vtype m.b e
  | .facc .count => 0
  | .facc _ => chainElem s s.cur.vtype m.d e
  | _ => 0

/-- The groups of a keyed word in the order of their leaders (R168). -/
def groupsOf (s : State) (m : Member) : List Group :=
  let act := (List.range s.cur.vl).filter (laneActive s m)
  let key (e : Nat) := chainElem s s.cur.vtype m.a e
  (act.map key).eraseDups.map (fun k =>
    { key := k, leader := (act.find? (fun e => key e == k)).getD 0, lanes := (act.filter (fun e => key e == k)).map (fun e => (e, keyedOperand s m e)) })

/-- SHORT of a keyed word. -/
def keyedShort (s : State) (m : Member) : Bool :=
  (List.range s.cur.vl).any (laneActive s m) && (decide (lenCount s s.cur.vtype m.a < s.cur.vl) ||
    (match m.op with | .fins => decide (lenCount s s.cur.vtype m.b < s.cur.vl) | .facc .count => false | .facc _ => decide (lenCount s s.cur.vtype m.d < s.cur.vl) | _ => false))

/-- `fdrain` (R172, R318): up to `vl` entries, the occupied slots in bucket and slot order, are taken into two chains, keys and values, as far as no spilled entry is left behind. -/
def Claims.Drains : Prop :=
  ∀ (b d : BitVec 5) (s : State) (w : Word32) (c : Claim), encode (.fdrain b d) = some w → s.cur.vstart = 0 → Alone s w .fdrain → Claimed s c → c.count ≤ c.head →
    let m := memberOf s w .fdrain
    let ks := keyBytes c
    let t : BitVec 4 := if typeBits s.cur.vtype = 8 * ks then s.cur.vtype else if c.wide then 8 else 6
    let total := s.cur.vl * ks
    let slots := (List.range (buckets c)).flatMap (occupied s c)
    let out := slots.take s.cur.vl
    let keys := out.flatMap (fun x => getBytes (slotKey s c x.1 x.2) ks s.mem)
    let values := out.flatMap (fun x => getBytes (slotKey s c x.1 x.2 + ks) ks s.mem)
    let drained := settleTable c 0 (out.foldl (fun s x => buryslot c x.1 x.2 s) (running s w .fdrain))
    ((writeResult s.curKey m.d t total 0 (List.replicate total 0) (running s w .fdrain)).bind (writeResult s.curKey m.b t total 0 (List.replicate total 0))).isSome = true →
    (∀ u1 u, writeResult s.curKey m.d t (out.length * ks) 0 keys drained = some u1 → writeResult s.curKey m.b t (out.length * ks) 0 values u1 = some u →
      Completes (.fdrain b d) s (Retired u)) ∧
    (coreAt drained s.core).claim = some { c with head := 0, count := 0 } ∧
    (∀ j < buckets c, occupied drained c j = (slots.drop s.cur.vl).filter (fun x => x.1 == j)) ∧
    (slots.length ≤ s.cur.vl → ∀ j < buckets c, bucketHead drained c j = 0) ∧
    SameOutside (bucketKey s c 0) (2 ^ c.log2) s drained

/-! ## The matrix engine -/

/-- An MT word: whether it needs a granted type, whether its tiles make it a reserved word, and the registers it reads, v as 0 to 31 and m as 40 to 47
(R242, R319, R322, R326, R330). -/
def mtForm (s : State) : Instr → Option (Bool × Prop × List Nat)
  | .mset _ _ _ _ | .mzero _ | .msca _ _ _ | .mgang _ _ => some (false, False, [])
  | .mld _ _ d | .mldff _ _ d => some (false, (shapeOf s d.toNat).fmt = 4 ∧ d.toNat % 2 = 1, [])
  | .mst _ _ d => some (false, (shapeOf s d.toNat).fmt = 4 ∧ d.toNat % 2 = 1, [40 + d.toNat] ++ if (shapeOf s d.toNat).fmt = 4 then [41 + d.toNat] else [])
  | .mop c b a f => some (false, (f = 4 ∧ (a.toNat % 2 = 1 ∨ b.toNat % 2 = 1)) ∨ (c = 2 ∧ b.toNat % 2 = 1),
      [40 + a.toNat] ++ (if f = 4 then [41 + a.toNat] else []) ++ [40 + b.toNat] ++ (if f = 4 ∨ c = 2 then [41 + b.toNat] else []))
  | .mrowIn _ a f d => some (true, f = 4 ∧ (d.toNat % 2 = 1 ∨ a.toNat % 2 = 1), [a.toNat] ++ if f = 4 then [a.toNat + 1] else [])
  | .mrowOut _ a f d => some (true, f = 4 ∧ (a.toNat % 2 = 1 ∨ d.toNat % 2 = 1), [40 + a.toNat] ++ if f = 4 then [41 + a.toNat] else [])
  | .maccOut _ _ _ _ _ => some (true, False, [])
  | .mbcast _ a => some (false, False, [40 + a.toNat])
  | _ => none

/-- A register that an MT word reads is valid (R134). -/
def mtValid (s : State) (r : Nat) : Bool := if r < 32 then (vreg s.cur r).valid else s.cur.mValid.getLsbD (r - 40)

/-- The checks of decode of MT words (R96, R134, R242, R319): on an S-core every one finds its unit unavailable. -/
def Claims.MatrixDecode : Prop :=
  ∀ (i : Instr) (s : State) (w : Word32) (chains : Bool) (odd : Prop) (reads : List Nat), s.cur.convoy = [] → encode i = some w → mtForm s i = some (chains, odd, reads) →
    let trap (code : Nat) (tval : Word) : Prop := Completes i s (fun t => Trapped code tval s.cur.pc s t ∧ t = { s with cur := t.cur } ∧ t.cur.vstart = s.cur.vstart ∧ t.cur.vcvx = 0)
    (isDCore s.core = false → trap 25 (w.setWidth 64)) ∧
    (isDCore s.core = true → (chains = true ∧ s.cur.vtype = 0) ∨ odd → trap 2 (w.setWidth 64)) ∧
    (isDCore s.core = true → ¬((chains = true ∧ s.cur.vtype = 0) ∨ odd) → s.cur.validMode = true → ∀ r, reads.find? (fun r => !mtValid s r) = some r → trap 24 (BitVec.ofNat 64 r)) ∧
    (isDCore s.core = true → ¬((chains = true ∧ s.cur.vtype = 0) ∨ odd) → (s.cur.validMode = true → ∀ r ∈ reads, mtValid s r = true) →
      (∃ r ∈ reads, 40 ≤ r ∧ tileLoading s (r - 40) = true) → Completes i s (· = s))

/-- An MT word that passes the checks of decode, with no older load of a tile outstanding. -/
structure MtReady (s : State) (i : Instr) : Prop where
  closed : s.cur.convoy = []
  unit : isDCore s.core = true
  form : ∃ chains odd reads, mtForm s i = some (chains, odd, reads) ∧ ¬((chains = true ∧ s.cur.vtype = 0) ∨ odd) ∧
    (s.cur.validMode = true → ∀ r ∈ reads, mtValid s r = true)
  loaded : ∀ n, tileLoading s n = false

/-- The state after an MT word has retired (R268, R319). -/
def MtRetired (u t : State) : Prop := t.cur = { u.cur with vstart := 0, vcvx := 0, pc := u.cur.pc + 4 } ∧ OnlyFocus u t

/-- An MT word that trapped at an element, in the state u that it left. -/
def MtTrapped (code : Nat) (tval : Word) (e : Nat) (u t : State) : Prop := Trapped code tval u.cur.pc u t ∧ t.cur.vstart = e ∧ t.cur.vcvx = 0

/-- A byte of the focus's tile file. -/
def tileByte (s : State) (k : Nat) : Byte := getByte k s.cur.tiles

/-- Tiles and accumulators are in the canonical form of memory. -/
def tilesOk (s : State) : Prop := Memory.wf s.cur.tiles = true

/-- Shapes and zeros (R272, R321): `mset` sets a shape that `mshape` can hold and takes the shape fault for any other; `mzero` clears one tile, which becomes valid, or accumulators. -/
def Claims.ShapesAndZeros : Prop :=
  ∀ (s : State) (b a t : BitVec 5) (f d : BitVec 3), tilesOk s →
    let m : Mshape := { fmt := f, rows := (rx s a).toNat, cols := (rx s b).toNat }
    let ok : Prop := f ≠ 7 ∧ m.rows ≤ 128 ∧ m.cols * fmtBits f ≤ 1024
    (MtReady s (.mset b a f d) → ok → Completes (.mset b a f d) s (fun u => MtRetired { s with cur := { s.cur with mshape := s.cur.mshape.set d.toNat m } } u)) ∧
    (MtReady s (.mset b a f d) → ¬ok → Completes (.mset b a f d) s (MtTrapped 48 0 0 s)) ∧
    (MtReady s (.mzero t) → t.toNat ≤ 10 → s.badCells = [] → Completes (.mzero t) s (fun u =>
      let gone (k : Nat) : Prop := (t.toNat < 8 ∧ tileOff t.toNat 0 0 ≤ k ∧ k < tileOff t.toNat 0 0 + 16384) ∨
        ((t = 8 ∨ t = 10) ∧ accOff 0 0 0 ≤ k ∧ k < accOff 0 0 0 + 65536) ∨ ((t = 9 ∨ t = 10) ∧ accOff 1 0 0 ≤ k ∧ k < accOff 1 0 0 + 65536)
      (∀ k, (gone k → tileByte u k = 0) ∧ (¬gone k → tileByte u k = tileByte s k)) ∧
      MtRetired { s with cur := { s.cur with tiles := u.cur.tiles, mValid := if t.toNat < 8 then s.cur.mValid ||| (1#8 <<< t.toNat) else s.cur.mValid } } u))

/-- A tile transfer word: whether it stores, whether it is a first-fault load, its operands. -/
def tileForm : Instr → Option (Bool × Bool × BitVec 5 × BitVec 5 × BitVec 3)
  | .mld b a d => some (false, false, b, a, d)
  | .mldff b a d => some (false, true, b, a, d)
  | .mst b a d => some (true, false, b, a, d)
  | _ => none

/-- The parts of a tile transfer from row `start` on, with their translations, and the first row that faults, if any (R196, R322, R323). -/
def tileRows (s : State) (store : Bool) (b a : BitVec 5) (d : BitVec 3) (rows start : Nat) : RowMove × Option (Nat × Trap) :=
  checkRows s s.cur.vmt.toNat (if store then .store else .load) d.toNat (shapeOf s d.toNat) (rx s a) (rx s b) (rows - start) start

/-- The tiles that a transfer of tile d moves. -/
def tilesMoved (s : State) (d : BitVec 3) : List Nat := if (shapeOf s d.toNat).fmt = 4 then [d.toNat, d.toNat + 1] else [d.toNat]

/-- A transfer forked (R152, R176, R323): an engine operation of the thread that holds the parts, whose completion is due, with a scoreboard entry for its local range where it has one;
the tiles of a load are valid; nothing is moved yet. With no part nothing is forked. -/
def tileForked (s u : State) (store : Bool) (d : BitVec 3) (parts : List TilePart) : Prop :=
  u.mem = s.mem ∧ u.cur = { s.cur with mValid := if store then s.cur.mValid else (tilesMoved s d).foldl (fun v n => v ||| (1#8 <<< n)) s.cur.mValid } ∧
    (parts = [] → u.engines = s.engines ∧ (coreAt u s.core).scored = (coreAt s s.core).scored) ∧
    (parts ≠ [] → ∃ op : EngineOp, u.engines = s.engines ++ [op] ∧ op.kind = .tile store s.cur.vmt.toNat (tilesMoved s d) parts none ∧ op.failed = none ∧ op.key = s.curKey ∧
      op.thread = (issuerOf s).thread ∧ op.part = (issuerOf s).part ∧ op.region = (issuerOf s).region ∧ op.stale = s.cur.stale ∧ isDue u (.engineOperationComplete op.num) = true ∧
      (coreAt u s.core).scored = (coreAt s s.core).scored ++ (match tileRange s.core parts with
        | some r => [{ op := op.num, base := r.1 / 64 * 64, len := ceilDiv (r.1 + r.2) 64 * 64 - r.1 / 64 * 64, writes := !store }]
        | none => []))

/-- Tile transfers (R99, R143, R152, R176, R196, R322 to R325): a row shape that is no whole number of blocks takes the shape fault. -/
def Claims.TileTransfers : Prop :=
  ∀ (i : Instr) (s : State) (store first : Bool) (b a : BitVec 5) (d : BitVec 3), tileForm i = some (store, first, b, a, d) → MtReady s i →
    let m := shapeOf s d.toNat
    let c := tileRows s store b a d m.rows s.cur.vstart
    let parts := c.1.map (·.1)
    let held : Prop := ∃ e f, c.2 = some (e, f) ∧ f.code = heldCode
    let full : Prop := tileRange s.core parts ≠ none ∧ 32 ≤ (coreAt s s.core).scored.length
    (m.fmt = 4 ∧ m.cols % 32 ≠ 0 → Completes i s (MtTrapped 48 0 0 s)) ∧
    (¬(m.fmt = 4 ∧ m.cols % 32 ≠ 0) → held ∨ full → Completes i s (· = s)) ∧
    (¬(m.fmt = 4 ∧ m.cols % 32 ≠ 0) → ¬held → ¬full → (store = true → s.cur.release = none) → s.badCells = [] →
      (c.2 = none → Completes i s (fun t => ∃ u, tileForked s u store d parts ∧ MtRetired u t)) ∧
      (∀ e f, c.2 = some (e, f) → f.code ≠ 27 →
        ((first = false ∨ e = s.cur.vstart) → Completes i s (fun t => ∃ u, (if e = s.cur.vstart then u = s else tileForked s u store d parts) ∧ MtTrapped f.code f.tval e u t)) ∧
        (first = true → s.cur.vstart < e → Completes i s (fun t => ∃ u, tileForked s u store d parts ∧
          MtRetired { u with cur := { u.cur with mshape := u.cur.mshape.mapIdx (fun j x => if j = d.toNat then { m with rows := e } else x) } } t))))

/-- Where a row of a tile transfer goes in the core's own scratchpad, away from a claimed Facet area (R322, R323): row r of a format other than e2m1 is one stretch of the scratchpad at base + r × stride, in parts, followed in a loaded tile by zeros to 128 bytes. -/
def Claims.TileRowPlaces : Prop :=
  ∀ (s : State) (store : Bool) (m : Mshape) (n r : Nat) (base stride : Word), m.fmt ≠ 4 → mshapeOk m = true → (coreAt s s.core).claim = none →
    let addr := (base + BitVec.ofNat 64 r * stride).toNat
    addr % max 1 (fmtBits m.fmt / 8) = 0 → addr + rowBytes m ≤ scratchSize s.core →
    ∃ l, rowMoves s 2 (if store then .store else .load) n m base stride r = .ok l ∧
      l.flatMap (fun p => (List.range p.1.len).map (fun j => (p.1.key + j, p.1.off + j))) = (List.range (rowBytes m)).map (fun j => (scratchKey s.core (addr + j), tileOff n r j)) ∧
      (l.map (·.1.fill)).sum = (if store then 0 else 128 - rowBytes m) ∧ (∀ p ∈ l, p.1.row = r ∧ p.1.data = if store then getBytes p.1.off p.1.len s.cur.tiles else [])

/-- The accumulators that `mop` writes, each with the tile it multiplies by (R326). -/
def mopOuts (c b : BitVec 3) : List (Nat × Nat) := if c = 2 then [(0, b.toNat), (1, b.toNat + 1)] else [(if c = 1 then 1 else 0, b.toNat)]

/-- Accumulator elements from `start` up to `stop` in row-major order hold the products of A's rows and B's, every other tile byte is as it was, and the flags of the
elements are raised (R218, R326, R327). -/
def productsDone (s u : State) (f : BitVec 3) (a : Nat) (outs : List (Nat × Nat)) (start stop : Nat) : Prop :=
  let ma := shapeOf s a
  let made (o : Nat × Nat) (i j : Nat) : Prop := o ∈ outs ∧ i < ma.rows ∧ j < (shapeOf s o.2).rows ∧ start ≤ i * 128 + j ∧ i * 128 + j < stop
  let value (o : Nat × Nat) (i j : Nat) : Res :=
    productElem f (accAt s o.1 i j) (rowElems s (fmtType f) a i ma.cols) (rowElems s (fmtType f) o.2 j (shapeOf s o.2).cols)
  (∀ o i j, made o i j → accAt u o.1 i j = (value o i j).w % 2 ^ 32) ∧
  (∀ k, (∀ o i j, made o i j → k < accOff o.1 i j ∨ accOff o.1 i j + 4 ≤ k) → tileByte u k = tileByte s k) ∧
  (∀ n : Nat, n < 5 → (u.cur.fflags.getLsbD n = true ↔ (s.cur.fflags.getLsbD n = true ∨ ∃ o i j, made o i j ∧ (value o i j).f.getLsbD n = true))) ∧
  u = { s with cur := { s.cur with tiles := u.cur.tiles, fflags := u.cur.fflags } }

/-- `mop` (R218, R220, R326, R327): tiles of other formats or of lengths that do not match take the shape fault. -/
def Claims.MatrixProducts : Prop :=
  ∀ (s : State) (c b a f : BitVec 3), MtReady s (.mop c b a f) → tilesOk s →
    let ma := shapeOf s a.toNat
    let mb := shapeOf s b.toNat
    let m2 := shapeOf s (b.toNat + 1)
    let wrong : Prop := ma.fmt ≠ f ∨ mb.fmt ≠ f ∨ ma.cols ≠ mb.cols ∨ (ma.fmt = 4 ∧ ma.cols % 32 ≠ 0) ∨ (c = 2 ∧ m2 ≠ mb)
    (wrong → Completes (.mop c b a f) s (MtTrapped 48 0 0 s)) ∧
    (¬wrong → mshapeOk ma = true → mshapeOk mb = true → s.badCells = [] →
      (productStop s f a.toNat (mopOuts c b) s.cur.vstart = none →
        Completes (.mop c b a f) s (fun t => ∃ u, productsDone s u f a.toNat (mopOuts c b) s.cur.vstart 16384 ∧ MtRetired u t)) ∧
      (∀ e x, productStop s f a.toNat (mopOuts c b) s.cur.vstart = some (e, x) →
        x.code = 31 ∧ Completes (.mop c b a f) s (fun t => ∃ u, productsDone s u f a.toNat (mopOuts c b) s.cur.vstart e ∧ MtTrapped 31 0 e u t)))

/-- Elements from `start` up to `stop` of an accumulator have got the other's, scaled, added with one rounding; every other tile byte is as it was, and the flags of the elements
are raised (R219, R328). -/
def scalesDone (s u : State) (acc : Nat) (xs ys : List Scale) (start stop : Nat) : Prop :=
  let scale (l : List Scale) (k : Nat) : Nat := (l[k]?.map (·.value)).getD 0
  let value (i j : Nat) : Res := scaleElem (accAt s acc i j) (accAt s (1 - acc) i j) (scale xs i) (scale ys j)
  let made (i j : Nat) : Prop := i < 128 ∧ j < 128 ∧ start ≤ i * 128 + j ∧ i * 128 + j < stop
  u.cur = { s.cur with tiles := u.cur.tiles, fflags := u.cur.fflags } ∧ OnlyFocusAndTlb s u ∧
  (∀ i j, made i j → accAt u acc i j = (value i j).w % 2 ^ 32) ∧
  (∀ k, (∀ i j, made i j → k < accOff acc i j ∨ accOff acc i j + 4 ≤ k) → tileByte u k = tileByte s k) ∧
  (∀ n : Nat, n < 5 → (u.cur.fflags.getLsbD n = true ↔ (s.cur.fflags.getLsbD n = true ∨ ∃ i j, made i j ∧ (value i j).f.getLsbD n = true)))

/-- What a scale byte is (R328): the byte of its address as a load reads it, reserved where it is 255 (R220). -/
def scaleRead (s : State) (addr : Word) (x : Scale) : Prop :=
  (∀ t, elemPlace s 2 s.cur.vmt.toNat 1 .load addr = .error t → x.fault = some t) ∧
  (∀ k use, elemPlace s 2 s.cur.vmt.toNat 1 .load addr = .ok (k, use) → x.fault = none ∧ (hasError k 1 s = false → x.error = none) ∧ x.stall = scoreboardStalls s k 1 false ∧
    x.value = ((seeBytes s .vector k 1).headD 0).toNat ∧ (x.reserved = none ↔ x.value ≠ 255))

/-- `msca` (R152, R196, R219, R220, R328): with every scale byte readable and none 255, each element of the accumulator from `vstart` on gets the other accumulator's element, scaled, added with one rounding. -/
def Claims.MatrixScales : Prop :=
  ∀ (s : State) (c : BitVec 3) (b a : BitVec 5), MtReady s (.msca c b a) → tilesOk s → s.badCells = [] →
    let vmt := s.cur.vmt.toNat
    let xs := scalesAt s vmt (rx s a)
    let ys := scalesAt s vmt (rx s b)
    let acc := if c = 1 then 1 else 0
    let start := s.cur.vstart
    let still : Prop := ∀ x ∈ xs ++ ys, x.stall = false
    (∀ j < 128, ∃ x y, xs[j]? = some x ∧ ys[j]? = some y ∧ scaleRead s (rx s a + BitVec.ofNat 64 j) x ∧ scaleRead s (rx s b + BitVec.ofNat 64 j) y) ∧
    (¬still → Completes (.msca c b a) s (· = s)) ∧
    (still → (∀ n, start ≤ n → n < 16384 → scaleStop s acc xs ys n = none) →
      Completes (.msca c b a) s (fun t => ∃ u, scalesDone s u acc xs ys start 16384 ∧ MtRetired u t)) ∧
    (still → ∀ n tr, start ≤ n → n < 16384 → scaleStop s acc xs ys n = some tr → (∀ k, start ≤ k → k < n → scaleStop s acc xs ys k = none) → tr.code ≠ 27 →
      (tr.code = heldCode → Completes (.msca c b a) s (· = s)) ∧
      (tr.code ≠ heldCode → Completes (.msca c b a) s (fun t => ∃ u, scalesDone s u acc xs ys start n ∧ MtTrapped tr.code tr.tval n u t)))

/-- Row moves and output (R330, R331): `mrow.in` writes a register's bytes, cut or padded with zeros, to a row and makes the tile valid, with SHORT where they were fewer than the row's. -/
def Claims.RowMoves : Prop :=
  ∀ (s : State) (b a d : BitVec 5) (n f : BitVec 3) (c : BitVec 1), tilesOk s → s.badCells = [] →
    (∀ x ∈ (coreAt s s.core).segs, x.2.badData = false ∧ x.2.badEntry = false) →
    let m := shapeOf s n.toNat
    let row := (rx s b).toNat
    let wrong : Prop := m.fmt ≠ f ∨ (m.fmt = 4 ∧ m.cols % 32 ≠ 0) ∨ m.rows ≤ row
    let rb := rowBytes m
    let src := chainBytes (coreAt s s.core) (vreg s.cur a.toNat)
    let recs := chainBytes (coreAt s s.core) (vreg s.cur (a.toNat + 1))
    let fit (bs : List Byte) (used n : Nat) : List Byte := (bs.take used ++ List.replicate n 0).take n
    let first := (rx s a).toNat
    let words := elemsOf 9 (getBytes (accOff c.toNat first 0) ((rx s b).toNat * 512) s.cur.tiles)
    let rs := words.map (fun w => if f = 6 then Res.plain w else convert 9 (fmtType f) s.cur.frm (f = 2 ∨ f = 3) w)
    let bs := bytesOfList (fmtType f) 0 (rs.map (·.w))
    (wrong → (MtReady s (.mrowIn b a f n) → Completes (.mrowIn b a f n) s (MtTrapped 48 0 0 s)) ∧ (MtReady s (.mrowOut b n f d) → Completes (.mrowOut b n f d) s (MtTrapped 48 0 0 s))) ∧
    (MtReady s (.mrowIn b a f n) → ¬wrong → mshapeOk m = true → Completes (.mrowIn b a f n) s (fun t =>
      let short := decide (src.length < rb) || (decide (f = 4) && decide (recs.length < m.cols / 16))
      (getBytes (tileOff n.toNat row 0) 128 t.cur.tiles = fit src rb 128) ∧
      (f = 4 → getBytes (tileOff (n.toNat + 1) 0 (row * 16)) 16 t.cur.tiles = fit recs (m.cols / 16) 16) ∧
      (∀ k, (k < tileOff n.toNat row 0 ∨ tileOff n.toNat row 0 + 128 ≤ k) →
        (f = 4 → k < tileOff (n.toNat + 1) 0 (row * 16) ∨ tileOff (n.toNat + 1) 0 (row * 16) + 16 ≤ k) → tileByte t k = tileByte s k) ∧
      let flags := if short then s.cur.vflags ||| vShort else s.cur.vflags
      let valid := s.cur.mValid ||| (1#8 <<< n.toNat) ||| (if f = 4 then 1#8 <<< (n.toNat + 1) else 0)
      MtRetired { s with cur := { s.cur with tiles := t.cur.tiles, vflags := flags, mValid := valid } } t)) ∧
    (MtReady s (.mrowOut b n f d) → ¬wrong →
      let codes := getBytes (tileOff n.toNat row 0) rb s.cur.tiles
      let records := getBytes (tileOff (n.toNat + 1) 0 (row * 16)) (m.cols / 16) s.cur.tiles
      (∀ u1 u, writeResult s.curKey d.toNat (fmtType f) rb 0 codes s = some u1 →
        (if f = 4 then writeResult s.curKey (d.toNat + 1) 2 (m.cols / 16) 0 records u1 = some u else u = u1) → Completes (.mrowOut b n f d) s (MtRetired u)) ∧
      (writeResult s.curKey d.toNat (fmtType f) rb 0 codes s = none → Completes (.mrowOut b n f d) s (MtTrapped 30 (BitVec.ofNat 64 (pfree s s.core)) 0 s))) ∧
    (MtReady s (.maccOut c b a f d) → f ≠ 4 → f ≠ 5 → f ≠ 7 →
      let big : Prop := 128 < first + (rx s b).toNat ∨ 16384 < bytesOfElems (fmtType f) (128 * (rx s b).toNat)
      (big → Completes (.maccOut c b a f d) s (MtTrapped 48 0 0 s)) ∧
      (¬big → ∀ u, writeResult s.curKey d.toNat (fmtType f) bs.length 0 bs s = some u →
        Completes (.maccOut c b a f d) s (MtRetired (raiseAll (rs.foldl (fun g r => g.add r) Flags.none) u))))

/-- Gangs (R332, R333): `mgang` of a record reports a status in [63:16] where the record, its cores or the gang table refuse it, and else makes a gang under a number that none has. -/
def Claims.Gangs : Prop :=
  ∀ (s : State) (a d : BitVec 5), MtReady s (.mgang a d) →
    (a = 0 → Completes (.mgang a d) s (fun t => MtRetired (wx d (gangReport s) s) t)) ∧
    (a ≠ 0 → ∀ tr, elemPlace s 2 0 64 .load (rx s a) = .error tr → tr.code ≠ 27 →
      (tr.code = heldCode → Completes (.mgang a d) s (· = s)) ∧ (tr.code ≠ heldCode → Completes (.mgang a d) s (MtTrapped tr.code tr.tval 0 s))) ∧
    (a ≠ 0 → ∀ k use, elemPlace s 2 0 64 .load (rx s a) = .ok (k, use) → hasError k 64 s = false →
      let st := gangStatus s (seeBytes s .vector k 64)
      Completes (.mgang a d) s (fun t => ∃ u, MtRetired u t ∧ OnlyFocusAndTlb s { u with gangs := s.gangs } ∧ (∀ r, r ≠ d → getX u.cur r = getX s.cur r) ∧
        (st.1 ≠ 0 → u.gangs = s.gangs ∧ getX u.cur d = if d = 0 then 0 else BitVec.ofNat 64 (st.1 * 2 ^ 16)) ∧
        (st.1 = 0 → ∃ g, 1 ≤ g ∧ g ≤ 255 ∧ (∀ x ∈ s.gangs, x.num ≠ g) ∧ (getX u.cur d = if d = 0 then 0 else BitVec.ofNat 64 g) ∧
          let gang : Gang := { num := g, part := (who s).part, region := (who s).region, die := s.die, rows := st.2.1, cols := st.2.2.1, cores := st.2.2.2 }
          u.gangs = s.gangs ++ [gang])))

/-! ## Rays -/

/-- A scalar word that has gone on without touching memory or any x register but d. -/
def GoesOn (d : BitVec 5) (s t : State) : Prop :=
  t.cur.pc = s.cur.pc + 4 ∧ t.mem = s.mem ∧ ∀ r, r ≠ d → getX t.cur r = getX s.cur r

/-- What a register other than x0 holds. -/
def holds (t : State) (d : BitVec 5) (v : Word) : Prop := getX t.cur d = if d = 0 then 0 else v

/-- A wait that the focus has begun at its word (R76, R112): the slot waits, the bound of its region's watchdog runs where it has one and the wait is on another party,
and nothing else of the context or of memory has changed. -/
def WaitBegun (w : Wait) (s t : State) : Prop :=
  t.cur = { s.cur with state := .waiting w, waitSince := t.cur.waitSince } ∧ t.mem = s.mem ∧
    ∀ k r, s.cur.task = some k → regionAt s k.part k.region = some r → r.eff.wdi ≠ 0 →
      { die := s.die, inCycles := false, left := r.eff.wdi + 1, event := .regionWatchdogExpiry s.curKey } ∈ t.timers

/-- `ray.open` (R339): a bad configuration, an end already open, 16 ends held and a full table report 1 to 4 with bit [63] set, the first that holds. -/
def Claims.RayOpening : Prop :=
  ∀ (s : State) (b a d : BitVec 5), s.cur.convoy = [] → (rayHandles s).length ≤ 16384 →
    let cfg := (rx s a).toNat
    let key := rx s b
    let send := cfg % 2
    let mode := cfg / 2 % 4
    let target := cfg / 8 % 8
    let rays := (dieAt s s.die).rays
    let mine (r : Ray) : Prop := r.key = key ∧ r.part = (who s).part
    let endOf (r : Ray) : Option RayEnd := if send = 1 then r.send else r.recv
    let bad : Prop := 64 ≤ cfg ∨ mode = 3 ∨ (mode ≠ 0 ∧ (send = 1 ∨ isDCore s.core = false)) ∨ (mode = 0 ∧ target ≠ 0) ∨ (mode = 2 ∧ 1 < target)
    let taken : Prop := ∃ r ∈ rays, r.key = key ∧ endOf r ≠ none
    let many : Prop := 16 ≤ endsOf s (threadOf s.cur)
    let full : Prop := (∀ r ∈ rays, ¬mine r) ∧ 1024 ≤ rays.length
    let fails (n : Nat) : Prop := Completes (.rayOpen b a d) s (fun t => holds t d (BitVec.ofNat 64 (2 ^ 63 + n)) ∧ t.cur.pc = s.cur.pc + 4 ∧ OnlyRegister d s t)
    (bad → fails 1) ∧ (¬bad → taken → fails 2) ∧ (¬bad → ¬taken → many → fails 3) ∧ (¬bad → ¬taken → ¬many → full → fails 4) ∧
    (¬bad → ¬taken → ¬many → ¬full → Completes (.rayOpen b a d) s (fun t => GoesOn d s t ∧ ∃ h, 1 ≤ h ∧ h < 2 ^ 32 ∧ h ∉ rayHandles s ∧ holds t d (BitVec.ofNat 64 h) ∧
      (∃ r ∈ (dieAt t s.die).rays, mine r ∧ endOf r = some { thread := threadOf s.cur, handle := h, mode := mode, target := target } ∧ (send = 0 → r.cursor = 0)) ∧
      ∀ r ∈ rays, ¬mine r → r ∈ (dieAt t s.die).rays))

/-- No end of a thread bears a handle. -/
def noEnd (s : State) (thread handle : Nat) : Prop :=
  ∀ d < 8, ∀ r ∈ (dieAt s d).rays, ∀ e, r.send = some e ∨ r.recv = some e → ¬(e.thread = thread ∧ e.handle = handle)

/-- `ray.close` and `ray.grant` (R195, R201, R340, R343): a handle that is not open here, or not a receive end, traps with code 50. -/
def Claims.RayClosesAndGrants : Prop :=
  ∀ (s : State) (b a : BitVec 5), s.cur.convoy = [] →
    let h := (rx s a).toNat
    let th := threadOf s.cur
    let n := (rx s b).toNat
    (rayWith Ray.send s th h = none → rayWith Ray.recv s th h = none → Completes (.rayClose a) s (ScalarTrapped 50 (rx s a) s)) ∧
    (rayWith Ray.send s th h ≠ none ∨ rayWith Ray.recv s th h ≠ none → Completes (.rayClose a) s (fun t => GoesOn 0 s t ∧ noEnd t th h)) ∧
    (rayWith Ray.recv s th h = none → Completes (.rayGrant b a) s (ScalarTrapped 50 (rx s a) s)) ∧
    (∀ d r, rayWith Ray.recv s th h = some (d, r) →
      (crossCore s r = true → asideBudget s th < n → Completes (.rayGrant b a) s (fun t => Trapped 30 (BitVec.ofNat 64 (pfree s s.core)) s.cur.pc s t)) ∧
      (¬(crossCore s r = true ∧ asideBudget s th < n) → Completes (.rayGrant b a) s (fun t => GoesOn 0 s t ∧ (dieAt t d).rays = (dieAt s d).rays.map (fun y =>
        if y.key = r.key ∧ y.part = r.part then { y with granted := y.granted + n, aside := if crossCore s r then y.aside + n else y.aside } else y))))

/-- The bytes of a message on a core. -/
def msgBytes (s : State) (g : Nat) (m : Msg) : List Byte := (m.pieces.map (pieceBytes (coreAt s g))).flatten

/-- A message of some bytes has entered the receive queue of a ray, behind the others, and taken n permits (R128, R341). -/
def Queued (s t : State) (d : Nat) (r : Ray) (g n : Nat) (type : BitVec 4) (bytes : List Byte) : Prop :=
  ∃ x ∈ (dieAt t d).rays, ∃ m : Msg, x.key = r.key ∧ x.part = r.part ∧ x.queue = r.queue ++ [m] ∧ x.arrived = r.arrived + n ∧ m.type = type ∧ msgBytes t g m = bytes ∧
    (∀ q < 32, SameReg s t q) ∧ t.mem = s.mem

/-- The receiving core can hold a message: its entries stand below its next new one, and what is not set aside for the ray is within the receiver's budget (R340, R341). -/
def canReceive (s : State) (r : Ray) (e : RayEnd) (n : Nat) : Prop :=
  let k := coreAt s (coreOfThread s e.thread)
  (k.segs.map (·.1)).Pairwise (· < ·) ∧ (∀ x ∈ k.segs, x.1 < k.nextSeg) ∧ n - r.aside ≤ asideBudget s e.thread

/-- `vsend` (R128, R176, R341): an invalid register traps with code 24, a handle that is no send end here with 50, and an end not connected or with too few permits with 50 too. -/
def Claims.Sends : Prop :=
  ∀ (s : State) (b a : BitVec 5), s.cur.convoy = [] →
    let c := vreg s.cur b.toNat
    let n := ceilDiv (chainLen c) 256
    let barred : Prop := s.cur.validMode = true ∧ c.valid = false
    (barred → Completes (.vsend b a) s (ScalarTrapped 24 (BitVec.ofNat 64 b.toNat) s)) ∧
    (¬barred → rayWith Ray.send s (threadOf s.cur) (rx s a).toNat = none → Completes (.vsend b a) s (ScalarTrapped 50 (rx s a) s)) ∧
    (¬barred → ∀ d r, rayWith Ray.send s (threadOf s.cur) (rx s a).toNat = some (d, r) →
      (r.recv = none ∨ r.granted - r.arrived < n → Completes (.vsend b a) s (ScalarTrapped 50 (rx s a) s)) ∧
      (∀ e, r.recv = some e → n ≤ r.granted - r.arrived → PoolOk s → (∀ x ∈ (coreAt s s.core).segs, x.2.count < 128 ∧ x.2.badData = false ∧ x.2.badEntry = false) → c.pieces.length ≤ 64 →
        (crossCore s r = false → Completes (.vsend b a) s (fun t => GoesOn 0 s t ∧ Queued s t d r s.core n c.type (regBytes s b.toNat))) ∧
        (crossCore s r = true → coreOfThread s e.thread ≠ s.core → canReceive s r e n →
          Completes (.vsend b a) s (fun t => GoesOn 0 s t ∧ Queued s t d r (coreOfThread s e.thread) n c.type (regBytes s b.toNat)))))

/-- `mbcast` (R195, R320, R334, R341): the rows of a tile, 128 bytes each, are sent as one message of the format's type, with the traps of a send, and the shape fault for rows that are no whole number of blocks. -/
def Claims.TileBroadcasts : Prop :=
  ∀ (s : State) (b : BitVec 5) (a : BitVec 3), MtReady s (.mbcast b a) → mshapeOk (shapeOf s a.toNat) = true → s.badCells = [] →
    let m := shapeOf s a.toNat
    let n := ceilDiv (m.rows * 128) 256
    let bytes := (List.range m.rows).flatMap (fun j => getBytes (tileOff a.toNat j 0) 128 s.cur.tiles)
    (rayWith Ray.send s (threadOf s.cur) (rx s b).toNat = none →
      Completes (.mbcast b a) s (fun t => Trapped 50 (rx s b) s.cur.pc s t ∧ t.cur.vcvx = 0 ∧ t.cur.vstart = s.cur.vstart)) ∧
    (∀ d r, rayWith Ray.send s (threadOf s.cur) (rx s b).toNat = some (d, r) →
      (m.fmt = 4 ∧ m.cols % 32 ≠ 0 → Completes (.mbcast b a) s (MtTrapped 48 0 0 s)) ∧
      (¬(m.fmt = 4 ∧ m.cols % 32 ≠ 0) → r.recv = none ∨ r.granted - r.arrived < n → Completes (.mbcast b a) s (MtTrapped 50 (rx s b) 0 s)) ∧
      (¬(m.fmt = 4 ∧ m.cols % 32 ≠ 0) → ∀ e, r.recv = some e → n ≤ r.granted - r.arrived → PoolOk s →
        (crossCore s r = false → n ≤ allocatable s s.curKey → Completes (.mbcast b a) s (fun t => GoesOn 0 s t ∧ Queued s t d r s.core n (fmtType m.fmt) bytes)) ∧
        (crossCore s r = true → coreOfThread s e.thread ≠ s.core → canReceive s r e n →
          Completes (.mbcast b a) s (fun t => GoesOn 0 s t ∧ Queued s t d r (coreOfThread s e.thread) n (fmtType m.fmt) bytes))))

/-- `ray.recv` (R76, R195, R342): no receive end under the handle traps with code 50. -/
def Claims.Receives : Prop :=
  ∀ (s : State) (a d : BitVec 5), s.cur.convoy = [] →
    let h := (rx s a).toNat
    let bytes (m : Msg) : List Byte := msgBytes s s.core m
    let popped (d : Nat) (r : Ray) (rows : Nat) (t : State) : Prop := (dieAt t d).rays = (dieAt s d).rays.map (fun y =>
      if y.key = r.key ∧ y.part = r.part then { y with queue := y.queue.drop 1, cursor := (y.cursor + rows) % 128 } else y)
    (rayWith Ray.recv s (threadOf s.cur) h = none → Completes (.rayRecv a d) s (ScalarTrapped 50 (rx s a) s)) ∧
    (∀ die r e, rayWith Ray.recv s (threadOf s.cur) h = some (die, r) → r.recv = some e →
      (h ∈ s.cur.expiredRay → Completes (.rayRecv a d) s (fun t => GoesOn 0 s t ∧ t.cur.vflags = s.cur.vflags ||| vShort ∧ t.cur.expiredRay = s.cur.expiredRay.filter (· ≠ h) ∧
        (e.mode = 0 → vreg t.cur d.toNat = Chain.empty) ∧ (e.mode ≠ 0 → t.cur.v = s.cur.v) ∧ (dieAt t die).rays = (dieAt s die).rays)) ∧
      (h ∉ s.cur.expiredRay → r.queue = [] → Completes (.rayRecv a d) s (WaitBegun (.rayRecv d.toNat h) s)) ∧
      (h ∉ s.cur.expiredRay → ∀ m rest, r.queue = m :: rest →
        (e.mode = 1 → tileLoading s e.target = true → Completes (.rayRecv a d) s (· = s)) ∧
        (e.mode = 0 → (∀ x ∈ (coreAt s s.core).segs, x.2.badEntry = false) → Completes (.rayRecv a d) s (fun t => GoesOn 0 s t ∧ vreg t.cur d.toNat = { valid := true, type := m.type, pieces := m.pieces } ∧
          (∀ q < 32, q ≠ d.toNat → vreg t.cur q = vreg s.cur q) ∧ popped die r 0 t)) ∧
        (e.mode ≠ 0 → (e.mode = 1 → tileLoading s e.target = false) → (bytes m).length % (if e.mode = 1 then 128 else 512) ≠ 0 → Completes (.rayRecv a d) s (ScalarTrapped 48 0 s)) ∧
        ((∀ x ∈ (coreAt s s.core).segs, x.2.badData = false ∧ x.2.badEntry = false) → s.badCells = [] → tilesOk s →
          (e.mode = 1 → tileLoading s e.target = false → (bytes m).length % 128 = 0 → (bytes m).length ≤ 16384 → e.target < 8 → Completes (.rayRecv a d) s (fun t => GoesOn 0 s t ∧ t.cur.v = s.cur.v ∧
            popped die r ((bytes m).length / 128) t ∧ t.cur.mValid = s.cur.mValid ||| (1#8 <<< e.target) ∧
            (∀ j < (bytes m).length / 128, getBytes (tileOff e.target ((r.cursor + j) % 128) 0) 128 t.cur.tiles = ((bytes m).drop (128 * j)).take 128) ∧
            (∀ k, (∀ j < (bytes m).length / 128, k < tileOff e.target ((r.cursor + j) % 128) 0 ∨ tileOff e.target ((r.cursor + j) % 128) 0 + 128 ≤ k) → tileByte t k = tileByte s k))) ∧
          (2 ≤ e.mode → (bytes m).length % 512 = 0 → (bytes m).length ≤ 65536 → e.target < 2 → Completes (.rayRecv a d) s (fun t => GoesOn 0 s t ∧ t.cur.v = s.cur.v ∧
            popped die r ((bytes m).length / 512) t ∧
            (∀ j < (bytes m).length / 512, ∀ col < 128, accAt t e.target ((r.cursor + j) % 128) col =
              (arith 9 0 .add (accAt s e.target ((r.cursor + j) % 128) col) (natOf (((bytes m).drop (512 * j + 4 * col)).take 4)) 0).w % 2 ^ 32) ∧
            (∀ k, (k < accOff e.target 0 0 ∨ accOff e.target 0 0 + 65536 ≤ k) → tileByte t k = tileByte s k))))))

/-! ## Records that the scalar unit reads -/

/-- A record of n bytes, aligned to n, that the scalar unit reads at an address: the bytes that the thread sees there, and the state with the translation in the TLBs. -/
def RecordRead (s : State) (n : Nat) (va : Word) (bytes : List Byte) (u : State) : Prop :=
  va.toNat % n = 0 ∧ ∃ k use, scalarPlace s (who s) .load va.toNat = .ok (.mem k, use) ∧ scoreboardStalls s k n false = false ∧ hasError k n s = false ∧
    bytes = seeBytes s .scalar k n ∧ u = useScalar s.curKey use s

/-- Words that read a record first: its bytes and the register of its address (R251, R257, R336, R338). -/
def recordForm : Instr → Option (Nat × BitVec 5)
  | .vcollapse a _ => some (64, a)
  | .ccopy _ a _ => some (64, a)
  | .ctest _ a _ => some (16, a)
  | .cwait _ a _ => some (16, a)
  | .twait _ a _ => some (16, a)
  | _ => none

/-- `vcollapse` (R133, R158, R251): a record not valid for a read takes the shape fault. -/
def Claims.ShapeGrants : Prop :=
  ∀ (s u : State) (a d : BitVec 5) (r : List Byte), s.cur.convoy = [] → RecordRead s 64 (rx s a) r u →
    let shapeFault : Prop := Completes (.vcollapse a d) s (fun t => ScalarTrapped 48 (rx s a) u t)
    (readShape r = none → shapeFault) ∧
    (∀ h, readShape r = some h → h.isEmpty = true →
      Completes (.vcollapse a d) s (fun t => GoesOn d u t ∧ holds t d 0 ∧ t.cur = { u.cur with x := t.cur.x, pc := t.cur.pc, vl := 0, vouter := 0 })) ∧
    (∀ h d0 rest, readShape r = some h → h.isEmpty = false → h.dims = d0 :: rest →
      let n := (mergeDims d0.ext d0 rest).1
      let outer := (mergeDims d0.ext d0 rest).2
      n * outer.foldl (· * ·) 1 = h.count ∧
      ((∃ e ∈ outer, 1048575 < e) → shapeFault) ∧
      ((∀ e ∈ outer, e ≤ 1048575) →
        let ty := if s.cur.vtype ≠ 0 ∧ typeBits s.cur.vtype = 8 * h.size then s.cur.vtype else nTypeOf h.size
        Completes (.vcollapse a d) s (fun t => GoesOn d u t ∧ holds t d (BitVec.ofNat 64 n) ∧ t.cur.vtype = ty ∧ t.cur.vl = min n (vlmax ty) ∧
          (t.cur.vouter.toNat / 2 ^ 60 = outer.length) ∧ (∀ j < 3, t.cur.vouter.toNat / 2 ^ (20 * j) % 2 ^ 20 = outer.getD j 0) ∧
          t.cur.vstart = s.cur.vstart ∧ t.cur.vflags = s.cur.vflags ∧ t.cur.mshape = s.cur.mshape)))

/-! ## Copies -/

/-- A copy command without a bad field (R335, R336). -/
def commandOk (r : List Byte) : Prop :=
  recNat r 8 8 < 2 ^ 22 ∧ recNat r 16 8 < 2 ^ 32 ∧ recNat r 32 8 < 2 ^ 8 ∧ recNat r 32 8 / 2 % 16 = 0 ∧ recNat r 32 8 / 32 ≤ 4 ∧ recZero r 40 24 = true ∧
    (recNat r 16 4 = 0 ∨ recNat r 24 8 = 0)

/-- A copy forked (R152, R336): the operation takes a scoreboard entry for its local range, its completion falls due, and rd is 0. -/
def Forked (u : State) (object : Word) (k : EngineKind) (d : BitVec 5) (t : State) : Prop :=
  GoesOn d u t ∧ holds t d 0 ∧ ∃ (op : EngineOp) (task : Task), u.cur.task = some task ∧ t.engines = u.engines ++ [op] ∧ op.kind = k ∧ op.object = object ∧
    op.thread = task.thread ∧ op.part = task.part ∧ op.region = task.region ∧ op.failed = none ∧ isDue t (.engineOperationComplete op.num) = true ∧
    let r := localRange k
    (coreAt t u.core).scored = (coreAt u u.core).scored ++ [{ op := op.num, base := r.1 / 64 * 64, len := ceilDiv (r.1 + r.2) 64 * 64 - r.1 / 64 * 64, writes := !writesFar k }]

/-- `ccopy` (R136, R152, R158, R335, R336): a bad field reports 1. -/
def Claims.Copies : Prop :=
  ∀ (s u : State) (b a d : BitVec 5) (r : List Byte), s.cur.convoy = [] → RecordRead s 64 (rx s a) r u →
    let toFar := decide (recNat r 32 8 % 2 = 1)
    let space := recNat r 32 8 / 32
    let off := recNat r 8 8
    let shape : Word := BitVec.ofNat 64 (recNat r 24 8)
    let started (v : State) (k : EngineKind) (len : Nat) : Prop :=
      (∀ c o, localFault v v.core off len = some (c, o) → Completes (.ccopy b a d) s (ScalarTrapped c (BitVec.ofNat 64 o) v)) ∧
      (localFault v v.core off len = none → s.cur.release = none → (coreAt s s.core).scored.length < 32 → ∀ task, s.cur.task = some task →
        (len = 0 → Completes (.ccopy b a d) s (fun t => t = next4 (wx d 0 (completeObject task.part task.region (rx s b) 0 (stepClock v.die v))))) ∧
        (len ≠ 0 → Completes (.ccopy b a d) s (Forked v (rx s b) k d)))
    (¬commandOk r → Completes (.ccopy b a d) s (fun t => GoesOn d u t ∧ holds t d 1 ∧ OnlyRegister d u t)) ∧
    (commandOk r → shape = 0 → started u (.copy toFar space (BitVec.ofNat 64 (recNat r 0 8)) off (recNat r 16 4) 1 []) (recNat r 16 4)) ∧
    (commandOk r → shape.toNat % 64 ≠ 0 → Completes (.ccopy b a d) s (ScalarTrapped 48 shape u)) ∧
    (commandOk r → shape ≠ 0 → ∀ v rec, RecordRead u 64 shape rec v →
      (readShape rec = none → Completes (.ccopy b a d) s (ScalarTrapped 48 shape v)) ∧
      (∀ h, readShape rec = some h → (h.valid toFar = false → Completes (.ccopy b a d) s (ScalarTrapped 48 shape v)) ∧
        (h.valid toFar = true → started v (.copy toFar space (BitVec.ofNat 64 h.base) off (h.count * h.size) h.size (h.dims.map (fun x => (x.ext, x.str)))) (h.count * h.size))))

/-! ## Waits on objects -/

/-- `ctest`, `cwait` and `twait`, with their registers. -/
def waitForm : Instr → Option (BitVec 5 × BitVec 5 × BitVec 5)
  | .ctest b a d => some (b, a, d)
  | .cwait b a d => some (b, a, d)
  | .twait b a d => some (b, a, d)
  | _ => none

/-- Waits (R66, R180, R257, R338): with VALUE at the target or above, rd holds ESTAT in [15:8] and whether ECOUNT is not 0 in [0], and the die joins the release clocks of all. -/
def Claims.Waits : Prop :=
  ∀ (i : Instr) (s u : State) (b a d : BitVec 5) (o : List Byte), s.cur.convoy = [] → waitForm i = some (b, a, d) → RecordRead s 16 (rx s a) o u →
    let estat := recNat o 8 1
    ((rx s b).toNat ≤ recNat o 0 8 → Completes i s (fun t => GoesOn d u t ∧ holds t d (BitVec.ofNat 64 (estat * 256 + if recNat o 10 2 = 0 then 0 else 1)) ∧
      ∀ e : Fin 8, (dieAt t s.die).appClock[e] = (dieAt s e).relClock[e])) ∧
    (recNat o 0 8 < (rx s b).toNat →
      (i = .ctest b a d → Completes i s (fun t => GoesOn d u t ∧ OnlyRegister d u t ∧ holds t d (BitVec.ofNat 64 (estat * 256 + 3)))) ∧
      (i = .cwait b a d → Completes i s (fun t => t = s)) ∧
      (i = .twait b a d → Completes i s (WaitBegun (.twait d (rx s a) (rx s b)) u)))

/-! ## Barriers -/

/-- `bar.init` (R347, R348): a bad scope or count reports 1 and a full unit 2, with bit [63] set. -/
def Claims.BarrierMaking : Prop :=
  ∀ (s : State) (b a d : BitVec 5), s.cur.convoy = [] → (barrierHandles s).length ≤ 4096 →
    let pkg := decide ((rx s a).toNat % 2 = 1)
    let count := (rx s b).toNat
    let home := if pkg then 8 else s.die
    let bad : Prop := 1 < (rx s a).toNat ∨ count = 0 ∨ 65535 < count
    let full : Prop := (if pkg then 1024 else 256) ≤ (dieAt s home).barriers.length
    let fails (n : Nat) : Prop := Completes (.barInit b a d) s (fun t => holds t d (BitVec.ofNat 64 (2 ^ 63 + n)) ∧ t.cur.pc = s.cur.pc + 4 ∧ OnlyRegister d s t)
    (bad → fails 1) ∧ (¬bad → full → fails 2) ∧
    (¬bad → ¬full → Completes (.barInit b a d) s (fun t => GoesOn d s t ∧ ∃ h, 1 ≤ h ∧ h < 2 ^ 32 ∧ h ∉ barrierHandles s ∧ holds t d (BitVec.ofNat 64 h) ∧
      ∃ x : Barrier, (dieAt t home).barriers = (dieAt s home).barriers ++ [x] ∧ x.handle = h ∧ x.die = (if pkg then none else some s.die) ∧ x.part = (who s).part ∧ x.region = (who s).region ∧
        x.expected = count ∧ x.phase = 0 ∧ x.arrivals = 0 ∧ x.arrived = [] ∧ x.registered = [] ∧ x.contribs = [] ∧ x.results = [] ∧ x.broken = false))

/-- Every thread that waits at a barrier on a slot has its resume due (R351). -/
def waitersDue (h : Nat) (u t : State) : Prop :=
  ∀ th ∈ threads u, ∀ rd p k, (waitOfThread u th = some (.barrier rd h p) ∨ waitOfThread u th = some (.collective rd h p)) → slotOfThread u th = some k → isDue t (.barrierResume k) = true

/-- `bar.arrive` (R185, R348, R350): it waits for a phase of the release counters. -/
def Claims.Arrivals : Prop :=
  ∀ (s : State) (a : BitVec 5), s.cur.convoy = [] →
    let h := (rx s a).toNat
    let sc := match barrierAt s h with | some b => barrierScope b | none => .die
    (releaseNow s.curKey sc s = none → Completes (.barArrive a) s (fun t => t = s)) ∧
    (∀ u, releaseNow s.curKey sc s = some u →
      (myBarrier u h = none ∨ (∃ b, myBarrier u h = some b ∧ b.broken = true) → Completes (.barArrive a) s (fun t => t.cur.pc = u.cur.pc + 4 ∧ ∀ g, barrierAt t g = barrierAt u g)) ∧
      (∀ b, myBarrier u h = some b → b.broken = false → Completes (.barArrive a) s (fun t => t.cur.pc = u.cur.pc + 4 ∧ (∀ r, getX t.cur r = getX u.cur r) ∧ t.mem = u.mem ∧
        lookupKey h t.cur.lastArrival = some b.phase ∧
        ∃ x, barrierAt t h = some x ∧ x.expected = b.expected ∧ x.broken = false ∧ threadOf u.cur ∈ x.registered ∧
          (b.arrivals + 1 < b.expected → x.phase = b.phase ∧ x.arrivals = b.arrivals + 1 ∧ x.arrived = b.arrived ++ [threadOf u.cur]) ∧
          (b.expected ≤ b.arrivals + 1 → x.phase = b.phase + 1 ∧ x.arrivals = 0 ∧ x.arrived = [] ∧ waitersDue h u t))))

/-- `bar.wait` and the resume of a waiter (R180, R349, R351): a handle that is no barrier of the focus's, or one it has not arrived at, reports 3, a broken one 1 and a phase that has completed 0, with the phase in [63:32]. -/
def Claims.BarrierWaits : Prop :=
  ∀ (s : State) (a d : BitVec 5), s.cur.convoy = [] →
    let h := (rx s a).toNat
    let givesIt (phase status : Nat) : Prop := Completes (.barWait a d) s (fun t => GoesOn d s t ∧ OnlyRegister d s t ∧ holds t d (BitVec.ofNat 64 (phase % 2 ^ 32 * 2 ^ 32 + status)))
    (myBarrier s h = none → givesIt 0 3) ∧
    (∀ b, myBarrier s h = some b →
      (lookupKey h s.cur.lastArrival = none → givesIt 0 (if b.broken then 1 else 3)) ∧
      (∀ p, lookupKey h s.cur.lastArrival = some p →
        let owed : Prop := ∃ r ∈ b.results, r.thread = threadOf s.cur ∧ r.phase = p
        (owed ∨ (b.broken = false ∧ p < b.phase) → Completes (.barWait a d) s (fun t => GoesOn d s t ∧ holds t d (BitVec.ofNat 64 (p % 2 ^ 32 * 2 ^ 32)) ∧
          (b.die = none → ∀ e : Fin 8, (dieAt t s.die).appClock[e] = (dieAt s e).relClock[e]))) ∧
        (¬owed → b.broken = true → givesIt p 1) ∧
        (¬owed → b.broken = false → b.phase ≤ p → Completes (.barWait a d) s (WaitBegun (.barrier d h p) s)))) ∧
    (∀ key c rd g p, key < 2 ^ 32 → ctxAt s key = c → (c.state = .waiting (.barrier rd g p) ∨ c.state = .waiting (.collective rd g p)) → slotOfThread s (threadOf c) = some key →
      Completes (.barrierResume key) s (fun t => ctxAt t key = { c with state := .running } ∧ (∀ k, k ≠ key → ctxAt t k = ctxAt s k) ∧ t.mem = s.mem ∧
        ∀ m ∈ t.timers, m.event ≠ .regionWatchdogExpiry key))

/-! ## Collectives -/

/-- The collective words. -/
def collForm : Instr → Option (CombOp × BitVec 5 × BitVec 5 × BitVec 5)
  | .collAdd b a d => some (.add, b, a, d)
  | .collMin b a d => some (.min, b, a, d)
  | .collMax b a d => some (.max, b, a, d)
  | .collOr b a d => some (.or, b, a, d)
  | _ => none

/-! ## Routing -/

/-- The tokens that a routing word sends (R345): for each token of the chain, the highest of the groups that its mask allows, ranked by their best score with ties to the lowest, each with the
scores and the queues of its experts. -/
def routed (s : State) (cap topg ng ne : Nat) (ds : List (Nat × Nat)) (handles scores masks : List Nat) : List Token :=
  (List.range handles.length).flatMap (fun i =>
    let mine := (List.range (ng * ne)).map (fun j => scores.getD (i * (ng * ne) + j) 0)
    ((rankGroups (masks.getD i 0) ng ne mine).take topg).map (fun g =>
      let t : Token := { num := 0, die := (ds.getD (g * ne) (0, 0)).1, issuer := issuerOf s, handle := handles.getD i 0, group := g, cap := cap,
                         queues := ((ds.drop (g * ne)).take ne).map (·.2), scores := (mine.drop (g * ne)).take ne }
      t))

/-! ## Tasks -/

/-- `tsub` (R64, R65, R78, R143, R180, R256): a node that is not 128-byte aligned, or that the checks refuse, reports 1 and one that could never be awarded 2, after a release, for whose phase it waits. -/
def Claims.Submission : Prop :=
  ∀ (s u : State) (a d : BitVec 5), s.cur.convoy = [] →
    let node := rx s a
    let part := (who s).part
    let givesIt (x : State) (n : Nat) : Prop := Completes (.tsub a d) s (fun t => OnlyRegister d x t ∧ holds t d (BitVec.ofNat 64 n) ∧ t.cur.pc = x.cur.pc + 4)
    (node.toNat % 128 ≠ 0 → (releaseNow s.curKey .sys s = some u → givesIt u 1) ∧ (releaseNow s.curKey .sys s = none → Completes (.tsub a d) s (· = s))) ∧
    (node.toNat % 128 = 0 → ∀ f, scalarPlace s (who s) .load node.toNat = .error f →
      (f ≠ 27 → f ≠ heldCode → Completes (.tsub a d) s (ScalarTrapped f node s)) ∧ (f = heldCode → Completes (.tsub a d) s (· = s))) ∧
    (node.toNat % 128 = 0 → ∀ q off use, scalarPlace s (who s) .load node.toNat = .ok (.queueReg q off, use) → releaseNow s.curKey .sys s = some u → givesIt u 1) ∧
    (node.toNat % 128 = 0 → ∀ k use, scalarPlace s (who s) .load node.toNat = .ok (.mem k, use) → scoreboardStalls s k 128 false = false →
      (hasError k 128 s = true → Completes (.tsub a d) s (Trapped 49 (errorAddr k) s.cur.pc s)) ∧
      (hasError k 128 s = false → releaseNow s.curKey .sys s = none → Completes (.tsub a d) s (· = s)) ∧
      (hasError k 128 s = false → releaseNow s.curKey .sys s = some u → (who u).part = part →
        let v := useScalar s.curKey use u
        (deviceRead v part node 128 = none → givesIt v 1) ∧
        (∀ n, deviceRead v part node 128 = some n →
          let region := nodeRegion n % 4096
          let l := match gangPlace v n with | some (die, _) => die | none => v.die
          (nodeOk v part true n = false → givesIt v 1) ∧
          (nodeOk v part true n = true → neverAwarded v part region = true → givesIt v 2) ∧
          (nodeOk v part true n = true → neverAwarded v part region = false →
            (1048576 ≤ (locusAt v l).entries.length ∨ (locusAt v l).heldSubs ≠ [] → Completes (.tsub a d) s (· = v)) ∧
            ((locusAt v l).entries.length < 1048576 → (locusAt v l).heldSubs = [] →
              let tseq := (locusAt v l).nextTseq
              Completes (.tsub a d) s (fun t => holds t d (BitVec.ofNat 64 (tseq.toNat * 2 ^ 32)) ∧ t.cur.pc = v.cur.pc + 4 ∧ (∀ r, r ≠ d → getX t.cur r = getX v.cur r) ∧
                t.mem = (writeNodeState part region node 1 (nodeCancel n) tseq v).mem ∧ (locusAt t l).nextTseq = tseq + 1 ∧
                (∃ e, (locusAt t l).entries = (locusAt v l).entries ++ [e] ∧ e.tseq = tseq ∧ e.node = node ∧ e.part = part ∧ e.region = region ∧ e.cls = nodeClass n ∧
                  e.only = (gangPlace v n).map (·.2) ∧ e.submitter = some v.core ∧ e.resume = none ∧ e.due = true ∧ (e.state = .waiting ∨ e.state = .held)) ∧
                (∀ x, regionAt v part region = some x → ∃ y, regionAt t part region = some y ∧ y.live = x.live + 1)))))))

/-- `tyield` and `tdone` (R63, R67, R152, R179, R255, R256): a yield goes on, and with a free save frame it begins a save into the first, its context ready at once. -/
def Claims.YieldsAndEnds : Prop :=
  ∀ (s : State), s.cur.convoy = [] →
    ((∀ k, s.cur.task = some k → freeFrames s k.part = []) → Completes .tyield s (GoesOn 0 s)) ∧
    (∀ k f rest, s.cur.task = some k → freeFrames s k.part = f :: rest → Completes .tyield s (fun t =>
      t.cur = { s.cur with pc := s.cur.pc + 4, state := .saving .wait none f } ∧ isDue t (.saveOwedWritesDelivered s.curKey) = true ∧ freeFrames t k.part = rest ∧ t.mem = s.mem)) ∧
    (s.cur.task = none → Completes .tdone s (GoesOn 0 s)) ∧
    (∀ k, s.cur.task = some k → slotOfThread s k.thread = some s.curKey →
      let back := k.operands.filter (fun o => o.mode == 2 || o.mode == 3)
      let held : Prop := back ≠ [] ∧ (s.cur.release ≠ none ∨ 32 < (coreAt s s.core).scored.length + back.length)
      (held → Completes .tdone s (· = s)) ∧
      (¬held → Completes .tdone s (fun t =>
        t.cur = { s.cur with state := .waiting .retiring, waitSince := (dieAt s s.die).cycle.toNat } ∧ t.mem = s.mem ∧
        (t.engines.map (·.kind)) = (s.engines.map (·.kind)) ++ back.map (fun o => .operand true o.base (o.loff * 64) o.size) ∧
        (back = [] → (∀ e ∈ s.engines, e.thread = k.thread → e.failed ≠ none ∨ ∀ w base off n, e.kind ≠ .operand w base off n) → isDue t (.retireComplete s.curKey) = true))))

/-- `tkill` (R70, R258): a handle that names no active region of the partition reports 1, the issuer's own region or an ancestor 2, and neither does anything. -/
def Claims.Kills : Prop :=
  ∀ (s : State) (a d : BitVec 5), s.cur.convoy = [] →
    let h := (rx s a).toNat
    let part := (who s).part
    let idx := h % 65536
    let givesIt (n : Nat) : Prop := Completes (.tkill a d) s (fun t => GoesOn d s t ∧ OnlyRegister d s t ∧ holds t d (BitVec.ofNat 64 n))
    let live (r : Region) : Prop := h / 65536 = part ∧ idx < 4096 ∧ regionAt s part idx = some r ∧ (r.state = .active ∨ r.state = .killing)
    ((¬∃ r, live r) → givesIt 1) ∧
    (∀ r, live r → (ancestry s part (who s).region).contains r.idx = true → givesIt 2) ∧
    (∀ r, live r → (ancestry s part (who s).region).contains r.idx = false → underKill s part idx = true → givesIt 0) ∧
    (∀ r, live r → (ancestry s part (who s).region).contains r.idx = false → underKill s part idx = false → (∀ k, s.cur.task = some k → k.part = part ∧ k.region = (who s).region) → s.cur.task ≠ none →
      Completes (.tkill a d) s (fun t => holds t d 0 ∧ t.cur.pc = s.cur.pc + 4 ∧ (∀ q, q ≠ d → getX t.cur q = getX s.cur q) ∧
        (∀ i ∈ subtree s part idx, isDue t (.killEnd part i) = true ∧ ∀ y, regionAt t part i = some y → y.state = .killing ∨ y.state = .retired ∨ y.state = .retiring) ∧
        (∀ key k, (ctxAt s key).task = some k → k.part = part → k.region ∈ subtree s part idx → (ctxAt t key).task = none) ∧
        (∀ x ∈ t.saved, x.task.part = part → x.task.region ∉ subtree s part idx)))

/-! ## Objects, predecessor words, regions -/

/-- A stretch of memory lies in HBM, and memory is in its canonical form. -/
def InMemory (s : State) (pa n : Nat) : Prop := Memory.wf s.mem = true ∧ pa + n ≤ 8 * Config.hbmPerDie

/-- COMPLETION_OBJECT_UPDATE (R66, R257, R368): VALUE rises by 1, ECOUNT counts the end where its status is an error, and ESTAT keeps the first error. -/
def Claims.ObjectUpdates : Prop :=
  ∀ (s : State) (part region pa : Nat) (obj : Word) (estat : BitVec 8), obj ≠ 0 →
    (deviceAddr s part obj = .ok pa → InMemory s pa 16 →
      let o := getBytes pa 16 s.mem
      let value := (recNat o 0 8 + 1) % 2 ^ 64
      let estat' := if recNat o 8 1 = 0 then estat.toNat else recNat o 8 1
      let ecount' := if estat = 0 then recNat o 10 2 else min 65535 (recNat o 10 2 + 1)
      Completes (.completionObjectUpdate part region obj estat) s (fun t =>
        let n := getBytes pa 16 t.mem
        recNat n 0 8 = value ∧ recNat n 8 1 = estat' ∧ recNat n 10 2 = ecount' ∧ SameOutside pa 16 s t ∧
        (∀ key rd target, (ctxAt s key).state = .waiting (.twait rd obj target) → slotOfThread s (threadOf (ctxAt s key)) = some key → (∀ k, (ctxAt s key).task = some k → k.part = part) →
          (∀ u, u.parts = s.parts → SameOutside pa 16 s u → deviceAddr u part obj = .ok pa) → target.toNat ≤ value →
          (ctxAt t key).state = .running ∧ (ctxAt t key).pc = (ctxAt s key).pc + 4 ∧
            (rd ≠ 0 → getX (ctxAt t key) rd = BitVec.ofNat 64 (estat' * 256 + if ecount' = 0 then 0 else 1))))) ∧
    (∀ f, deviceAddr s part obj = .error f → Completes (.completionObjectUpdate part region obj estat) s (fun t =>
      t.mem = s.mem ∧ ∃ x, t.owed = s.owed ++ [x] ∧ x.part = part ∧ x.region = region ∧ x.fault.cause = f ∧ x.fault.detail = obj))

/-- A decrement: whether it cancels. -/
def decrementForm : Instr → Option (Bool × Nat × Nat × Word × Nat)
  | .predDecrement p r n c => some (false, p, r, n, c)
  | .cancellingDecrement p r n c => some (true, p, r, n, c)
  | _ => none

/-- PRED_DECREMENT and CANCELLING_DECREMENT (R64, R68, R71, R78, R368): PRED falls by 1 and CANCEL is set by a cancelling one. -/
def Claims.Predecessors : Prop :=
  ∀ (i : Instr) (s : State) (cancels : Bool) (part region core : Nat) (node : Word), decrementForm i = some (cancels, part, region, node, core) →
    (∀ f, deviceAddr s part node = .error f → Completes i s (fun t => t.mem = s.mem ∧ ∃ x, t.owed = s.owed ++ [x] ∧ x.part = part ∧ x.region = region ∧ x.fault.cause = f ∧ x.fault.detail = node)) ∧
    (∀ pa, deviceAddr s part node = .ok pa → InMemory s pa 128 →
    let n := getBytes pa 128 s.mem
    let p := nodePred n
    let own := nodeRegion n % 4096
    let cancel := cancels || nodeCancel n
    let u := physWrite (pa + 125) [0] (physWrite (pa + 20) [0, 0] s)
    (p = 0 → Completes i s (fun t => t.mem = s.mem ∧ ∀ r, regionAt s part own = some r → ∃ q, regionAt t part own = some q ∧ q.gerr = r.gerr + 1)) ∧
    (1 < p → Completes i s (fun t => recNat (getBytes (pa + 20) 2 t.mem) 0 2 = p - 1 ∧ getByte (pa + 125) t.mem = (if cancel then 1 else 0) ∧
      (∀ k, k ≠ pa + 20 → k ≠ pa + 21 → k ≠ pa + 125 → getByte k t.mem = getByte k s.mem) ∧ t.regions = s.regions ∧ t.agenda = s.agenda)) ∧
    (p = 1 → cancel = true → ∀ a ∈ successors (completeObject part own (nodeComp n) 6 u) part n, Completes i s (fun t => isDue t (.cancellingDecrement part own a core) = true)) ∧
    (p = 1 → cancel = false → ∀ m, deviceRead u part node 128 = some m →
      let l := match gangPlace u m with | some (die, _) => die | none => dieOf core
      (node.toNat % 128 ≠ 0 ∨ nodeOk u part false m = false → Completes i s (fun t => ∀ r, regionAt s part own = some r → ∃ q, regionAt t part own = some q ∧ q.gerr = r.gerr + 1)) ∧
      (node.toNat % 128 = 0 → nodeOk u part false m = true →
        ((locusAt s l).entries.length < 1048576 → (locusAt s l).heldSubs = [] → Completes i s (fun t => ∃ e, (locusAt t l).entries = (locusAt s l).entries ++ [e] ∧ e.node = node ∧ e.part = part ∧
          e.region = nodeRegion m % 4096 ∧ e.tseq = (locusAt s l).nextTseq ∧ e.only = (gangPlace u m).map (·.2) ∧ e.submitter = some core)) ∧
        (1048576 ≤ (locusAt s l).entries.length ∨ (locusAt s l).heldSubs ≠ [] → Completes i s (fun t => (locusAt t l).entries = (locusAt s l).entries ∧
          ∃ h, (locusAt t l).heldSubs = (locusAt s l).heldSubs ++ [h] ∧ h.node = node ∧ h.part = part ∧ h.submitter = some core ∧ h.resume = none)))))

/-- RETIRE_COMPLETE, KILL_END and REGION_RETIRE (R67, R69, R73): a task's retirement, its copies back without a fault, ends its context, and its slot is free. -/
def Claims.RegionEnds : Prop :=
  ∀ (s : State) (ctx part region : Nat),
    (∀ k, (ctxAt s ctx).task = some k → (ctxAt s ctx).state = .waiting .retiring →
      (releaseNow ctx .sys s = none → Completes (.retireComplete ctx) s (fun t => isDue t (.retireComplete ctx) = true ∧ t.mem = s.mem ∧ t.cur = s.cur)) ∧
      (∀ u, releaseNow ctx .sys s = some u → (ctxAt u ctx).task = some k → failedCopies u k.thread = [] → Completes (.retireComplete ctx) s (fun t => ctxAt t ctx = Ctx.reset))) ∧
    (∀ r, regionAt s part region = some r →
      (r.state = .killing → Completes (.killEnd part region) s (fun t =>
        (∃ q, regionAt t part region = some q ∧ q.state = (if r.retirers = [] then .active else .retiring) ∧ q.live = r.live) ∧
        (quiescing s part = false → ∀ l < 9, ∀ e ∈ (locusAt t l).entries, e.part = part → e.region = region → e.state ≠ .held))) ∧
      (r.state = .retiring → r.live = 0 → r.outs = 0 → Completes (.regionRetire part region) s (fun t => regionAt t part region = none ∧
        (∀ g k, (coreAt t g).claim = some k → ¬(k.part = part ∧ k.region = region)) ∧ (∀ d < 9, ∀ b ∈ (dieAt t d).barriers, ¬(b.part = part ∧ b.region = region)))))

/-! ## Engine operations, write queues, releases, tokens -/

/-- ENGINE_OPERATION_COMPLETE of a copy (R112, R143, R152, R154, R198, R337): an operation that an older one of the core still bars stays due, and so does one that meets a held die TLB. -/
def Claims.OperationsEnd : Prop :=
  ∀ (s : State) (op : EngineOp), s.engines.find? (fun e => e.num == op.num && e.failed.isNone) = some op →
    let g := op.key / 4
    (mayStart op s = false → Completes (.engineOperationComplete op.num) s (fun t => t.mem = s.mem ∧ t.engines = s.engines ∧ isDue t (.engineOperationComplete op.num) = true)) ∧
    (mayStart op s = true → ∀ toFar space far off len size dims, op.kind = .copy toFar space far off len size dims →
      (∀ v, runMoves op (movesOf op.kind) s = (v, none) → Completes (.engineOperationComplete op.num) s (fun t =>
        t = completeObject op.part op.region op.object 0 (stepClock (dieOf g) (leaveEngine op v)) ∧ (op.object = 0 → t.mem = v.mem ∧ (∀ e ∈ t.engines, e.num ≠ op.num) ∧ ∀ e ∈ (coreAt t g).scored, e.op ≠ op.num))) ∧
      (∀ v a, runMoves op (movesOf op.kind) s = (v, some (heldCode, a)) → Completes (.engineOperationComplete op.num) s (fun t =>
        t.mem = v.mem ∧ t.engines = v.engines ∧ isDue t (.engineOperationComplete op.num) = true)) ∧
      (∀ v a, runMoves op (movesOf op.kind) s = (v, some (27, a)) → Completes (.engineOperationComplete op.num) s (fun t =>
        t.mem = v.mem ∧ t.engines = v.engines ∧ (op.part, a.toNat / 65536) ∈ t.fetches)) ∧
      (∀ v c a, runMoves op (movesOf op.kind) s = (v, some (c, a)) → c ≠ 27 → c ≠ heldCode → Completes (.engineOperationComplete op.num) s (fun t =>
        ∃ f : FaultInfo, f.cause = c ∧ f.detail = a ∧ t = keepFault op f (completeObject op.part op.region op.object 5 (stepClock (dieOf g) (leaveEngine op v))))) ∧
      (∀ k use, dims = [] → 0 < len → far.toNat % 64 + len ≤ 64 → off + len ≤ 2 ^ 22 → Memory.wf s.mem = true → s.badCells = [] → op.object = 0 → op.stale = [] → localFault s g off len = none →
        (spacePlace s { key := op.key, part := op.part, region := op.region, priv := op.priv } space (if toFar then .store else .load) far.toNat = .ok (k, use)) →
        (inScratch g k = true ∨ scoreboardStalls s k len toFar = false) →
        let near := scratchKey g off
        let src := if toFar then near else k
        let dst := if toFar then k else near
        Completes (.engineOperationComplete op.num) s (fun t => getBytes dst len t.mem = getBytes src len s.mem ∧ SameOutside dst len s t)))

/-- ENGINE_OPERATION_COMPLETE of a tile load or store (R198, R323, R324): its rows are moved and it leaves the scoreboard. -/
def Claims.TileTransfersEnd : Prop :=
  ∀ (s : State) (op : EngineOp) (toFar : Bool) (space : Nat) (tiles : List Nat) (parts : List TilePart) (bad : Option Word),
    s.engines.find? (fun e => e.num == op.num && e.failed.isNone) = some op → mayStart op s = true → op.kind = .tile toFar space tiles parts bad →
    (∀ v, runAll op s = (v, none) → Completes (.engineOperationComplete op.num) s (fun t =>
      t.mem = v.mem ∧ t.cur = v.cur ∧ t.parked = v.parked ∧ (∀ e ∈ t.engines, e.num ≠ op.num) ∧ ∀ e ∈ (coreAt t (op.key / 4)).scored, e.op ≠ op.num)) ∧
    (∀ v a, runAll op s = (v, some (49, a)) → Completes (.engineOperationComplete op.num) s (fun t =>
      t.mem = v.mem ∧ t.cur = v.cur ∧ t.parked = v.parked ∧ ∃ f : FaultInfo, f.cause = 49 ∧ f.detail = a ∧ { op with failed := some f } ∈ t.engines)) ∧
    (∀ p, parts = [p] → bad = none → s.badCells = [] → op.stale = [] → (inScratch (op.key / 4) p.key = true ∨ scoreboardStalls s p.key p.len toFar = false) →
      (toFar = false → threadOf (ctxAt s op.key) = op.thread → Memory.wf (ctxAt s op.key).tiles = true → Completes (.engineOperationComplete op.num) s (fun t => t.mem = s.mem ∧
        getBytes p.off (p.len + p.fill) (ctxAt t op.key).tiles = getBytes p.key p.len s.mem ++ List.replicate p.fill 0 ∧
        ∀ k, k < p.off ∨ p.off + p.len + p.fill ≤ k → getByte k (ctxAt t op.key).tiles = getByte k (ctxAt s op.key).tiles)) ∧
      (toFar = true → p.data.length = p.len → Memory.wf s.mem = true → Completes (.engineOperationComplete op.num) s (fun t =>
        getBytes p.key p.len t.mem = p.data ∧ SameOutside p.key p.len s t ∧ (ctxAt t op.key).tiles = (ctxAt s op.key).tiles)))

/-- WRITE_QUEUE_APPLY (R151): an entry that is not the oldest of its line stays. -/
def Claims.WriteQueues : Prop :=
  ∀ (s : State) (p : Pending), s.pending.find? (fun q => q.num == p.num) = some p → Memory.wf s.mem = true → s.badCells = [] →
    (oldestOfLine s p = false → Completes (.writeQueueApply p.num) s (fun t => t.mem = s.mem ∧ t.pending = s.pending ∧ isDue t (.writeQueueApply p.num) = true)) ∧
    (oldestOfLine s p = true → let n := typeSize p.type
      p.elems.Pairwise (fun e f => e.key + n ≤ f.key ∨ f.key + n ≤ e.key) → Completes (.writeQueueApply p.num) s (fun t => t.pending = s.pending.filter (fun q => q.num != p.num) ∧
      (∀ e ∈ p.elems, getBytes e.key n t.mem = bytesOf n (combine p.type e.frm p.op (natOf (getBytes e.key n s.mem)) e.value).w) ∧
      ∀ k, (∀ e ∈ p.elems, k < e.key ∨ e.key + n ≤ k) → getByte k t.mem = getByte k s.mem))

/-- RELEASE_COMPLETE, PHASE_COUNTERS_CLEARED and LR_RESERVATION_EXPIRY (R179, R184, R185, R265): a release waits for the counters of the phase that it opens. -/
def Claims.ReleaseSteps : Prop :=
  ∀ (s : State) (ctx : Nat) (ph : BitVec 2),
    let c := ctxAt s ctx
    (∀ sc, c.release = some sc → phaseBusy c = true → Completes (.releaseComplete ctx) s (fun t => t = s)) ∧
    (∀ sc, c.release = some sc → phaseBusy c = false → (∀ p ∈ s.pending, ∀ j ∈ p.issuers, j.thread ≠ threadOf c) → (∀ k ∈ s.tokens, k.issuer.thread ≠ threadOf c) →
      Completes (.releaseComplete ctx) s (fun t =>
        ctxAt t ctx = { c with release := none, phase := c.phase + 1, uncleared := c.uncleared ||| (1#4 <<< c.phase.toNat), stale := (ctxAt t ctx).stale } ∧
        (∀ e ∈ (ctxAt t ctx).stale, e.toScalar = false ∧ e.toVector = false) ∧ isDue t (.phaseCountersCleared ctx c.phase) = true ∧ t.mem = s.mem ∧
        (∀ d : Fin 8, d.val = dieOf (ctx / 4) → (dieAt t d).relClock[d] = (dieAt s d).relClock[d] + (if sc = .pkg ∨ sc = .sys then 1 else 0)))) ∧
    Completes (.phaseCountersCleared ctx ph) s (fun t => ctxAt t ctx = { c with uncleared := c.uncleared &&& ~~~(1#4 <<< ph.toNat) } ∧ t.mem = s.mem ∧
      (c.release ≠ none → isDue t (.releaseComplete ctx) = true)) ∧
    Completes (.lrReservationExpiry ctx) s (fun t => ctxAt t ctx = { c with resv := none } ∧ (∀ k, k ≠ ctx → ctxAt t k = ctxAt s k) ∧ t.mem = s.mem)

/-- TOKEN_ARRIVAL (R344, R346): a token whose best expert's queue lies in plane memory granted to its region, and is not full, stands there as the next entry, with COUNT and ARRIVALS raised, and nothing else of memory changes. -/
def Claims.TokenArrivals : Prop :=
  ∀ (s : State) (k : Token) (e score : Nat) (rest : List (Nat × Nat)), s.tokens.find? (·.num == k.num) = some k → Memory.wf s.mem = true → k.die < 8 →
    let order := sortRanked (fun x y => decide (y < x)) (k.scores.zipIdx.map (fun x => (x.2, rank 9 false x.1)))
    (order.take 4).map (fun x => (x.1, k.scores.getD x.1 0)) = (e, score) :: rest → queueGranted s k e = true →
    let q := planeKey k.die (k.queues.getD e 0)
    let count := recNat (getBytes q 4 s.mem) 0 4
    let arrivals := recNat (getBytes (q + 4) 4 s.mem) 0 4
    count < k.cap → k.cap < 65536 →
    Completes (.tokenArrival k.num) s (fun t => (∀ x ∈ t.tokens, x.num ≠ k.num) ∧
      recNat (getBytes q 4 t.mem) 0 4 = count + 1 ∧ recNat (getBytes (q + 4) 4 t.mem) 0 4 = (arrivals + 1) % 2 ^ 32 ∧
      (let b := getBytes (q + 16 + 32 * count) 32 t.mem
       recNat b 0 4 = k.handle % 2 ^ 32 ∧ recNat b 4 4 = score % 2 ^ 32 ∧ recNat b 8 4 = arrivals ∧ recNat b 12 1 = e % 256 ∧ recNat b 13 1 = (rest.take 3).length) ∧
      ∀ j, (j < q ∨ q + 8 ≤ j) → (j < q + 16 + 32 * count ∨ q + 48 + 32 * count ≤ j) → getByte j t.mem = getByte j s.mem)

/-! ## Tenders -/

/-- TENDER_START (R58, R79, R84): with fewer than eight tenders running, an entry that waits, is due and does not stand at the CTXS limit of its region or an ancestor, and before which no other such stands, is tendered: each core of its partition that may answer is asked, and its window opens for the region's BWIN cycles, 96 more at the hub. -/
def Claims.TendersGoOut : Prop :=
  ∀ (s : State) (l : Nat),
    let limited (f : Entry) : Prop := f.resume = none ∧ ∃ i ∈ ancestry s f.part f.region, ∃ r, regionAt s f.part i = some r ∧ r.eff.ctxs ≤ r.ctxUse
    let open' (f : Entry) : Prop := f ∈ (locusAt s l).entries ∧ f.state = .waiting ∧ f.due = true ∧ ¬limited f
    (8 ≤ runningTenders (locusAt s l) ∨ (∀ f, ¬open' f) → Completes (.tenderStart l) s (· = s)) ∧
    (runningTenders (locusAt s l) < 8 → (∃ f, open' f) → ∃ e, open' e ∧ (∀ f, open' f → before s f e = false) ∧
      (entryAt s l e.num = some e →
        let cores := (tenderCores s l e).filter (fun c => !e.leftOut.contains c)
        cores ≠ [] → Completes (.tenderStart l) s (fun t =>
          (∃ x, entryAt t l e.num = some x ∧ x.state = .tendering ∧ x.round = e.round + 1 ∧ x.asked = cores ∧ x.answers = []) ∧
          (∀ c ∈ cores, isDue t (.tenderArrival l e.num (e.round + 1) c) = true) ∧
          { die := l, inCycles := true, left := (effOf s e.part e.region).bwin + (if l = 8 then 96 else 0), event := .bidWindowExpiry l e.num (e.round + 1) } ∈ t.timers ∧ t.mem = s.mem)))

/-- TENDER_ARRIVAL and BID_RECEIVE (R80, R81, R82, R84): a core that is eligible, has a slot and no award in doubt bids its cost, and any other declines. -/
def Claims.Bids : Prop :=
  ∀ (s : State) (l n round core : Nat) (bid : Option Int) (e : Entry), entryAt s l n = some e →
    let able := eligible s core e && (coreAt s core).awards.all (·.committed) && (slotFor s core e.part e).isSome
    Completes (.tenderArrival l n round core) s (fun t => isDue t (.bidReceive l n round core (if able then some (bidCost s l core e) else none)) = true ∧ t.mem = s.mem ∧ ∀ d, locusAt t d = locusAt s d) ∧
    (e.state ≠ .tendering ∨ e.round ≠ round ∨ (∃ a ∈ e.answers, a.1 = core) → Completes (.bidReceive l n round core bid) s (fun t => t = s)) ∧
    (e.state = .tendering → e.round = round → (∀ a ∈ e.answers, a.1 ≠ core) → (∃ c ∈ e.asked, c ≠ core ∧ ∀ a ∈ e.answers, a.1 ≠ c) →
      Completes (.bidReceive l n round core bid) s (fun t => entryAt t l n = some { e with answers := e.answers ++ [(core, bid)] } ∧ t.agenda = s.agenda))

/-- The state of an entry whose window has closed (R85, R86): an award to the winner, an escalation, or a wait until something changes. -/
def Closed (s : State) (l : Nat) (e : Entry) (t : State) : Prop :=
  (∀ c, winner l e = some c → (∃ x, entryAt t l e.num = some x ∧ x.state = .awarded c) ∧ isDue t (.awardArrival l e.num e.round c) = true) ∧
  (winner l e = none → l < 8 →
    (mayEscalate s l e = true → (∃ x, entryAt t l e.num = some x ∧ x.state = .escalated ∧ x.escalated = some (locusCycle s l)) ∧ isDue t (.escalatedTenderReceive l e.num) = true) ∧
    (mayEscalate s l e = false → ∃ x, entryAt t l e.num = some x ∧ x.state = .waiting ∧ x.due = false)) ∧
  (winner l e = none → l = 8 → (∀ x ∈ (locusAt t 8).entries, x.num ≠ e.num) ∧ ∀ d n, e.origin = some (d, n) → isDue t (.hubTenderResult d n false) = true)

/-- A window closes with its last answer or its expiry (R84, R85, R86); the winner has the lowest cost of the bids that count, and of equals the lowest number rotated by TSEQ. -/
def Claims.WindowsClose : Prop :=
  ∀ (s : State) (l n core : Nat) (bid : Option Int) (e : Entry), l < 9 → entryAt s l n = some e → e.state = .tendering → e.num = n →
    Completes (.bidWindowExpiry l n e.round) s (Closed s l e) ∧
    ((∀ a ∈ e.answers, a.1 ≠ core) → (∀ c ∈ e.asked, c = core ∨ ∃ a ∈ e.answers, a.1 = c) →
      Completes (.bidReceive l n e.round core bid) s (Closed s l { e with answers := e.answers ++ [(core, bid)] })) ∧
    (∀ c, winner l e = some c → ∃ cost, (c, some cost) ∈ e.answers ∧ c ∉ e.awardedNow ∧ ∀ c' cost', (c', some cost') ∈ e.answers → c' ∉ e.awardedNow →
      cost < cost' ∨ (cost = cost' ∧ (if l = 8 then (c + 384 - e.tseq.toNat % 384) % 384 ≤ (c' + 384 - e.tseq.toNat % 384) % 384
        else (c % 48 + 48 - e.tseq.toNat % 48) % 48 ≤ (c' % 48 + 48 - e.tseq.toNat % 48) % 48)))

/-- AWARD_ARRIVAL (R57, R58, R60, R80, R81, R87, R88): the winner checks again. -/
def Claims.Awards : Prop :=
  ∀ (s : State) (l n core : Nat) (e : Entry), entryAt s l n = some e → e.state = .awarded core → e.num = n →
    let good := eligible s core e && (dieAt s (dieOf core)).tlbHeld.isEmpty && (match partAt s e.part with | some p => p.drain.isNone | none => false)
    Completes (.awardArrival l n e.round core) s (fun t => { die := if l = 8 then 8 else dieOf core, inCycles := true, left := 64, event := .commitTimeout l n e.round } ∈ t.timers ∧ t.mem = s.mem) ∧
    (∀ slot, slotFor s core e.part e = some slot → good = true → Completes (.awardArrival l n e.round core) s (fun t => isDue t (.commitReceive l n e.round core) = true ∧
      (∃ a, (coreAt t core).awards = (coreAt s core).awards ++ [a] ∧ a.locus = l ∧ a.entry = n ∧ a.slot = slot.index ∧ a.node = e.node ∧ a.region = e.region ∧ a.committed = false) ∧
      (coreAt t core).lsplit = some ((coreAt s core).lsplit.getD (effOf s e.part e.region).lsplit) ∧
      (e.resume = none → ∀ i ∈ ancestry s e.part e.region, ∀ r, regionAt s e.part i = some r → ∃ q, regionAt t e.part i = some q ∧ q.ctxUse = r.ctxUse + 1 ∧ q.segUse = r.segUse + (effOf s e.part e.region).rsv))) ∧
    ((slotFor s core e.part e = none ∨ good = false) → Completes (.awardArrival l n e.round core) s (fun t => isDue t (.withdrawalReceive l n e.round core) = true ∧
      (coreAt t core).awards = (coreAt s core).awards ∧ t.regions = s.regions ∧
      ((coreAt s core).withdrawals.length < 2 → (coreAt t core).withdrawals = 0 :: (coreAt s core).withdrawals ∧ (coreAt t core).excluded = (coreAt s core).excluded) ∧
      (2 ≤ (coreAt s core).withdrawals.length → (coreAt t core).withdrawals = [] ∧ (coreAt t core).excluded = (coreAt s core).excluded ++ [(e.part, e.region)])))

/-- WITHDRAWAL_RECEIVE and COMMIT_TIMEOUT (R87): the entry is tendered again to the cores not left out, the one that did not commit among those left out. -/
def Claims.AwardsFail : Prop :=
  ∀ (i : Instr) (s : State) (l n core : Nat) (e : Entry), l < 9 → entryAt s l n = some e → e.state = .awarded core → e.num = n → (i = .withdrawalReceive l n e.round core ∨ i = .commitTimeout l n e.round) →
    let cores := (tenderCores s l e).filter (fun c => !(e.leftOut ++ [core]).contains c)
    cores ≠ [] → Completes i s (fun t => (∃ x, entryAt t l n = some x ∧ x.state = .tendering ∧ x.leftOut = e.leftOut ++ [core] ∧ x.round = e.round + 1 ∧ x.asked = cores) ∧
      ∀ c ∈ cores, isDue t (.tenderArrival l n (e.round + 1) c) = true)

/-- COMMIT_RECEIVE (R61, R87, R89, R133, R152): a commit for an entry that is gone or awarded elsewhere is refused and what was set aside given back. -/
def Claims.Commits : Prop :=
  ∀ (s : State) (l n round core : Nat) (a : Award), (coreAt s core).awards.find? (fun a => a.locus == l && a.entry == n && !a.committed) = some a →
    let key := core * 4 + a.slot
    ((∀ e, entryAt s l n = some e → e.state ≠ .awarded core ∨ e.round ≠ round) → Completes (.commitReceive l n round core) s (fun t =>
      (∀ b ∈ (coreAt t core).awards, ¬(b.locus = l ∧ b.entry = n)) ∧ t.cur = s.cur ∧ t.mem = s.mem)) ∧
    (∀ e, entryAt s l n = some e → e.state = .awarded core → e.round = round → e.origin = none → a.slot < 4 → (∀ b ∈ (coreAt s core).awards, b.slot = a.slot → b = a) →
      (∀ node, a.resume = none → (ctxAt s key).task = none → deviceRead s a.part a.node 128 = some node → (coreAt s core).scored.length + (copiedIn node).length ≤ 32 →
        Completes (.commitReceive l n round core) s (fun t =>
          (∀ x ∈ (locusAt t l).entries, x.num ≠ n) ∧ (∀ b ∈ (coreAt t core).awards, ¬(b.locus = l ∧ b.entry = n)) ∧
          let c := ctxAt t key
          c.state = .running ∧ c.priv = .u ∧ c.pc = BitVec.ofNat 64 (nodeEntry node) ∧ c.pres = a.rsv ∧
          (∃ k, c.task = some k ∧ k.node = a.node ∧ k.tseq = a.tseq ∧ k.part = a.part ∧ k.region = a.region ∧ k.comp = nodeComp node) ∧
          getX c 1 = 0xFFFFFF0400000000 ∧ getX c 10 = BitVec.ofNat 64 (nodeArg node) ∧ getX c 11 = a.tseq.setWidth 64 ∧
          (∀ r : BitVec 5, r ≠ 1 → r ≠ 2 → r ≠ 10 → r ≠ 11 → getX c r = 0) ∧
          (∀ p k, partAt s a.part = some p → a.stack = some k → getX c 2 = p.stkBase + BitVec.ofNat 64 ((k + 1) * p.stkSize)) ∧
          (∀ r, regionAt s a.part a.region = some r → c.validMode = r.eff.start ∧ c.vtype = (if r.eff.start then 9 else 0)))) ∧
      ((ctxAt s key).task ≠ none → a.swap = false → givesUp (ctxAt s key).state = false → Completes (.commitReceive l n round core) s (fun t =>
        (∀ x ∈ (locusAt t l).entries, x.num ≠ n) ∧ isDue t (.convoyBoundaryStop key) = true ∧
        { die := dieOf core, inCycles := true, left := 2048, event := .preemptionStopTimeout key } ∈ t.timers ∧ t.cur = s.cur ∧ t.mem = s.mem)))

/-- TENDER_PRIORITY_RISE, ESCALATED_TENDER_RECEIVE, HUB_TENDER_RESULT and LOCUS_WAITING_SUBMISSION_ENTER (R78, R79, R84, R86): an entry ages by one step, and by seven at most. -/
def Claims.Ageing : Prop :=
  ∀ (s : State) (l n : Nat) (e : Entry), l < 9 → entryAt s l n = some e → e.num = n →
    Completes (.tenderPriorityRise l n) s (fun t => (∃ x, entryAt t l n = some x ∧ x.rises = e.rises + 1 ∧ x.state = e.state ∧ (tenderPriority s e < tenderPriority s { e with rises := e.rises + 1 } → x.due = true)) ∧
      (e.rises + 1 < 7 → { die := l, inCycles := true, left := 16384, event := .tenderPriorityRise l n } ∈ t.timers)) ∧
    (l < 8 → e.state = .escalated → (locusAt s 8).entries.length < 1048576 → (∀ y ∈ (locusAt s 8).entries, y.num ≠ (locusAt s 8).nextEntry) →
      let age := (((e.escalated.getD (dieAt s l).cycle).toNat : Int) - e.entered).toNat
      Completes (.escalatedTenderReceive l n) s (fun t => ∃ x, (locusAt t 8).entries = (locusAt s 8).entries ++ [x] ∧ x.origin = some (l, n) ∧
        x.node = e.node ∧ x.tseq = e.tseq ∧ x.part = e.part ∧ x.region = e.region ∧ x.due = true ∧ x.rises = min 7 (age / 16384) ∧ x.entered = ((dieAt s 8).cycle.toNat : Int) - age ∧
        (x.rises < 7 → { die := 8, inCycles := true, left := 16384 - age % 16384, event := .tenderPriorityRise 8 x.num } ∈ t.timers))) ∧
    (e.state = .dispatched → Completes (.hubTenderResult l n true) s (fun t => ∀ x ∈ (locusAt t l).entries, x.num ≠ n)) ∧
    (e.state = .escalated → Completes (.hubTenderResult l n false) s (fun t => ∃ x, entryAt t l n = some x ∧ x.state = .waiting ∧ x.due = false)) ∧
    (∀ h rest v tseq, (locusAt s l).heldSubs = h :: rest → h.resume = none → h.grun = none → (locusAt s l).entries.length < 1048576 →
      let u := updLocus l (fun x => { x with heldSubs := rest }) s
      (∀ d, ((deviceRead u h.part h.node 128).bind (gangPlace u)).map (·.1) = some d → d ≠ l → locusFull (locusAt u d) = false) →
      submitFrom true h.part h.node l h.submitter h.submitter.isNone u = (v, .accepted tseq) →
      Completes (.locusWaitingSubmissionEnter l) s (fun t => ∀ d, locusAt t d = locusAt v d))

/-! ## Saves -/

/-- Saving (R81, R91, R186, R199, R200): the image is written once no release is in progress and no tile load owes its rows. -/
def Claims.Saves : Prop :=
  ∀ (s : State) (key : Nat),
    let c := ctxAt s key
    let core := key / 4
    (∀ r w f, c.state = .saving r w f → Completes (.saveOwedWritesDelivered key) s (fun t => t.mem = s.mem ∧ ctxAt t key = c ∧
      (c.release = none → loadsTile s key = false → isDue t (.saveImageWritten key) = true) ∧ (c.release ≠ none ∨ loadsTile s key = true → isDue t (.saveOwedWritesDelivered key) = true))) ∧
    (∀ a f i, (i = .convoyBoundaryStop key ∨ i = .preemptionStopTimeout key) → (coreAt s core).awards.find? (fun a => a.committed && a.slot == key % 4) = some a → c.task ≠ none → c.state = .running → a.frame = some f →
      Completes i s (fun t => ctxAt t key = { c with state := .saving (if a.swap then .wait else .preempt) none f, pc := (if c.convoy = [] then c.pc else c.convoyPc), convoy := [] } ∧ isDue t (.saveOwedWritesDelivered key) = true ∧ t.mem = s.mem)) ∧
    (∀ r w f k, c.state = .saving r w f → c.task = some k → c.release = none → (coreAt s core).awards = [] → Memory.wf s.mem = true →
      (∀ p ∈ s.pending, ∀ j ∈ p.issuers, j.thread ≠ threadOf c) → (∀ x ∈ s.tokens, x.issuer.thread ≠ threadOf c) →
      Completes (.saveImageWritten key) s (fun t => ctxAt t key = Ctx.reset ∧
        (isDCore core = false → getBytes f (imageHead r (focus s key)).length t.mem = imageHead r (focus s key) ∧ SameOutside f (imageHead r (focus s key)).length s t) ∧
        ∃ v ∈ t.saved, v.frame = f ∧ v.core = core ∧ v.slot = key % 4 ∧ v.task = k ∧ v.reason = r ∧ v.chains = c.v ∧ v.pres = c.pres ∧ v.isProtected = c.isProtected ∧ v.stepping = c.stepping ∧
          (w = none → v.ready = true))) ∧
    (key < 2 ^ 32 → Completes (.protectionExpiry key) s (fun t => ctxAt t key = { c with isProtected := false } ∧ (∀ k, k ≠ key → ctxAt t k = ctxAt s k) ∧ t.mem = s.mem)) ∧
    (∀ n, Completes (.protectionExpiry (savedName n)) s (fun t => t = { s with saved := t.saved } ∧ (∀ v ∈ t.saved, v.num = n → v.isProtected = false) ∧ ∀ v ∈ s.saved, v.num ≠ n → v ∈ t.saved))

/-! ## Runtime calls -/

/-- A runtime call has returned (R355, R369): the status in a0 and the value in a1, on at the word after the call in the mode that called, where one that the debugger steps stops. -/
def CallReturned (key status : Nat) (v : Word) (s t : State) : Prop :=
  let c := ctxAt s key
  let d := ctxAt t key
  d = { c with state := (if c.stepping then .waiting .debugger else .running), stepping := false, x := d.x, priv := (if c.spp then .s else .u), spp := false, pc := c.sepc + 4 } ∧
    getX d 10 = BitVec.ofNat 64 status ∧ getX d 11 = v ∧ ∀ r : BitVec 5, r ≠ 10 → r ≠ 11 → getX d r = getX c r

/-- PLANE_ALLOCATE and PLANE_FREE (R150, R369): a bad count reports 3, a count past the PLANE of the region or an ancestor 1, and no free run of that length 2. -/
def Claims.PlaneCalls : Prop :=
  ∀ (s : State) (key : Nat) (k : Task) (n off : Word), (ctxAt s key).task = some k →
    let d := dieOf (key / 4)
    let units := n.toNat
    let b := off.toNat / 65536
    let beyond : Prop := ∃ i ∈ ancestry s k.part k.region, ∃ r, regionAt s k.part i = some r ∧ r.eff.plane < r.planeUse + units
    let freeAt (b : Nat) : Prop := b + units ≤ 1024 ∧ ∀ j < units, lookupKey (b + j) (dieAt s d).plane = none
    let mine (j : Nat) : Prop := lookupKey (b + j) (dieAt s d).plane = some (k.part, k.region)
    let givesIt (i : Instr) (status : Nat) : Prop := Completes i s (fun t => CallReturned key status 0 s t ∧ t.mem = s.mem ∧ (dieAt t d).plane = (dieAt s d).plane)
    (units = 0 ∨ 1024 < units → givesIt (.planeAllocate key n) 3) ∧
    (1 ≤ units → units ≤ 1024 → beyond → givesIt (.planeAllocate key n) 1) ∧
    (1 ≤ units → units ≤ 1024 → ¬beyond → (∀ b, ¬freeAt b) → givesIt (.planeAllocate key n) 2) ∧
    (1 ≤ units → units ≤ 1024 → ¬beyond → (∃ b, freeAt b) → Completes (.planeAllocate key n) s (fun t => ∃ b, freeAt b ∧ CallReturned key 0 (BitVec.ofNat 64 (b * 65536)) s t ∧ t.mem = s.mem ∧
      ∀ u, lookupKey u (dieAt t d).plane = if b ≤ u ∧ u < b + units then some (k.part, k.region) else lookupKey u (dieAt s d).plane)) ∧
    (off.toNat % 65536 ≠ 0 ∨ units = 0 ∨ 1024 < b + units ∨ (∃ j < units, ¬mine j) → givesIt (.planeFree key off n) 3) ∧
    (off.toNat % 65536 = 0 → 1 ≤ units → b + units ≤ 1024 → (∀ j < units, mine j) → Completes (.planeFree key off n) s (fun t => CallReturned key 0 0 s t ∧ t.mem = s.mem ∧
      ∀ u, lookupKey u (dieAt t d).plane = if b ≤ u ∧ u < b + units then none else lookupKey u (dieAt s d).plane))

/-- PIN and UNPIN (R144, R369): a range that is not of whole pages reports 3, and a page without a leaf 1. -/
def Claims.Pins : Prop :=
  ∀ (s : State) (key : Nat) (k : Task) (p : Part) (base len : Word), (ctxAt s key).task = some k → partAt s k.part = some p →
    let aligned : Prop := base.toNat % 65536 = 0 ∧ len.toNat % 65536 = 0
    let inSpace : Prop := base.toNat + len.toNat ≤ 2 ^ 47
    let pages := pagesOf base.toNat len.toNat
    let givesIt (i : Instr) (status : Nat) : Prop := Completes i s (fun t => CallReturned key status 0 s t ∧ t.mem = s.mem ∧ ∀ d, dieAt t d = dieAt s d)
    (¬aligned → givesIt (.pin key base len) 3) ∧
    (aligned → (¬inSpace ∨ ∃ va ∈ pages, ∃ f, walkEntry s p va = .error f) → givesIt (.pin key base len) 1) ∧
    (aligned → inSpace → ∀ l, leavesOf s p pages = some l →
      let full : Prop := ∃ d ∈ partDies p, 2048 < (pinInto k.region l (dieAt s d).tlb).countP (fun e => e.pinned.isSome && !e.revoked)
      (full → givesIt (.pin key base len) 2) ∧
      (¬full → Completes (.pin key base len) s (fun t => CallReturned key 0 0 s t ∧ t.mem = s.mem ∧
        (∀ d ∈ partDies p, ∀ va ∈ pages, ∃ e ∈ (dieAt t d).tlb, covers p.id va e = true ∧ e.pinned = some k.region) ∧ ∀ d, d ∉ partDies p → (dieAt t d).tlb = (dieAt s d).tlb))) ∧
    (¬aligned ∨ ¬inSpace ∨ (∃ d ∈ partDies p, ∃ va ∈ pages, ∀ e ∈ (dieAt s d).tlb, pinnedBy k.part k.region va e = false) → givesIt (.unpin key base len) 3) ∧
    (aligned → inSpace → (∀ d ∈ partDies p, ∀ va ∈ pages, ∃ e ∈ (dieAt s d).tlb, pinnedBy k.part k.region va e = true) → Completes (.unpin key base len) s (fun t => CallReturned key 0 0 s t ∧ t.mem = s.mem ∧
      ∀ d ∈ partDies p, ∀ e ∈ (dieAt t d).tlb, overlapsRange k.part base.toNat len.toNat e = true → e.pinned ≠ some k.region))

/-- INVALIDATE, the end of the hold, and its completion, which waits for tile transfers that were translated through the range (R143, R144, R202, R369): a bad range or mode reports 3, and pins in the range of an unforced call 1. -/
def Claims.Invalidations : Prop :=
  ∀ (s : State) (key : Nat) (k : Task) (p : Part) (base len mode : Word), (ctxAt s key).task = some k → partAt s k.part = some p →
    let forced := decide (mode = 1)
    let bad : Prop := base.toNat % 65536 ≠ 0 ∨ len.toNat % 65536 ≠ 0 ∨ 1 < mode.toNat
    let pinned : Prop := ∃ d ∈ partDies p, ∃ e ∈ (dieAt s d).tlb, overlapsRange k.part base.toNat len.toNat e = true ∧ e.pinned ≠ none ∧ e.revoked = false
    let cleared (t : State) (b n : Nat) (forced : Bool) (req : Nat) : Prop := ∀ d ∈ partDies p, req ∈ (dieAt t d).tlbHeld ∧
      (∀ e ∈ (dieAt t d).tlb, overlapsRange k.part b n e = true → forced = true ∧ e.revoked = true) ∧ ∀ g, dieOf g = d → ∀ e ∈ (coreAt t g).tlb, overlapsRange k.part b n e = false
    (bad → Completes (.invalidate key base len mode) s (CallReturned key 3 0 s)) ∧
    (¬bad → forced = false → pinned → Completes (.invalidate key base len mode) s (CallReturned key 1 0 s)) ∧
    (¬bad → (forced = true ∨ ¬pinned) → Completes (.invalidate key base len mode) s (fun t => ∃ req, ctxAt t key = { ctxAt s key with state := .waiting (.invalidation req) } ∧ isDue t (.dieTlbHoldEnd req) = true ∧ t.mem = s.mem ∧
      cleared t base.toNat len.toNat forced req)) ∧
    (∀ x, s.invals.find? (·.num == x.num) = some x →
      Completes (.dieTlbHoldEnd x.num) s (fun t => isDue t (.rangedInvalidationComplete x.num) = true ∧ t.mem = s.mem ∧ ∀ d < 8, x.num ∉ (dieAt t d).tlbHeld) ∧
      (transfersIn s x = true → Completes (.rangedInvalidationComplete x.num) s (fun t => isDue t (.rangedInvalidationComplete x.num) = true ∧ t.cur = s.cur ∧ t.mem = s.mem ∧ t.invals = s.invals)) ∧
      (transfersIn s x = false → x.drain = false → x.asker = some k.thread → slotOfThread s k.thread = some key → (ctxAt s key).state = .waiting (.invalidation x.num) →
        Completes (.rangedInvalidationComplete x.num) s (fun t => CallReturned key 0 0 s t ∧ t.mem = s.mem ∧ ∀ y ∈ t.invals, y.num ≠ x.num))) ∧
    (p.drain = some .operations → Completes (.drainOperationsSettled k.part) s (fun t => t.mem = s.mem ∧ (∀ q, partAt t k.part = some q → q.drain = some .invalidating) ∧
      ∃ req, isDue t (.dieTlbHoldEnd req) = true ∧ cleared t 0 (2 ^ 47) true req))

/-- Standing faults and the debugger (R130, R355, R367): a context in a pool-empty or ray-permit fault runs its word again when segments or permits may be there, in the mode it came from. -/
def Claims.StandingFaults : Prop :=
  ∀ (s : State) (key : Nat) (single : Bool),
    let c := ctxAt s key
    let again (t : State) : Prop := ctxAt t key = { c with state := .running, priv := (if c.spp then .s else .u), spp := false, pc := c.sepc } ∧ (∀ k, k ≠ key → ctxAt t k = ctxAt s k) ∧ t.mem = s.mem
    (c.state = .waiting .poolEmpty → Completes (.poolEmptyRestart key) s again) ∧
    (∀ h, c.state = .waiting (.rayPermit h) → Completes (.rayPermitResume key) s again) ∧
    (c.state = .waiting .poolEmpty → c.task = none → Completes (.poolEmptyWaitExpiry key) s (fun t => t.mem = s.mem ∧ t.cur = s.cur ∧ isDue t (.poolEmptyRestart key) = false ∧ ∀ m ∈ t.timers, m.event ≠ .poolEmptyWaitExpiry key)) ∧
    (∀ k, c.state = .waiting .poolEmpty → c.task = some k → Completes (.poolEmptyWaitExpiry key) s (fun t => ∃ u, u.mem = s.mem ∧ u.cur = s.cur ∧ (∀ m ∈ u.timers, m.event ≠ .poolEmptyWaitExpiry key) ∧
      t = standFaulted key k.thread (deliver k.part k.region { cause := c.scause.toNat, core := key / 4, slot := key % 4, node := k.node, detail := c.stval } (some k.thread) false u))) ∧
    (∀ h k, c.state = .waiting (.rayPermit h) → c.task = some k → Completes (.rayPermitWaitExpiry key) s (fun t => ∃ u, u.mem = s.mem ∧ u.cur = s.cur ∧ (∀ m ∈ u.timers, m.event ≠ .rayPermitWaitExpiry key) ∧
      t = standFaulted key k.thread (deliver k.part k.region { cause := c.scause.toNat, core := key / 4, slot := key % 4, node := k.node, detail := c.stval } (some k.thread) false u))) ∧
    (c.state = .waiting .debugger → c.priv = .u → Completes (.debuggerResume key single) s (fun t => ctxAt t key = { c with state := .running, stepping := single } ∧ t.mem = s.mem)) ∧
    (c.state = .waiting .debugger → c.priv = .s → c.pc = Config.runtimeEntry → c.scause = 3 → Completes (.debuggerResume key single) s (fun t =>
      ctxAt t key = { c with state := .running, stepping := single, priv := (if c.spp then .s else .u), spp := false, pc := c.sepc } ∧ t.mem = s.mem))

/-- REGION_WATCHDOG_EXPIRY (R76, R299): a `twait` ends with status 2, a wait at a barrier or in a collective with 2 and its phase, unless the phase has completed or the barrier broken, and then the word runs again, and a ray wait runs its word again, which then finds that its time is up. -/
def Claims.WaitsExpire : Prop :=
  ∀ (s : State) (key : Nat), key < 2 ^ 32 →
    let c := ctxAt s key
    slotOfThread s (threadOf c) = some key →
    let ended (rd : BitVec 5) (v : Word) (t : State) : Prop := ctxAt t key = { c with state := .running, x := (ctxAt t key).x, pc := c.pc + 4 } ∧ getX (ctxAt t key) rd = (if rd = 0 then 0 else v) ∧
      (∀ r, r ≠ rd → getX (ctxAt t key) r = getX c r) ∧ t.mem = s.mem
    (∀ rd o target, c.state = .waiting (.twait rd o target) → Completes (.regionWatchdogExpiry key) s (ended rd 2)) ∧
    (∀ rd h p, (c.state = .waiting (.barrier rd h p) ∨ c.state = .waiting (.collective rd h p)) → ∀ b, barrierAt s h = some b →
      (b.broken = false → b.phase ≤ p → Completes (.regionWatchdogExpiry key) s (ended rd (BitVec.ofNat 64 (p % 2 ^ 32 * 2 ^ 32 + 2)))) ∧
      (b.broken = true ∨ p < b.phase → Completes (.regionWatchdogExpiry key) s (fun t => ctxAt t key = { c with state := .running } ∧ t.mem = s.mem))) ∧
    (∀ h, ((∃ d, c.state = .waiting (.rayRecv d h)) ∨ c.state = .waiting (.rayForm h)) → Completes (.regionWatchdogExpiry key) s (fun t => ctxAt t key = { c with state := .running, expiredRay := h :: c.expiredRay } ∧ t.mem = s.mem))

/-- PAGE_FETCH_COMPLETE (R154, R155): a fetch that ends well takes the first frame that is free, copies the page from its backing place, and makes the leaf valid with that frame. -/
def Claims.PageFetches : Prop :=
  ∀ (s : State) (part page : Nat) (p : Part), (part, page) ∈ s.fetches → partAt s part = some p →
    (∀ e f b, stillRemote s p page = true → fetchSource s p page = some (e, f, b) → Completes (.pageFetchComplete part page true) s (fun t =>
      (part, page) ∉ t.fetches ∧ (∀ q, partAt t part = some q → q.pages = p.pages.drop 1) ∧
      t.mem = (physWrite (leafPlace (copyPage (backingKey b) f s) p.hbase (page * 65536)) (bytesOf 8 (leafWith e f)) (copyPage (backingKey b) f s)).mem ∧
      (∀ key, (ctxAt s key).state = .waiting (.page part page) → slotOfThread s (threadOf (ctxAt s key)) = some key → (ctxAt t key).state = .running ∧ (ctxAt t key).pc = (ctxAt s key).pc))) ∧
    (∀ b f, Memory.wf s.mem = true → getBytes f 65536 (copyPage (backingKey b) f s).mem = getBytes (backingKey b) 65536 s.mem)

/-! ## Clock steps -/

/-- SUPPLY_RAMP_DONE, RELOCK_END and THERMAL_POLICY (R15 to R21, R46): a supply that has risen is followed by a relock of 150 ticks. -/
def Claims.ClockSteps : Prop :=
  ∀ (s : State) (d : Nat) (r : StepReq), d < 8 →
    let k := (dieAt s d).clock
    let timed (t : State) (n : Nat) (e : Instr) : Prop := { die := d, inCycles := false, left := n, event := e } ∈ t.timers
    (k.stage = some .raising → k.current = some r → Completes (.supplyRampDone d) s (fun t => let c := (dieAt t d).clock
      c.supply = minSupply r.ratio ∧ c.stage = some .relocking ∧ c.ratio = k.ratio ∧ c.cAtRelock = (dieAt s d).cycle ∧ c.kAtRelock = (dieAt s d).refk ∧ timed t 150 (.relockEnd d))) ∧
    (k.stage = some .lowering → k.current = some r → k.held = none → r.askers = [] → Completes (.supplyRampDone d) s (fun t => let c := (dieAt t d).clock
      c.supply = minSupply k.ratio ∧ c.stage = none ∧ c.nstep = k.nstep + 1 ∧ c.newr = k.ratio ∧ c.oldr = k.oldAtRelock ∧ c.relk = 150 ∧ c.cstep = k.cAtRelock ∧ c.kstep = k.kAtRelock)) ∧
    (k.stage = some .relocking → k.current = some r → r.ratio < k.ratio → Completes (.relockEnd d) s (fun t => let c := (dieAt t d).clock
      c.ratio = r.ratio ∧ c.stage = some .lowering ∧ timed t (rampTicks k.supply (minSupply r.ratio)) (.supplyRampDone d))) ∧
    (k.stage = some .relocking → k.current = some r → k.ratio ≤ r.ratio → k.held = none → r.askers = [] → Completes (.relockEnd d) s (fun t => let c := (dieAt t d).clock
      c.ratio = r.ratio ∧ c.stage = none ∧ c.nstep = k.nstep + 1 ∧ c.newr = r.ratio ∧ c.oldr = k.oldAtRelock ∧ c.relk = 150)) ∧
    (∀ temp, 110 ≤ temp → Completes (.thermalPolicy d temp) s (fun t => (dieAt t d).clock.temp = temp ∧ isDue t (.alarmTrip 4) = true)) ∧
    (∀ temp, k.stage = none → k.current = none → k.held = none →
      (temp < 100 → (95 ≤ temp ∨ k.thermalSteps = 0) → Completes (.thermalPolicy d temp) s (fun t => (dieAt t d).clock = { k with temp := temp })) ∧
      (100 ≤ temp → k.thermalSteps < temp - 99 → 6 + (temp - 99 - k.thermalSteps) ≤ k.ratio → Completes (.thermalPolicy d temp) s (fun t => let c := (dieAt t d).clock
        c.thermalSteps = temp - 99 ∧ c.stage = some .relocking ∧ c.current = some { ratio := k.ratio - (temp - 99 - k.thermalSteps), askers := [] })) ∧
      (temp < 95 → 0 < k.thermalSteps → k.ratio < 18 → Completes (.thermalPolicy d temp) s (fun t => let c := (dieAt t d).clock
        c.thermalSteps = k.thermalSteps - 1 ∧ c.stage = some .raising ∧ c.current = some { ratio := k.ratio + 1, askers := [] })))

/-! ## Host queues -/

/-- SLOT_CONSUME (R27, R30, R32, R37): a slot whose CHK is wrong stops the queue with QERR 2 and the event BADCHK, and one out of sequence with QERR 1 and BADSEQ. -/
def Claims.Consumption : Prop :=
  ∀ (s : State) (q : Nat), q < 64 → s.axis.stage = .ready → canConsume (queueAt s q) = true →
    let k := queueAt s q
    let slot := physRead s (k.sbase.toNat + k.slot.toNat % 2 ^ k.slog2 * 64) 64
    let h := BitVec.ofNat 32 (recNat slot 0 4)
    let opc := recNat slot 4 1
    let stops (err status : Nat) : Prop := Completes (.slotConsume q) s (fun t => t.mem = s.mem ∧
      queueAt t q = { k with state := .stopped, err := err, due := k.due ++ [{ hseq := 0, opc := 0xFF, status := BitVec.ofNat 8 status, r0 := 0, r1 := 0, event := true }] })
    (recNat slot 6 2 ≠ slotCheck slot → stops 2 3) ∧ (recNat slot 6 2 = slotCheck slot → h ≠ k.hseq + 1 → stops 1 2) ∧
    (recNat slot 6 2 = slotCheck slot → h = k.hseq + 1 → Completes (.slotConsume q) s (fun t => t.mem = s.mem ∧
      (∃ c, (queueAt t q).cmds = k.cmds ++ [c] ∧ c.hseq = h ∧ c.opc.toNat = opc ∧ c.flags.toNat = recNat slot 5 1 ∧ (∀ j < 7, (c.args.getD j 0).toNat = recNat slot (8 + 8 * j) 8) ∧ c.begun = false ∧
        (k.cmds.length < 256 → c.slot < 256 ∧ ∀ x ∈ k.cmds, x.slot ≠ c.slot)) ∧
      (queueAt t q).hseq = h ∧ (queueAt t q).slot = k.slot + 1 ∧ (queueAt t q).wleft = (if k.cmds = [] then k.wdog else k.wleft) ∧
      isDue t (if q ≠ 0 ∧ (opc = 1 ∨ opc = 2 ∨ opc = 3 ∨ opc = 10) then .reservedOpcode q h else commandStep q h opc) = true))

/-- ANSWER_EMIT (R28, R31, R37, R363): the answer that is next is written to its entry of the ring, sequence number, host sequence number, opcode, status and results, and no other byte. -/
def Claims.Emission : Prop :=
  ∀ (s : State) (q : Nat) (a : Answer) (rest : List Answer) (r0 r1 : Nat), q < 64 → s.axis.stage = .ready → (queueAt s q).due = a :: rest → canEmit (queueAt s q) = true → (queueAt s q).state ≠ .draining →
    (∀ p ∈ s.parts, p.drain = none) → s.waitingDrains = [] →
    let k := queueAt s q
    let killed (c : Cmd) : Prop := k.cmds.find? (fun c => c.hseq == a.hseq && c.opc == 6 && a.status == 7 && !a.event) = some c
    ((k.part = none ∨ ∀ c, ¬killed c) ∧ r0 = a.r0.toNat ∧ r1 = a.r1.toNat ∨
      ∃ part c o, k.part = some part ∧ killed c ∧ deviceRead s part (c.args.getD 1 0) 16 = some o ∧ r0 = recNat o 0 8 ∧ r1 = recNat o 8 1) →
    let d := k.dseq + 1
    let at_ := k.abase.toNat + d.toNat % 2 ^ k.alog2 * 32
    InMemory s at_ 32 → Completes (.answerEmit q) s (fun t =>
      (let b := getBytes at_ 32 t.mem
       recNat b 0 4 = d.toNat ∧ recNat b 4 4 = (if a.event then k.hseq.toNat else a.hseq.toNat) ∧ recNat b 8 1 = a.opc.toNat ∧ recNat b 9 1 = a.status.toNat ∧ recNat b 16 8 = r0 ∧ recNat b 24 8 = r1) ∧
      SameOutside at_ 32 s t ∧ (queueAt t q).dseq = d ∧ (queueAt t q).due = rest ∧ (queueAt t q).state = k.state ∧
      (queueAt t q).cmds = (if a.event then k.cmds else k.cmds.filter (fun c => c.hseq != a.hseq)) ∧ (queueAt t q).wleft = (if k.state = .disabled ∨ k.state = .halted then k.wleft else k.wdog))

/-! ## Commands -/

/-- A command in flight that has not begun, whose turn it is, and whose answer is not due. -/
structure CmdWaits (s : State) (q : Nat) (hseq : BitVec 32) (c : Cmd) : Prop where
  queue : q < 64
  there : cmdAt s q hseq = some c
  fresh : c.begun = false
  unanswered : ∀ a ∈ (queueAt s q).due, a.event = true ∨ a.hseq ≠ hseq

/-- Such a command with nothing against it: its turn where ORDER asks, a binding where it needs one, flags and unused arguments zero (R27, R34). -/
structure CmdReady (s : State) (q : Nat) (hseq : BitVec 32) (c : Cmd) (used : Nat) (bound : Bool) : Prop extends CmdWaits s q hseq c where
  turn : c.flags.toNat % 2 = 0 ∨ earliest s q hseq = true
  binding : bound = true → (queueAt s q).part ≠ none
  flags : c.flags.toNat / 2 = 0
  unused : ∀ a ∈ c.args.drop used, a = 0

/-- The answer to a command has fallen due, behind the others. -/
def Answered (q : Nat) (hseq : BitVec 32) (c : Cmd) (status : Nat) (r0 r1 : Word) (s t : State) : Prop :=
  ∃ a, (queueAt t q).due = (queueAt s q).due ++ [a] ∧ a.hseq = hseq ∧ a.opc = c.opc ∧ a.status = BitVec.ofNat 8 status ∧ a.r0 = r0 ∧ a.r1 = r1 ∧ a.event = false

/-- Commands: queue and sequence number, how many arguments they use, and whether they need a binding (R34). -/
def commandForm : Instr → Option (Nat × BitVec 32 × Nat × Bool)
  | .nop q h => some (q, h, 0, false)
  | .pcreate q h => some (q, h, 2, false)
  | .pdestroy q h => some (q, h, 1, false)
  | .qbind q h => some (q, h, 2, false)
  | .pdrain q h => some (q, h, if q = 0 then 1 else 0, q != 0)
  | .rcreate q h => some (q, h, 2, true)
  | .grun q h => some (q, h, 3, true)
  | .wdog q h => some (q, h, 1, false)
  | .cksave q h => some (q, h, 3, q != 0)
  | .ckload q h => some (q, h, 3, q != 0)
  | .fstep q h => some (q, h, 2, false)
  | .rretire q h => some (q, h, 1, true)
  | _ => none

/-- What every command checks first (R27, R34): with ORDER it waits for every earlier one to be answered. -/
def Claims.CommandChecks : Prop :=
  ∀ (i : Instr) (s : State) (q : Nat) (hseq : BitVec 32) (used : Nat) (bound : Bool) (c : Cmd), commandForm i = some (q, hseq, used, bound) → CmdWaits s q hseq c →
    let turn : Prop := c.flags.toNat % 2 = 0 ∨ earliest s q hseq = true
    let givesIt (status : Nat) : Prop := Completes i s (fun t => Answered q hseq c status 0 0 s t ∧ t.mem = s.mem ∧ t.parts = s.parts ∧ t.regions = s.regions)
    (¬turn → Completes i s (fun t => isDue t i = true ∧ ∀ p, queueAt t p = queueAt s p)) ∧
    (turn → bound = true → (queueAt s q).part = none → givesIt 5) ∧
    (turn → (bound = true → (queueAt s q).part ≠ none) → (c.flags.toNat / 2 ≠ 0 ∨ ∃ a ∈ c.args.drop used, a ≠ 0) → givesIt 4)

/-- The commands that end at once (R34, R36, R37): NOP, WDOG with an interval below 2^32, QBIND of a DISABLED queue to a partition that has fewer than eight, or to none, QFENCE once every earlier command is answered, and a reserved opcode with BADOP. -/
def Claims.SimpleCommands : Prop :=
  ∀ (s : State) (q : Nat) (hseq : BitVec 32) (c : Cmd),
    let a0 := (c.args.getD 0 0).toNat
    let a1 := (c.args.getD 1 0).toNat
    let givesIt (i : Instr) (status : Nat) (p : State → Prop) : Prop := Completes i s (fun t => Answered q hseq c status 0 0 s t ∧ t.mem = s.mem ∧ p t)
    (CmdReady s q hseq c 0 false → givesIt (.nop q hseq) 0 (fun _ => True)) ∧
    (CmdReady s q hseq c 1 false → a0 < 2 ^ 32 → givesIt (.wdog q hseq) 0 (fun t => (queueAt t q).wdog.toNat = a0)) ∧
    (CmdReady s q hseq c 1 false → 2 ^ 32 ≤ a0 → givesIt (.wdog q hseq) 4 (fun t => (queueAt t q).wdog = (queueAt s q).wdog)) ∧
    (CmdReady s q hseq c 2 false → 1 ≤ a0 → a0 < 64 → (queueAt s a0).state = .disabled → a1 = 0xFF → givesIt (.qbind q hseq) 0 (fun t => (queueAt t a0).part = none)) ∧
    (CmdReady s q hseq c 2 false → 1 ≤ a0 → a0 < 64 → (queueAt s a0).state = .disabled → a1 ≠ 0xFF → partAt s a1 ≠ none → ((List.range 64).countP (fun i => i != a0 && (queueAt s i).part == some a1)) < 8 →
      givesIt (.qbind q hseq) 0 (fun t => (queueAt t a0).part = some a1)) ∧
    (CmdReady s q hseq c 2 false → (a0 = 0 ∨ 64 ≤ a0 ∨ (queueAt s a0).state ≠ .disabled ∨ (a1 ≠ 0xFF ∧ partAt s a1 = none)) → givesIt (.qbind q hseq) 4 (fun t => ∀ p, (queueAt t p).part = (queueAt s p).part)) ∧
    (CmdWaits s q hseq c → earliest s q hseq = true → givesIt (.qfence q hseq) (if c.flags.toNat / 2 ≠ 0 ∨ ∃ a ∈ c.args, a ≠ 0 then 4 else 0) (fun _ => True)) ∧
    (CmdWaits s q hseq c → earliest s q hseq = false → Completes (.qfence q hseq) s (fun t => isDue t (.qfence q hseq) = true ∧ queueAt t q = queueAt s q)) ∧
    (CmdWaits s q hseq c → givesIt (.reservedOpcode q hseq) 1 (fun _ => True))

/-- A partition drains (R38, R202): it has come to its operations, every queue bound to it is DRAINING, and no context, saved image or entry of a Locus is left of its tasks. -/
def Draining (id : Nat) (s t : State) : Prop :=
  (∃ p, partAt t id = some p ∧ p.drain = some .operations) ∧ (∀ q < 64, (queueAt s q).part = some id → (queueAt t q).state = .draining) ∧
    (∀ key k, (ctxAt t key).task = some k → k.part ≠ id) ∧ (∀ v ∈ t.saved, v.task.part ≠ id) ∧ ∀ l < 9, ∀ e ∈ (locusAt t l).entries, e.part ≠ id

/-- PCREATE, PDESTROY and PDRAIN (R34, R35, R38, R40): a record that fails a check is answered BADARG. -/
def Claims.PartitionCommands : Prop :=
  ∀ (s : State) (q : Nat) (hseq : BitVec 32) (c : Cmd),
    let a0 := (c.args.getD 0 0).toNat
    let a1 := (c.args.getD 1 0).toNat
    let givesIt (i : Instr) (status : Nat) (r0 : Word) (p : State → Prop) : Prop := Completes i s (fun t => Answered q hseq c status r0 0 s t ∧ t.mem = s.mem ∧ p t)
    (CmdReady s q hseq c 2 false →
      (createPart a0 a1 s = none → givesIt (.pcreate q hseq) 4 0 (fun t => t.parts = s.parts ∧ t.regions = s.regions)) ∧
      (∀ u, createPart a0 a1 s = some u → (settleQuiesced s).parts = s.parts → givesIt (.pcreate q hseq) 0 (c.args.getD 1 0) (fun t =>
        let b := physRead s a0 128
        ∃ p r, t.parts = s.parts ++ [p] ∧ t.regions = s.regions ++ [r] ∧ p.id = a1 ∧ p.hbase = recNat b 8 8 ∧ p.hlen = recNat b 16 8 ∧ p.root.toNat = recNat b 0 8 ∧
          (∀ g, g ∈ p.cores ↔ g < 384 ∧ recNat b (48 + g / 8) 1 / 2 ^ (g % 8) % 2 = 1) ∧ p.drain = none ∧
          (p.quiesced = true ↔ ∃ k ∈ s.checkpoints, k.all = true ∨ a1 ∈ k.parts) ∧ r.part = a1 ∧ r.idx = 0 ∧ r.parent = none ∧ r.state = .active ∧ r.live = 0))) ∧
    (CmdReady s q hseq c 1 false →
      (mayDestroy s a0 = false → givesIt (.pdestroy q hseq) 4 0 (fun t => t.parts = s.parts)) ∧
      (∀ p, mayDestroy s a0 = true → partAt s a0 = some p → p.drain = none → copying s a0 = false → Completes (.pdestroy q hseq) s (fun t => Draining a0 s t ∧ ∃ p, partAt t a0 = some p ∧ (q, hseq) ∈ p.destroy))) ∧
    (CmdReady s q hseq c (if q = 0 then 1 else 0) (q != 0) →
      let id := if q = 0 then a0 else ((queueAt s q).part).getD 64
      (partAt s id = none → givesIt (.pdrain q hseq) 4 0 (fun t => t.parts = s.parts)) ∧
      (∀ p, partAt s id = some p → p.drain = none → copying s id = false → Completes (.pdrain q hseq) s (Draining id s)))

/-- RCREATE, GRUN and RRETIRE (R34, R54, R64, R65, R73): a block that fails a check is BADARG, and a good one gives a region under its parent whose handle is the result. -/
def Claims.RegionCommands : Prop :=
  ∀ (s u : State) (q part : Nat) (hseq : BitVec 32) (c : Cmd), (queueAt s q).part = some part →
    let a (j : Nat) : Word := c.args.getD j 0
    let givesIt (i : Instr) (status : Nat) (r0 : Word) (p : State → Prop) : Prop := Completes i s (fun t => Answered q hseq c status r0 0 s t ∧ p t)
    let begun := updCmd q hseq (fun c => { c with begun := true }) s
    (CmdReady s q hseq c 2 true →
      (createRegion part (a 0) (a 1) s = none → givesIt (.rcreate q hseq) 4 0 (fun t => t.regions = s.regions)) ∧
      (∀ idx v, createRegion part (a 0) (a 1) s = some (idx, v) → givesIt (.rcreate q hseq) 0 (BitVec.ofNat 64 (part * 65536 + idx)) (fun t =>
        ∃ r, t.regions = s.regions ++ [r] ∧ r.part = part ∧ r.idx = idx ∧ r.block = a 0 ∧ r.parent ≠ none ∧ r.state = .active ∧ r.live = 0))) ∧
    (CmdReady s q hseq c 3 true →
      ((a 1).toNat % 16 ≠ 0 → givesIt (.grun q hseq) 4 0 (fun t => t.regions = s.regions)) ∧
      ((a 1).toNat % 16 = 0 → ∀ r, submitNode part (a 0) (queueAt s q).home none true begun = (u, r) →
        (r = .bad → givesIt (.grun q hseq) 4 0 (fun t => t.regions = s.regions)) ∧ (r = .budget → givesIt (.grun q hseq) 6 0 (fun t => t.regions = s.regions)) ∧
        (r = .full → Completes (.grun q hseq) s (fun t => (queueAt t q).due = (queueAt s q).due ∧ t.mem = s.mem ∧ ∃ l, ∃ h ∈ (locusAt t l).heldSubs, h.node = a 0 ∧ h.part = part ∧ h.grun = some (q, hseq))) ∧
        (∀ tseq, r = .accepted tseq →
          (∀ o, deviceRead u part (a 1) 16 = some o → (a 2).toNat ≤ recNat o 0 8 →
            Completes (.grun q hseq) s (fun t => Answered q hseq c 0 (BitVec.ofNat 64 (recNat o 0 8)) (BitVec.ofNat 64 (recNat o 8 1)) s t ∧ t.mem = u.mem ∧ t.dies = u.dies)) ∧
          (a 2 = 0 → deviceRead u part (a 1) 16 = none → Completes (.grun q hseq) s (fun t => ∃ r0 r1, Answered q hseq c 0 r0 r1 s t ∧ t.mem = u.mem ∧ t.dies = u.dies)) ∧
          (a 2 ≠ 0 → (∀ o, deviceRead u part (a 1) 16 = some o → recNat o 0 8 < (a 2).toNat) → Completes (.grun q hseq) s (fun t => (queueAt t q).due = (queueAt s q).due ∧ t.mem = u.mem ∧ t.dies = u.dies ∧
            ∃ x, cmdAt t q hseq = some x ∧ x.onObject = some (part, a 1, a 2)))))) ∧
    (CmdReady s q hseq c 1 true →
      let h := (a 0).toNat
      let able (r : Region) : Prop := regionAt s part (h % 65536) = some r ∧ h / 65536 = part ∧ r.idx ≠ 0 ∧ r.state ≠ .retired ∧ ∀ x ∈ s.regions, x.part = part → x.parent = some r.idx → x.state = .retired
      ((¬∃ r, able r) → givesIt (.rretire q hseq) 4 0 (fun t => t.regions = s.regions)) ∧
      (∀ r, able r → Completes (.rretire q hseq) s (fun t => (queueAt t q).due = (queueAt s q).due ∧ (∃ x, regionAt t part r.idx = some x ∧ (q, hseq) ∈ x.retirers ∧ x.state = (if r.state = .killing then .killing else .retiring)) ∧
        (r.state ≠ .killing → r.live = 0 → r.outs = 0 → isDue t (.regionRetire part r.idx) = true))))

/-- FSTEP (R16, R34): a bad mask or clock is BADARG, with no step requested; a die that stands in no step and runs at another clock begins one. -/
def Claims.ClockCommands : Prop :=
  ∀ (s : State) (q d : Nat) (hseq : BitVec 32) (c : Cmd), CmdReady s q hseq c 2 false → d < 8 →
    let mask := (c.args.getD 0 0).toNat
    let ratio := (c.args.getD 1 0).toNat
    let bad : Prop := mask = 0 ∨ 256 ≤ mask ∨ ratio < 6 ∨ 18 < ratio
    (bad → Completes (.fstep q hseq) s (fun t => Answered q hseq c 4 0 0 s t ∧ ∀ e, dieAt t e = dieAt s e)) ∧
    (¬bad → mask = 2 ^ d → (dieAt s d).clock.stage = none → (dieAt s d).clock.ratio ≠ ratio → Completes (.fstep q hseq) s (fun t => (queueAt t q).due = (queueAt s q).due ∧ t.mem = s.mem ∧
      (dieAt t d).clock.current = some { ratio := ratio, askers := [(q, hseq)] } ∧ (dieAt t d).clock.stage = some (if (dieAt s d).clock.ratio < ratio then .raising else .relocking) ∧
      (∀ e < 8, e ≠ d → dieAt t e = dieAt s e))) ∧
    (¬bad → mask = 2 ^ d → (dieAt s d).clock.stage = none → (dieAt s d).clock.ratio = ratio → Completes (.fstep q hseq) s (fun t => Answered q hseq c 0 (BitVec.ofNat 64 (ratio * 2 ^ (8 * d))) (c.replaced.setWidth 64) s t))

/-- Checkpoints (R39, R40): a bad scope or offset is BADARG; else the partitions in scope quiesce. -/
def Claims.Checkpoints : Prop :=
  ∀ (i : Instr) (s : State) (q : Nat) (hseq : BitVec 32) (load : Bool) (c : Cmd), (i = .cksave q hseq ∧ load = false ∨ i = .ckload q hseq ∧ load = true) →
    (CmdReady s q hseq c 3 (q != 0) →
      let scope := (c.args.getD 1 0).toNat
      let off := (c.args.getD 0 0).toNat
      let part := if q = 0 then (c.args.getD 2 0).toNat else ((queueAt s q).part).getD 64
      (1 < scope → Completes i s (fun t => Answered q hseq c 4 0 0 s t ∧ t.checkpoints = s.checkpoints)) ∧
      (scope = 0 → partAt s part = none → Completes i s (fun t => Answered q hseq c 4 0 0 s t ∧ t.checkpoints = s.checkpoints)) ∧
      (∀ p, scope = 0 → (q ≠ 0 → c.args.getD 2 0 = 0) → partAt s part = some p → off % 2 ^ 30 = 0 → off + p.hlen ≤ Config.tierSize → Completes i s (fun t => (queueAt t q).due = (queueAt s q).due ∧ t.mem = s.mem ∧
        t.checkpoints = s.checkpoints ++ [{ q := q, hseq := hseq, load := load, tierOff := off, parts := [part], all := false, copying := false }] ∧ (∀ x, partAt t part = some x → x.quiesced = true) ∧
        ∀ l < 9, ∀ e ∈ (locusAt t l).entries, e.part = part → e.state = .held ∨ e.state = .dispatched)) ∧
      (scope = 1 → q = 0 → c.args.getD 2 0 = 0 → off % 2 ^ 30 = 0 → off + 8 * Config.hbmPerDie ≤ Config.tierSize → Completes i s (fun t => (queueAt t q).due = (queueAt s q).due ∧ t.mem = s.mem ∧
        t.checkpoints = s.checkpoints ++ [{ q := q, hseq := hseq, load := load, tierOff := off, parts := s.parts.map (·.id), all := true, copying := false }] ∧ ∀ x ∈ t.parts, x.quiesced = true))) ∧
    (∀ k, checkpointAt s q hseq = some k → k.all = false →
      (k.copying = false → Completes (.checkpointQuiesced q hseq) s (fun t => isDue t (.checkpointCopyComplete q hseq) = true ∧ t.mem = s.mem ∧ ∃ x, checkpointAt t q hseq = some x ∧ x.copying = true)) ∧
      (∀ p pid, k.copying = true → k.parts = [pid] → partAt s pid = some p → Memory.wf s.mem = true → q < 64 → cmdAt s q hseq = some c → (∀ a ∈ (queueAt s q).due, a.event = true ∨ a.hseq ≠ hseq) →
        let hbm := p.hbase
        let tier := Config.tierBase + k.tierOff
        Completes (.checkpointCopyComplete q hseq) s (fun t => (∀ j < p.hlen, getByte ((if k.load then hbm else tier) + j) t.mem = getByte ((if k.load then tier else hbm) + j) s.mem) ∧
          SameOutside (if k.load then hbm else tier) p.hlen s t ∧ checkpointAt t q hseq = (s.checkpoints.filter (· != k)).find? (fun x => x.q == q && x.hseq == hseq) ∧ Answered q hseq c 0 (BitVec.ofNat 64 p.hlen) 0 s t) ∧
        ∀ n, Completes (.checkpointCxlError q hseq n) s (fun t => (∀ j < min n p.hlen, k.load = false → getByte (tier + j) t.mem = getByte (hbm + j) s.mem) ∧ Answered q hseq c 9 (BitVec.ofNat 64 (min n p.hlen)) 0 s t)))

/-- WATCHDOG_EXPIRY (R37, R38, R51): of a queue that does not count it does nothing. -/
def Claims.Watchdogs : Prop :=
  ∀ (s : State) (q : Nat), q < 64 →
    let k := queueAt s q
    let counts : Prop := (k.state = .running ∨ k.state = .held ∨ k.state = .stopped) ∧ k.wdog ≠ 0 ∧ k.cmds ≠ [] ∧ k.wleft = 0
    let ev : Answer := { hseq := 0, opc := 0xFF, status := 8, r0 := 0, r1 := 0, event := true }
    (¬counts → Completes (.watchdogExpiry q) s (fun t => t = s)) ∧
    (counts → (q = 0 ∨ k.part = none) → Completes (.watchdogExpiry q) s (fun t => queueAt t q = { k with state := .halted, err := 3, due := k.due ++ [ev] } ∧ t.mem = s.mem ∧ t.parts = s.parts)) ∧
    (∀ id p, counts → q ≠ 0 → k.part = some id → partAt s id = some p → p.drain = none → copying s id = false → Completes (.watchdogExpiry q) s (fun t => (queueAt t q).state = .draining ∧ (queueAt t q).due = k.due ++ [ev] ∧
      Draining id s t ∧ ∃ x, partAt t id = some x ∧ q ∈ x.expired))

/-! ## Boot, power and the alarm -/

/-- What a power-on reset keeps (R42, R43, R44, R48): flash, the tier and the key store stay, every other byte of memory is 0, no context, core or region is left, and every die is held in reset. -/
def ColdKept (s t : State) : Prop :=
  t.cur = Ctx.reset ∧ t.parked = [] ∧ t.cores = [] ∧ t.parts = [] ∧ t.regions = [] ∧ t.saved = [] ∧ t.engines = [] ∧ t.pending = [] ∧ (∀ d : Fin 8, t.dies[d].released = false ∧ t.dies[d].plane = [] ∧ t.dies[d].tlb = []) ∧
    (Memory.wf s.mem = true → ∀ k, getByte k t.mem = if 2 ^ 60 ≤ k ∨ (Config.tierBase ≤ k ∧ k < Config.tierBase + Config.tierSize) then getByte k s.mem else 0) ∧
    t.axis.minSvn = s.axis.minSvn ∧ t.axis.fusedFail = s.axis.fusedFail ∧ t.axis.alarm = State.reset.axis.alarm ∧ t.axis.windows = false ∧ t.axis.powered = true

/-- Boot (R42, R43, R44, R48, R51): `powerOnReset` counts a boot, completes an erase that was under way, has a staged core runtime ready, and takes a staged image that passes. -/
def Claims.Boot : Prop :=
  ∀ (s : State) (len : Word) (img : List Byte),
    let n := len.toNat % 2 ^ 24
    let runs (i : Instr) (img : List Byte) : Prop := Completes i s (fun t => t.axis.stage = .bringup ∧ t.axis.firmware = img ∧ t.mem = s.mem)
    let st := s.axis.store
    let fails (i : Instr) (c : Nat) (uses : Bool) : Prop := Completes i s (fun t => t.axis.fail = c ∧ t.mem = s.mem ∧ t.axis.store = st ∧
      (uses = false → t.axis.tried = s.axis.tried ∧ t.axis.stage = .rom) ∧ (uses = true → s.axis.tried = 0 → t.axis.tried = 1 ∧ t.axis.stage = .rom) ∧
      (uses = true → 0 < s.axis.tried → t.axis.stage = .halted ∧ t.axis.fusedFail = c ∧ t.axis.dies = 0))
    let waits : Prop := s.axis.stage = .rom ∧ s.axis.powered = true
    let rt := runtimeImage img s
    let cold (t : State) : Prop := ColdKept s t ∧ t.axis.bootRuntime = s.axis.stagedRuntime ∧ t.axis.stagedRuntime = none ∧ t.axis.staged = none
    (s.axis.staged = none → Completes .powerOnReset s (fun t => cold t ∧ t.axis.stage = .rom ∧ t.axis.store.boots = st.boots + 1 ∧ t.axis.store.operators = st.operators ∧
      t.axis.store.keys = (if st.erasing then none else st.keys) ∧ t.axis.store.erasing = false)) ∧
    (∀ x, s.axis.staged = some x → (∀ u, u.axis.minSvn = s.axis.minSvn → imageFault u 1 x = none) → Completes .powerOnReset s (fun t => cold t ∧ t.axis.stage = .bringup ∧ t.axis.firmware = x)) ∧
    (∀ x c, s.axis.staged = some x → (∀ u, u.axis.minSvn = s.axis.minSvn → imageFault u 1 x = some c) → Completes .powerOnReset s (fun t => cold t ∧ t.axis.stage = .rom ∧ t.hub.logSeq = State.reset.hub.logSeq + 1)) ∧
    (s.axis.stage ≠ .rom ∨ n = 0 → Completes (.bootlenWrite len) s (fun t => t = s)) ∧
    (waits → n ≠ 0 → imageFault s 1 (getBytes (2 ^ 50) n s.mem) = none → runs (.bootlenWrite len) (getBytes (2 ^ 50) n s.mem)) ∧
    (∀ c, waits → n ≠ 0 → imageFault s 1 (getBytes (2 ^ 50) n s.mem) = some c → fails (.bootlenWrite len) c (hostSource s)) ∧
    (waits → hostSource s = false → imageFault s 1 img = none → runs (.bootImageFetched img) img) ∧
    (∀ c, waits → hostSource s = false → imageFault s 1 img = some c → fails (.bootImageFetched img) c true) ∧
    (s.axis.stage ≠ .rom ∨ hostSource s = true → Completes (.bootImageFetched img) s (fun t => t = s)) ∧
    (waits → 0 < s.axis.tried → (let c := if s.axis.answered then s.axis.fail else 6
      Completes .bootSourceNoAnswer s (fun t => t.axis.stage = .halted ∧ t.axis.fail = c ∧ t.axis.fusedFail = c ∧ t.axis.dies = 0))) ∧
    (waits → s.axis.tried = 0 → Completes .bootSourceNoAnswer s (fun t => t.axis = { s.axis with tried := 1 } ∧ t.mem = s.mem)) ∧
    (s.axis.stage = .bringup → imageFault s 2 rt = none → Completes (.firmwareBringup img) s (fun t => t.axis.stage = .ready ∧ t.axis.windows = true ∧ t.axis.dies = 0xFF ∧ t.axis.fail = 0 ∧ t.axis.runtime = rt ∧ t.mem = s.mem ∧
      (∀ d : Fin 8, t.dies[d].released = true ∧ t.dies[d].clock.ratio = 10) ∧ minSvn t 1 = max (minSvn s 1) (imageSvn s.axis.firmware) ∧ minSvn t 2 = max (minSvn s 2) (imageSvn rt))) ∧
    (∀ c, s.axis.stage = .bringup → imageFault s 2 rt = some c → Completes (.firmwareBringup img) s (fun t => t.axis = { s.axis with fail := c, bootRuntime := none, minSvn := t.axis.minSvn } ∧
      minSvn t 1 = max (minSvn s 1) (imageSvn s.axis.firmware) ∧ t.dies = s.dies ∧ t.mem = s.mem)) ∧
    (s.axis.stage ≠ .bringup → Completes (.firmwareBringup img) s (fun t => t = s)) ∧
    ((s.axis.bootRuntime = none → rt = img) ∧ ∀ x, s.axis.bootRuntime = some x → rt = if imageFault s 2 x = none then x else img) ∧
    Completes .powerFail s (fun t => t.axis.powered = false ∧ t.cur = Ctx.reset ∧ t.parts = [] ∧ t.regions = [] ∧ t.axis.store = st ∧ t.axis.staged = s.axis.staged ∧ t.axis.stagedRuntime = s.axis.stagedRuntime)

/-- Images (R43): one passes exactly when it has the magic number and KIND, reserved bytes zero, a public key whose hash is fused, a signature that verifies, a payload with the hash it states and an SVN that is not below the fused minimum. -/
def Claims.Images : Prop :=
  ∀ (s : State) (kind : Nat) (img : List Byte), imageFault s kind img = none ↔
    (4096 ≤ img.length ∧ recNat img 0 4 = 0x5A384657 ∧ recNat img 4 4 = kind ∧ recZero img 12 4 = true ∧ recZero img 1889 31 = true ∧ recZero img 3202 894 = true ∧
      some (Config.shake256 ((img.drop 96).take 1793)) ∈ Config.fuseHashes ∧ recNat img 1920 2 ≤ 1280 ∧
      Config.falconVerify ((img.drop 96).take 1793) (img.take 1920) ((img.drop 1922).take (recNat img 1920 2)) = true ∧
      Config.shake256 ((img.drop 4096).take (recNat img 16 8)) = (img.drop 32).take 64 ∧ minSvn s kind ≤ recNat img 8 4)

/-- ALARM_TRIP and KEY_STORE_ERASE_DONE (R46, R47, R48, R51): with the causes told go those that the registers show, a core supply 25 mV below the minimum for its clock or above 600 mV, a sensor at 110 °C or more. -/
def Claims.Alarms : Prop :=
  ∀ (s : State) (told : BitVec 5), s.axis.powered = true →
    let causes := told ||| causesOf s
    let level (j : Nat) : Nat := max 1 (s.axis.alarm.levels.toList.getD j 0).toNat
    let beyond (n : Nat) : Prop := ∃ j < 5, causes.getLsbD j = true ∧ n ≤ level j
    ((causesOf s).getLsbD 0 = true ↔ ∃ d : Fin 8, s.dies[d].released = true ∧ (s.dies[d].clock.supply + 25 ≤ minSupply s.dies[d].clock.ratio ∨ 600 < s.dies[d].clock.supply)) ∧
    ((causesOf s).getLsbD 2 = true ↔ ∃ d : Fin 8, s.dies[d].released = true ∧ 110 ≤ s.dies[d].clock.temp) ∧
    (causes = 0 → Completes (.alarmTrip told) s (fun t => t = s)) ∧
    (causes ≠ 0 → Completes (.alarmTrip told) s (fun t => t.axis.alarm.tripped = s.axis.alarm.tripped ||| causes ∧ t.mem = s.mem ∧
      (¬beyond 2 → t.axis.stage = s.axis.stage ∧ t.cur = s.cur ∧ t.agenda = s.agenda) ∧
      (beyond 2 → t.axis.stage = .halted ∧ (s.axis.stage ≠ .halted → t.axis.dies = 0 ∧ t.cur = Ctx.reset ∧ t.cores = [] ∧ ∀ d : Fin 8, t.dies[d].released = false)) ∧
      (¬beyond 3 → t.axis.store = s.axis.store) ∧
      (beyond 3 → t.axis.store = { s.axis.store with erasing := true } ∧ ∃ m ∈ t.timers, m.event = .keyStoreEraseDone ∧ m.left ≤ 1000))) ∧
    (s.axis.store.erasing = true → Completes .keyStoreEraseDone s (fun t => t.axis.store = { s.axis.store with keys := none, erasing := false, erasedAt := some s.hub.refk } ∧ t.mem = s.mem)) ∧
    (s.axis.store.erasing = false → Completes .keyStoreEraseDone s (fun t => t = s))

/-! ## The management port -/

/-- The management port has answered, and nothing else of the machine has changed but what P says of its Axis complex. -/
def Told (a : MgmtAnswer) (s t : State) : Prop := t = { s with axis := { s.axis with mgmt := s.axis.mgmt ++ [a] } }

/-- The open services (R44, R45, R52): IDENTITY gives the public key or says that there is none, ATTEST a report of 1,536 bytes with the nonce, STATUS the boot state, the causes tripped and the last erase. -/
def Claims.OpenServices : Prop :=
  ∀ (s : State) (nonce : BitVec 256),
    (s.axis.powered = false → ∀ i ∈ [Instr.identity, .attest nonce, .status], Completes i s (fun t => t = s)) ∧
    (s.axis.powered = true →
      Completes .status s (Told (.status (bootst s.axis) s.axis.alarm.tripped s.axis.store.erasedAt) s) ∧
      (s.axis.store.keys = none → Completes .identity s (Told .noIdentity s) ∧ Completes (.attest nonce) s (Told .noIdentity s)) ∧
      (∀ priv pub, s.axis.store.keys = some (priv, pub) → Completes .identity s (Told (.key pub) s) ∧
        Completes (.attest nonce) s (fun t => ∃ r, Told (.report r) s t ∧ r.length = 1536 ∧ recNat r 0 4 = 0x5A384154 ∧ recNat r 4 4 = s.axis.store.boots % 2 ^ 32 ∧ recNat r 8 32 = nonce.toNat)))

/-- Signed services, with the number and the arguments that the signature covers (R52). -/
def signedForm : Instr → Option (Auth × Nat × List Nat)
  | .logRead a d q => some (a, 3, [d, q.toNat])
  | .counters a d i none => some (a, 4, [d, i])
  | .counters a d i (some (x, y)) => some (a, 4, [d, i, x.toNat, y.toNat])
  | .firmware a img => some (a, 5, img.map (·.toNat))
  | .partition a opc x y => some (a, 6, [opc.toNat, x.toNat, y.toNat])
  | .step a d c => some (a, 7, [d, c])
  | .alarm a none => some (a, 8, [])
  | .alarm a (some (v, l)) => some (a, 8, [v.toNat, if l then 1 else 0])
  | _ => none

/-- A request that an enrolled key has signed, with a counter above that key's last, and the state that has taken its counter (R52). -/
def Accepted (s : State) (a : Auth) (svc : Nat) (args : List Nat) (u : State) : Prop :=
  s.axis.powered = true ∧ s.axis.stage ≠ .halted ∧ ∃ k last, s.axis.store.operators[a.key]? = some (k, last) ∧ last.toNat < a.counter.toNat ∧ Config.requestSigned k svc args a.counter a.sig = true ∧
    u = { s with axis := { s.axis with store := { s.axis.store with operators := setAt s.axis.store.operators a.key (k, a.counter) } } }

/-- PROVISION (R44, R52): refused in a halted device, or where no key that it enrols has signed with a counter above its last. -/
def Claims.Provisioning : Prop :=
  ∀ (s : State) (a : Auth) (keys : List (List Byte)), s.axis.powered = true → s.axis.store.operators = [] →
    let args := keys.flatMap (fun k => k.length :: k.map (·.toNat))
    let signs (k : List Byte) : Prop := keys[a.key]? = some k ∧ (lastCounter s.axis.store k).toNat < a.counter.toNat ∧ Config.requestSigned k 9 args a.counter a.sig = true
    let kept (k : List Byte) : List (List Byte × Word) := (k, a.counter) :: s.axis.store.past
    (s.axis.stage = .halted → Completes (.provision a keys) s (fun t => t = s)) ∧
    (s.axis.stage ≠ .halted → (∀ k, ¬signs k) → Completes (.provision a keys) s (Told .refused s)) ∧
    (∀ k, s.axis.stage ≠ .halted → signs k → s.axis.store.keys ≠ none ∨ 8 < keys.length →
      Completes (.provision a keys) s (Told (.provisioned false) { s with axis := { s.axis with store := { s.axis.store with past := kept k } } })) ∧
    (∀ k, s.axis.stage ≠ .halted → signs k → s.axis.store.keys = none → keys.length ≤ 8 → Completes (.provision a keys) s (fun t => t.axis.mgmt = s.axis.mgmt ++ [.provisioned true] ∧ t.mem = s.mem ∧ t.axis.store.keys ≠ none ∧
      t.axis.store.boots = 0 ∧ t.axis.store.past = kept k ∧ ∀ (j : Nat) (k' : List Byte), keys[j]? = some k' → t.axis.store.operators[j]? = some (k', if k' = k then a.counter else lastCounter s.axis.store k')))

/-! ## Memory from outside, links and the fabric -/

/-- HOST_MEMORY_WRITE and MEMORY_ERROR (R13, R42, R132, R197): the host's bytes (`hostMemoryWrite`) stand in HBM, or in the boot window, and nowhere else, an error in a word they cover whole has gone, and every reservation of their blocks has ended. -/
def Claims.OutsideMemory : Prop :=
  ∀ (s : State) (addr : Nat) (bs : List Byte) (unit : Nat), bs ≠ [] →
    let hbm : Prop := addr + bs.length ≤ 8 * Config.hbmPerDie
    let window : Prop := 2 ^ 50 ≤ addr ∧ addr + bs.length ≤ 2 ^ 50 + 2 ^ 24
    (hbm ∨ window → Memory.wf s.mem = true → Completes (.hostMemoryWrite addr bs) s (fun t => getBytes addr bs.length t.mem = bs ∧ SameOutside addr bs.length s t ∧
      (∀ w, w ∈ t.badCells ↔ w ∈ s.badCells ∧ ¬(addr ≤ w.1 ∧ w.1 + w.2 ≤ addr + bs.length)) ∧
      ∀ key b, (ctxAt t key).resv = some b → (addr + bs.length - 1) / 64 < b ∨ b < addr / 64)) ∧
    (¬hbm → ¬window → exec (.hostMemoryWrite addr bs) s = .fault (.hostAddress addr)) ∧
    (addr < 8 * Config.hbmPerDie → 5 ≤ unit → Completes (.memoryError unit addr true) s (fun t => t.mem = s.mem ∧ t.badCells = s.badCells ∧ t.cur = s.cur) ∧
      Completes (.memoryError unit addr false) s (fun t => t.mem = s.mem ∧ t.badCells = s.badCells ++ [(addr / 8 * 8, 8)] ∧ hasError addr 1 t = true)) ∧
    (addr < 384 * 2 ^ 20 → Completes (.memoryError 3 addr false) s (fun t => t.mem = s.mem ∧ ∀ x ∈ (coreAt t (addr / 2 ^ 20)).segs, x.2.num = addr % 2 ^ 20 / 256 → x.2.badData = true)) ∧
    (addr < 384 * 2 ^ 12 → (let g := addr / 2 ^ 12
      Completes (.memoryError 4 addr false) s (fun t => t.mem = s.mem ∧
        (addr % 2 ^ 12 ∈ numbersTaken (coreAt s g) → (∀ x ∈ (coreAt t g).segs, x.2.num = addr % 2 ^ 12 → x.2.badEntry = true) ∧ (coreAt t g).lost = (coreAt s g).lost) ∧
        (addr % 2 ^ 12 ∉ numbersTaken (coreAt s g) → (coreAt t g).lost = addr % 2 ^ 12 :: (coreAt s g).lost ∧ (coreAt t g).segs = (coreAt s g).segs))))

/-- A flit on its way to a port acknowledges SEQ, or asks for the flits from it on: link management, with a CRC that holds (R10, R11). -/
def Answering (e : Nat × Nat) (ack seq : Nat) (t : State) : Prop :=
  ∃ f : BitVec 64 × BitVec 512, isDue t (.flitReceive e.1 e.2 f.1 f.2) = true ∧ flitType f.1 = 8 ∧ flitAck f.1 = ack ∧ flitSeq f.1 = seq % 1024 ∧ f.1.toNat / 2 ^ 48 = flitCrc f.1 f.2

/-- FLIT_RECEIVE (R10, R11, R17, R366): in a relock of the die a flit fills a receive buffer. -/
def Claims.Flits : Prop :=
  ∀ (s : State) (d p : Nat) (h : BitVec 64) (payload : BitVec 512), d ≤ 8 → p < 8 → (portAt s d p).up = true →
    let x := portAt s d p
    let e := partner d p
    let gives (q : State → Prop) : Prop := Completes (.flitReceive d p h payload) s (fun t => t.mem = s.mem ∧ q t)
    let passes : Prop := h.toNat / 2 ^ 48 = flitCrc h payload ∧ badFlit h = false
    let same (t : State) : Prop := (portAt t d p).seqIn = x.seqIn ∧ (portAt t d p).inbox = x.inbox
    let logged (t : State) : Prop := (dieAt t d).logSeq = (dieAt s d).logSeq + 1
    let next := (x.seqIn + 1) % 1024
    (relocking (dieAt s d) = true → gives (fun t => portAt t d p = { x with buffer := x.buffer ++ [(h, payload)] } ∧ t.agenda = s.agenda)) ∧
    (relocking (dieAt s d) = false →
      (h.toNat / 2 ^ 48 ≠ flitCrc h payload → gives (fun t => same t ∧ logged t ∧ Answering e 2 x.seqIn t)) ∧
      (h.toNat / 2 ^ 48 = flitCrc h payload → badFlit h = true → gives (fun t => logged t ∧ (portAt t d p).inbox = x.inbox ∧ (portAt t d p).seqIn = if flitSeq h = x.seqIn then next else x.seqIn)) ∧
      (passes → flitAck h = 0 → flitSeq h = x.seqIn → gives (fun t => (portAt t d p).seqIn = next ∧ Answering e 1 x.seqIn t ∧
        (flitDst h = d → (portAt t d p).inbox = x.inbox ++ [(h, payload)] ∧ (x.waiting = [] → (portAt t d p).credits = x.credits + flitCredit h)) ∧
        (flitDst h ≠ d → (portAt t d p).inbox = x.inbox ∧ (let r := routePort s d (flitDst h)
          (portAt s d r).up = true → (portAt s d r).waiting = [] → 0 < (portAt s d r).credits →
            ∃ g, isDue t (.flitReceive (partner d r).1 (partner d r).2 g payload) = true ∧ flitSrc g = flitSrc h ∧ flitDst g = flitDst h ∧ flitType g = flitType h ∧ flitTag g = flitTag h ∧
              flitAck g = 0 ∧ flitSeq g = (portAt s d r).seqOut % 1024)))) ∧
      (passes → flitAck h = 0 → flitSeq h ≠ x.seqIn → seqUpTo (flitSeq h) x.seqIn = true → gives (fun t => same t ∧ Answering e 1 (x.seqIn + 1023) t)) ∧
      (passes → flitAck h = 0 → seqUpTo (flitSeq h) x.seqIn = false → gives same) ∧
      (passes → flitAck h = 1 → flitType h = 8 → gives (fun t => same t ∧ (x.waiting = [] → (portAt t d p).outbox = x.outbox.filter (fun f => !seqUpTo (flitSeq f.1) (flitSeq h))))) ∧
      (passes → flitAck h = 2 → flitType h = 8 → gives (fun t => same t ∧ (∀ f ∈ x.outbox, seqUpTo (flitSeq h) (flitSeq f.1) = true → isDue t (.flitReceive e.1 e.2 f.1 f.2) = true) ∧
        (7 ≤ x.replays → isDue t (.linkRetrain d p) = true))))

/-- LINK_RETRAIN, LINK_TRAINING_COMPLETE, LINK_DOWN and the fabric (R11, R12, R14): a link that retrains carries nothing at either end until its training ends well, and then what its partner has not taken goes out again. -/
def Claims.Links : Prop :=
  ∀ (s : State) (d p port : Nat) (pkg : BitVec 16) (f : BitVec 64 × BitVec 512) (fs : List (BitVec 64 × BitVec 512)), d < 8 → p < 4 →
    let x := portAt s d p
    let e := partner d p
    let same (i : Instr) : Prop := Completes i s (fun t => t = s)
    let taken (f : BitVec 64 × BitVec 512) : Bool := seqUpTo (flitSeq f.1) (((portAt s e.1 e.2).seqIn + 1023) % 1024)
    let left := x.outbox.filter (fun f => !taken f)
    let answered (t : State) (ack : Nat) : Prop := ∃ g : BitVec 64, t.fabric.sent = s.fabric.sent ++ [(port, [(g, 0)])] ∧ flitAck g = ack ∧ flitSeq g = fabricSeq s port % 1024 ∧ flitDst g = flitSrc f.1
    (x.down = true → same (.linkRetrain d p) ∧ same (.linkTrainingComplete d p true) ∧ same (.linkDown d p)) ∧
    (x.down = false →
      Completes (.linkRetrain d p) s (fun t => (portAt t d p).up = false ∧ (portAt t e.1 e.2).up = false ∧ (portAt t d p).replays = 0 ∧ t.mem = s.mem) ∧
      Completes (.linkTrainingComplete d p true) s (fun t => (portAt t d p).up = true ∧ (portAt t e.1 e.2).up = true ∧ t.mem = s.mem ∧
        (∀ f ∈ left, isDue t (.flitReceive e.1 e.2 f.1 f.2) = true) ∧ (x.waiting = [] → (portAt t d p).credits = linkBuffers - (left.length + (portAt s e.1 e.2).buffer.length))) ∧
      (let recent := (x.failures ++ [(dieAt s d).refk.toNat]).filter (fun n => (dieAt s d).refk.toNat < n + 100000000)
       Completes (.linkTrainingComplete d p false) s (fun t => (portAt t d p).failures = recent ∧ (3 ≤ recent.length → isDue t (.linkDown d p) = true) ∧ t.mem = s.mem)) ∧
      Completes (.linkDown d p) s (fun t => (portAt t d p).down = true ∧ (portAt t e.1 e.2).down = true ∧ (portAt t d p).up = false ∧
        (p = 2 → t.cur = s.cur ∧ t.mem = s.mem ∧ (dieAt t d).held = (dieAt s d).held) ∧ (p = 3 → (dieAt t d).held = true) ∧
        (p < 2 → ∀ k : Fin 8, if cutOff t k.val = true then (dieAt t k.val).held = true else (dieAt t k.val).held = (dieAt s k.val).held))) ∧
    (port < 16 → f.1.toNat / 2 ^ 48 = flitCrc f.1 f.2 → badFlit f.1 = false → flitAck f.1 = 0 → flitSeq f.1 = fabricSeq s port → Completes (.fabricFrameReceive port pkg [f]) s (fun t =>
      t.fabric.delivered = s.fabric.delivered ++ [(port, pkg, f.1, f.2)] ∧ fabricSeq t port = (fabricSeq s port + 1) % 1024 ∧ answered t 1 ∧ t.mem = s.mem)) ∧
    (port < 16 → f.1.toNat / 2 ^ 48 ≠ flitCrc f.1 f.2 → Completes (.fabricFrameReceive port pkg [f]) s (fun t => t.fabric.delivered = s.fabric.delivered ∧ fabricSeq t port = fabricSeq s port ∧ answered t 2 ∧ t.mem = s.mem)) ∧
    (16 ≤ port ∨ 16 < fs.length → same (.fabricFrameReceive port pkg fs)) ∧
    Completes (.fabricReplayTimeout port) s (fun t => t.fabric.sent = s.fabric.sent ++ s.fabric.unacked.filter (·.1 == port) ∧ t.fabric.unacked = s.fabric.unacked ∧ t.mem = s.mem ∧
      ((∃ g ∈ s.fabric.unacked, g.1 = port) → { die := 8, inCycles := false, left := 2000, event := .fabricReplayTimeout port } ∈ t.timers))

/-! ## Words -/

/-- The major opcodes that are decoded (R234): the base opcodes of R245 and the four custom ones of R236 to R244. -/
def majorOpcodes : List (BitVec 7) :=
  [0x0B#7, 0x2B#7, 0x5B#7, 0x7B#7, 0x03#7, 0x0F#7, 0x13#7, 0x17#7, 0x1B#7, 0x23#7, 0x2F#7, 0x33#7, 0x37#7, 0x3B#7, 0x63#7, 0x67#7, 0x6F#7, 0x73#7]

/-- Illegal encodings (R192, R234, R242): a word whose bits [1:0] are not 0b11, or of a major opcode not listed, decodes to nothing. -/
def Claims.IllegalEncodings : Prop :=
  (∀ (w : Word32) i, decode w = .ok i → w.extractLsb' 0 2 = 3 ∧ w.extractLsb' 0 7 ∈ majorOpcodes) ∧
  ∀ (w : Word32) (s : State),
    let op := w.extractLsb' 0 7
    let absent := (op = 0x5B ∧ isDCore s.core = false) ∨ (op = 0x0B ∧ w.extractLsb' 27 5 = 30 ∧ isDCore s.core = true)
    let queued := op = 0x0B ∨ op = 0x2B ∨ op = 0x5B
    (s.cur.convoy = [] → Completes (.illegalEncoding w) s (fun t => Trapped (if absent then 25 else 2) (w.setWidth 64) s.cur.pc s t ∧ t = { s with cur := t.cur } ∧
      t.cur.vstart = s.cur.vstart ∧ t.cur.vcvx = (if queued then 0 else s.cur.vcvx))) ∧
    (∀ ms m, s.cur.convoy = ms ++ [m] → (op ≠ 0x0B ∧ op ≠ 0x2B) ∨ 3 ≤ ms.length → Completes (.illegalEncoding w) s (fun t => Trapped 2 (m.word.setWidth 64) s.cur.convoyPc s t ∧ t = { s with cur := t.cur } ∧ t.cur.vcvx = BitVec.ofNat 2 ms.length)) ∧
    (∀ ms m, s.cur.convoy = ms ++ [m] → (op = 0x0B ∨ op = 0x2B) → ms.length < 3 → Completes (.illegalEncoding w) s (fun t => Trapped (if absent then 25 else 2) (w.setWidth 64) s.cur.convoyPc s t ∧ t = { s with cur := t.cur } ∧ t.cur.vcvx = BitVec.ofNat 2 (ms.length + 1)))

/-! ## Reset -/

/-! ## Steps -/

/-- Time passes before a step (R3, R15, R17, R18): REFK of a released die advances by the ticks, CYCLE by the die's ratio for each tick, and not at all during a relock. -/
def Claims.TimePasses : Prop :=
  ∀ (s : State) (e : Nat), s.axis.powered = true → e = stepTime s →
    let t := advance s
    let ticks := (s.wall + e) / Config.tickParts - s.wall / Config.tickParts
    let cycles (r : Nat) := (s.wall + e) * r / Config.tickParts - s.wall * r / Config.tickParts
    let passed (x : Timer) : Nat :=
      if 8 ≤ x.die then (if x.inCycles then (if relocking s.hub then 0 else cycles 10) else ticks)
      else if (dieAt s x.die).released = false then 0 else if x.inCycles then (if relocking (dieAt s x.die) then 0 else cycles (dieAt s x.die).clock.ratio) else ticks
    t.wall = s.wall + e ∧ t.cur = s.cur ∧ t.mem = s.mem ∧
    (∀ d : Fin 8, let x := s.dies[d]
      let y := t.dies[d]
      y.clock = x.clock ∧ (x.released = false → y.cycle = x.cycle ∧ y.refk = x.refk) ∧
      (x.released = true → y.refk = x.refk + BitVec.ofNat 64 ticks ∧ (relocking x = true → y.cycle = x.cycle) ∧ (relocking x = false → y.cycle = x.cycle + BitVec.ofNat 64 (cycles x.clock.ratio)))) ∧
    (∀ w n r, 0 < Config.tickParts → s.wall = w * Config.tickParts → e = n * Config.tickParts → ticks = n ∧ cycles r = n * r) ∧
    (∀ x ∈ s.timers, (x.left ≤ passed x → isDue t x.event = true) ∧ (passed x < x.left → { x with left := x.left - passed x } ∈ t.timers))

/-! ## Words of the spec -/

/-! ## Values, registers and faults -/

/-- What a reader sees of its own thread's writes (R178): where no write to a byte may still be missed, it reads memory as it stands. -/
def Claims.OwnWritesSeen : Prop :=
  ∀ (s : State) (r : Reader) (k n : Nat),
    ((∀ e ∈ s.cur.stale, missable r e = false) → seeBytes s r k n = getBytes k n s.mem) ∧
    (∀ j < n, (seeBytes s r k n).getD j 0 = getByte (k + j) s.mem ∨
      ∃ e ∈ s.cur.stale, e.key ≤ k + j ∧ e.old[k + j - e.key]? = some (some ((seeBytes s r k n).getD j 0)))

/-- What each writable CSR holds after a write (R49, R161, R193, R207, R268 to R273): its fields take the value's bits, reserved bits read zero, a value that a field cannot take is ignored. -/
def Claims.CsrFields : Prop :=
  ∀ (s : State) (n : Nat) (v : Word),
    let old := csrRead s n
    let r := csrRead (csrWrite n v s) n
    (n = 0x100 → r = v &&& 0x100) ∧ (n = 0x105 ∨ n = 0x141 → r = v &&& ~~~3#64) ∧ (n = 0x140 ∨ n = 0x142 ∨ n = 0x143 → r = v) ∧
    (n = 0x5D0 → r = v &&& 0x1FF) ∧ (n = 0x800 → r = v &&& 0xFFFF) ∧ (n = 0x801 → r = v &&& 3) ∧
    (n = 0x802 ∨ n = 0x806 → r = if (v &&& 7).toNat ≤ 4 then v &&& 7 else old) ∧
    (n = 0x803 → r = v &&& 0xFFFFFFFF) ∧ (n = 0x804 → r = v &&& 0x3FFFFFFFFFFFFFFF) ∧ (n = 0x805 → r = v &&& 15) ∧ (n = 0x807 → r = v &&& 31) ∧
    (0x5C0 ≤ n ∧ n ≤ 0x5CF → r = (v &&& 0x7F00000000000FFF) ||| (old &&& ~~~v &&& 0x8000000000000000)) ∧ (0x840 ≤ n ∧ n ≤ 0x84F → r = v) ∧
    (n = 0x820 → ∀ k, visibleClaim s = some k →
      r = if k.count = 0 ∧ ((v >>> 56) &&& 31).toNat ≤ 24 then v &&& 0x1F00FFFFFFFFFFF0 else k.spill) ∧
    (∀ m, m ≠ n → csrRead (csrWrite n v s) m = csrRead s m) ∧
    (csrWrite n v s).cur.x = s.cur.x ∧ (csrWrite n v s).mem = s.mem

/-- The shapes that `mshape`n can hold (R272): a write of any other is ignored. -/
def Claims.MshapeFields : Prop :=
  ∀ (s : State) (n : Nat) (v : Word), 0x810 ≤ n → n ≤ 0x817 →
    let fmt := ((v >>> 24) &&& 7).toNat
    let rows := ((v >>> 16) &&& 0xFF).toNat
    let cols := (v &&& 0x1FF).toNat
    let size := if fmt ≤ 1 then 16 else if fmt = 4 then 4 else if fmt = 6 then 32 else 8
    csrRead (csrWrite n v s) n = if fmt ≠ 7 ∧ rows ≤ 128 ∧ cols * size ≤ 1024 then v &&& 0x7FF01FF else csrRead s n

/-- A convoy with no element left to process (R268, R283): where `vstart` is not below `vl`, a word that stands alone retires and does nothing. -/
def Claims.NothingToProcess : Prop :=
  ∀ (i : Instr) (s : State) (w : Word32) (op : VOp), encode i = some w → vectorOp i = some op → s.cur.convoy = [] →
    w.getLsbD 26 = false → decodeTrap (memberOf s w op) s = none → s.cur.vl ≤ s.cur.vstart →
    (s.cur.vl = 0 → op ≠ .fclaim ∧ op ≠ .frel ∧ scalarAnswer s (memberOf s w op) = none) →
    Completes i s (Retired (if op = .fprobe ∧ s.cur.vl = 0 then wx (BitVec.ofNat 5 (memberOf s w op).b) 0 (running s w op) else running s w op))

/-- The result writer (R116, R125, R126, R129): where the context can allocate a segment for every 256 bytes, a whole result makes its register hold exactly the bytes and the type given, a result cut short is followed by the old chain from there on, and every other register keeps its descriptor and its bytes, shared segments or not. -/
def Claims.ResultWriter : Prop :=
  ∀ (s : State) (r total : Nat) (type : BitVec 4) (bs : List Byte), PoolOk s → r < 32 → bs.length ≤ total → total ≤ 16384 → (bs = [] → total = 0) →
    ceilDiv bs.length 256 ≤ allocatable s s.curKey →
    ∃ u, writeResult s.curKey r type total 0 bs s = some u ∧ PoolOk u ∧ OnlyChains s u ∧
      (vreg u.cur r).valid = true ∧ (vreg u.cur r).type = type ∧ regBytes u r = bs ++ (if bs.length < total then (regBytes s r).drop bs.length else []) ∧
      (∀ q < 32, q ≠ r → SameReg s u q) ∧
      (bs.length = total → (vreg u.cur r).pieces.length = ceilDiv total 256 ∧ ∀ p ∈ (vreg u.cur r).pieces, p.first = 0)

/-- Precise faults of loads (R103, R129, R194, R196, R311): a fault at element e traps with `vstart` e. -/
def Claims.PreciseFaults : Prop :=
  ∀ (i : Instr) (s : State) (w : Word32) (kind : AddrKind) (first : Bool) (e : Nat) (f : Trap), encode i = some w → vectorOp i = some (.ld kind first) →
    Alone s w (.ld kind first) → (loadPass s w (.ld kind first) s.cur.vl).hit = some (e, f) → f.code ≠ 27 → f.code ≠ heldCode →
    let m := memberOf s w (.ld kind first)
    let t := s.cur.vtype
    let at' (u v : State) : Prop := Trapped f.code f.tval s.cur.pc u v ∧ v.cur.vstart = e ∧ v.cur.vcvx = 0
    (e = s.cur.vstart → Completes i s (fun v => at' (started s w (.ld kind first)) v ∧ v.cur.sfinfo.getLsbD 8 = first)) ∧
    (s.cur.vstart < e → first = false →
      let q := loadPass s w (.ld kind first) e
      let bs := bytesOfList t (oldElem s t m.d e) (earlier s t m ++ q.es)
      q.stall = false → ceilDiv (bytesOfElems t s.cur.vl) 256 ≤ allocatable s s.curKey →
      let out : Out := { k := 0, first := false, r := m.d, type := t, total := bytesOfElems t s.cur.vl, lo := bytesOfElems t s.cur.vstart, bs := bs, num := 8, den := typeBits t }
      piecesAt (started s w (.ld kind first)) out e ≤ 64 →
      ∀ u, loadResult s (raiseAll (withShort Flags.none (isIndexed m.op && decide (chainCount s 6 m.b < e))) (Pass.entered q)) m s.cur.vl (oldElem s t m.d e) q.es = some u →
        Completes i s (at' u))

/-- The table's operations, each for one key (R165, R166, R168 to R170, R317): `fins` puts the value under the key, `facc` combines it there, `fdel` takes the key away and `fprobe` reads. -/
def Claims.FacetTable : Prop :=
  ∀ (s : State) (c : Claim) (t : BitVec 4) (key v : Nat), Claimed s c → TableOk s c → isKey c key → isKey c v → typeBits t = 8 * keyBytes c →
    let others (u : State) : Prop := ∀ k, isKey c k → k ≠ key → tableGet u c k = tableGet s c k
    let miss := if ovfOf (bucketHead s c (homeOf c key)) = 0 then 2 else 3
    (search s c key ≠ none ∨ freeIn s c (windowOf c key) ≠ none →
      ∃ u, applyGroup .fins t key v s = (.ok (if search s c key = none then 2 else 1) v u, Flags.none) ∧ tableGet u c key = some v ∧ others u ∧ TableOk u c ∧ OnlyTable s u c) ∧
    (∀ op, search s c key ≠ none ∨ freeIn s c (windowOf c key) ≠ none →
      let r := match tableGet s c key with
        | none => Res.plain v
        | some old => if op = .count then Res.plain ((old + v) % 2 ^ typeBits t) else combine t s.cur.frm op old v
      isKey c r.w → ∃ u, applyGroup (.facc op) t key v s = (.ok (if search s c key = none then 2 else 1) r.w u, Flags.none.add r) ∧
        tableGet u c key = some r.w ∧ others u ∧ TableOk u c ∧ OnlyTable s u c) ∧
    (∃ u, applyGroup .fdel t key v s = (.ok (if search s c key = none then miss else 1) 0 u, Flags.none) ∧ tableGet u c key = none ∧ others u ∧ TableOk u c ∧ OnlyTable s u c) ∧
    applyGroup .fprobe t key v s = (.ok (if search s c key = none then miss else 1) ((tableGet s c key).getD 0) s, Flags.none)

/-- Entries that find no place (R166, R173): with the spill area full, or none set up, a trap of class 51 with the entry's address. -/
def Claims.FacetSpills : Prop :=
  ∀ (s : State) (c : Claim) (t : BitVec 4) (key v : Nat), Claimed s c → isKey c key → isKey c v →
    search s c key = none → freeIn s c (windowOf c key) = none →
    let addr := spillAddr c c.count
    (spillCap c = 0 ∨ c.count = 2 ^ spillCap c → ∃ tr : Trap, tr.code = 51 ∧ tr.tval = addr ∧ applyGroup .fins t key v s = (.trap tr, Flags.none)) ∧
    (spillCap c ≠ 0 → c.count ≠ 2 ^ spillCap c →
      (∀ tr, elemPlace s 3 0 (slotBytes c) .store addr = .error tr → applyGroup .fins t key v s = (.trap tr, Flags.none)) ∧
      (s.cur.release = none → (∀ k, ¬unordered s k) → ∀ k use, elemPlace s 3 0 (slotBytes c) .store addr = .ok (k, use) → k + slotBytes c ≤ 2 ^ 48 →
        ∃ u, applyGroup .fins t key v s = (.ok 3 v u, Flags.none) ∧ natOf (getBytes k (keyBytes c) u.mem) = key ∧ natOf (getBytes (k + keyBytes c) (keyBytes c) u.mem) = v ∧
          (coreAt u s.core).claim = some { c with count := c.count + 1 } ∧
          ovfOf (bucketHead u c (homeOf c key)) = min 255 (ovfOf (bucketHead s c (homeOf c key)) + 1)))

/-- A record read faults as a scalar load (R143, R251, R257, R336): misaligned with code 4, else with the class of its place, or with 49 where an uncorrectable error stands in it. -/
def Claims.RecordFaults : Prop :=
  ∀ (i : Instr) (s : State) (n : Nat) (a : BitVec 5), s.cur.convoy = [] → recordForm i = some (n, a) →
    let va := rx s a
    (va.toNat % n ≠ 0 → Completes i s (ScalarTrapped 4 va s)) ∧
    (va.toNat % n = 0 → ∀ f, scalarPlace s (who s) .load va.toNat = .error f → f ≠ 27 → f ≠ heldCode → Completes i s (ScalarTrapped f va s)) ∧
    (va.toNat % n = 0 → scalarPlace s (who s) .load va.toNat = .error heldCode → Completes i s (· = s)) ∧
    (va.toNat % n = 0 → ∀ k use, scalarPlace s (who s) .load va.toNat = .ok (.mem k, use) → scoreboardStalls s k n false = false → hasError k n s = true →
      Completes i s (fun t => Trapped 49 (errorAddr k) s.cur.pc s t))

/-- A stop for pre-emption inside a convoy (R89, R103, R113): where a committed award waits for the slot and its 2,048 cycles run or have run out, a cross-element word that leaves nothing behind is abandoned if the stop falls into it (which is a matter of time, log 61): the context stands at the word with `vstart` and `vcvx` 0 and no register written, and is saved in the award's frame. -/
def Claims.StopsInConvoy : Prop :=
  ∀ (i : Instr) (s : State) (w : Word32) (op : VOp) (f : Nat), encode i = some w → vectorOp i = some op → w.getLsbD 26 = false → s.cur.convoy = [] →
    crossElement op = true → keepsStart op = false → op ≠ .st .indexed → decodeTrap (memberOf s w op) s = none → s.cur.vstart < s.cur.vl → pressing s = some f →
    Config.stopsAt s.nonce = none ∨ Completes i s (fun t => t = saveFor s.curKey .preempt none f { s with cur := { s.cur with convoyPc := s.cur.pc, vstart := 0, vcvx := 0 } })

/-- The lanes compute what the tables of R279, R283, R284 and R285 say: for every type that the word accepts and every pair of operands of the type, whatever the rounding mode, the value and no flag but SAT where a saturating form clamps. -/
def Claims.LaneValues : Prop :=
  ∀ (t : BitVec 4) (rm : BitVec 3) (op : VOp) (imm : Nat) (sel : Nat → Bool) (l : Lane) (v : Nat) (sat : Bool), acceptsType op t = true → imm < 32 →
    l.a < 2 ^ typeBits t → l.b < 2 ^ typeBits t → plainLane t op imm sel l = some (v, sat) →
    laneVal t rm op imm sel l = { w := v, f := 0, v := if sat then vSat else 0 }

end Sys2Proof

/-! ## The statements -/

open Sys2Proof Sys2Proof.Machine

/-- Scalar arithmetic and bit fields write their result and nothing else: what `Claims.ScalarArithmetic` and `Claims.BitFields` say. -/
def Obligations.ScalarArithmetic : Prop := Claims.ScalarArithmetic ∧ Claims.BitFields

/-- Jumps, branches, words of S mode, and calls: what `Claims.JumpsAndBranches`, `Claims.SupervisorWords` and `Claims.Calls` say. -/
def Obligations.ControlWords : Prop := Claims.JumpsAndBranches ∧ Claims.SupervisorWords ∧ Claims.Calls

/-- Scalar loads and stores, and what a thread sees of its own writes: what `Claims.Loads`, `Claims.OwnWritesSeen` and `Claims.Stores` say. Where the spec leaves a point open, the clauses follow the model's choice in log 7. -/
def Obligations.LoadsAndStores : Prop := Claims.Loads ∧ Claims.OwnWritesSeen ∧ Claims.Stores

/-- Atomics, load-reserved and store-conditional: what `Claims.Atomics` and `Claims.LoadReservedStoreConditional` say. Where the spec leaves a point open, the clauses follow the model's choice in log 12. -/
def Obligations.Atomics : Prop := Claims.Atomics ∧ Claims.LoadReservedStoreConditional

/-- CSR instructions, what each CSR holds after a write, and the queries: what `Claims.CsrWords`, `Claims.CsrFields`, `Claims.MshapeFields` and `Claims.Queries` say. Where the spec leaves a point open, the clauses follow the model's choice in logs 12, 58 and 63. -/
def Obligations.CsrsAndQueries : Prop := Claims.CsrWords ∧ Claims.CsrFields ∧ Claims.MshapeFields ∧ Claims.Queries

/-- Fences, releases, acquires and hints: what `Claims.FencesAndHints` and `Claims.FencesReleasesAcquires` say. Where the spec leaves a point open, the clauses follow the model's choice in logs 7 and 50. -/
def Obligations.OrderingWords : Prop := Claims.FencesAndHints ∧ Claims.FencesReleasesAcquires

/-- Grants of a type and length, and the strip-mining word: what `Claims.Grants`, `Claims.StripMining` and `Claims.ShapeGrants` say. Where the spec leaves a point open, the clauses follow the model's choice in log 45. -/
def Obligations.GrantsAndStripMining : Prop := Claims.Grants ∧ Claims.StripMining ∧ Claims.ShapeGrants

/-- Illegal encodings, and words that break an open convoy: what `Claims.BrokenConvoys` and `Claims.IllegalEncodings` say. Where the spec leaves a point open, the clauses follow the model's choice in log 39. -/
def Obligations.IllegalEncodings : Prop := Claims.BrokenConvoys ∧ Claims.IllegalEncodings

/-- Elementwise vector words write each active element, and what a lane of an integer word, a select, a move or a bit count holds: what `Claims.ElementwiseWords` and `Claims.LaneValues` say. Where the spec leaves a point open, the clauses follow the model's choice in logs 12, 13, 42 and 43. -/
def Obligations.ElementwiseWords : Prop := Claims.ElementwiseWords ∧ Claims.LaneValues

/-- Compares, predicate words, answers in x registers, and convoys with nothing to process: what `Claims.ComparesAndPredicates`, `Claims.ScalarAnswers` and `Claims.NothingToProcess` say. -/
def Obligations.PredicatesAndAnswers : Prop := Claims.ComparesAndPredicates ∧ Claims.ScalarAnswers ∧ Claims.NothingToProcess

/-- Conversions to and from e2m1: what `Claims.ConversionsToE2m1` and `Claims.ConversionsFromE2m1` say. Where the spec leaves a point open, the clauses follow the model's choice in logs 12 and 43. -/
def Obligations.BlockConversions : Prop := Claims.ConversionsToE2m1 ∧ Claims.ConversionsFromE2m1

/-- Words that take an operand from a ray, and cross-element words: what `Claims.RayForms` and `Claims.CrossElementWords` say. Where the spec leaves a point open, the clauses follow the model's choice in logs 12, 13, 42, 43 and 44. -/
def Obligations.RayAndCrossElementForms : Prop := Claims.RayForms ∧ Claims.CrossElementWords

/-- How a VX or VM word enters a convoy, and a stop for pre-emption inside one: what `Claims.ConvoyEntry` and `Claims.StopsInConvoy` say. Where the spec leaves a point open, the clauses follow the model's choice in logs 39 and 61. -/
def Obligations.ConvoyEntry : Prop := Claims.ConvoyEntry ∧ Claims.StopsInConvoy

/-- Vector loads and first-fault loads: what `Claims.VectorLoads` and `Claims.FirstFaultLoads` say. Where the spec leaves a point open, the clauses follow the model's choice in log 41. -/
def Obligations.VectorLoads : Prop := Claims.VectorLoads ∧ Claims.FirstFaultLoads

/-- Faults of loads are precise, and what the result writer writes: what `Claims.ResultWriter` and `Claims.PreciseFaults` say. Where the spec leaves a point open, the clauses follow the model's choice in logs 40 and 41. -/
def Obligations.PreciseFaults : Prop := Claims.ResultWriter ∧ Claims.PreciseFaults

/-- Vector stores, and the store with progress: what `Claims.VectorStores` and `Claims.StoreWithNotify` say. Where the spec leaves a point open, the clauses follow the model's choice in logs 45 and 50. -/
def Obligations.VectorStores : Prop := Claims.VectorStores ∧ Claims.StoreWithNotify

/-- Reduce-stores and the write queues that apply them: what `Claims.ReduceStores` and `Claims.WriteQueues` say. Where the spec leaves a point open, the clauses follow the model's choice in log 50. -/
def Obligations.ReduceStores : Prop := Claims.ReduceStores ∧ Claims.WriteQueues

/-- Chain edits and compaction: what `Claims.ChainEdits` and `Claims.Compaction` say. -/
def Obligations.ChainEdits : Prop := Claims.ChainEdits ∧ Claims.Compaction

/-- Spills and fills of a chain: what `Claims.Spills` and `Claims.Fills` say. -/
def Obligations.SpillsAndFills : Prop := Claims.Spills ∧ Claims.Fills

/-- Claims, releases and drains of the Facet table: what `Claims.FacetClaims` and `Claims.Drains` say. Where the spec leaves a point open, the clauses follow the model's choice in log 55. -/
def Obligations.FacetClaims : Prop := Claims.FacetClaims ∧ Claims.Drains

/-- The operations of the Facet table on one key, and entries that spill: what `Claims.FacetTable` and `Claims.FacetSpills` say. -/
def Obligations.FacetTable : Prop := Claims.FacetTable ∧ Claims.FacetSpills

/-- The keyed words (R126, R167 to R170, R174, R317): each group of lanes makes one operation, in the order of leaders; every active lane gets its group's code in the two predicates and, for
`fprobe` and `facc`, its value in the destination; inactive lanes get code 0 and keep the old element; `fprobe` counts the lanes that hit. Where the spec leaves a point open, the clauses follow the model's choice in logs 20 and 42. -/
def Obligations.KeyedWords : Prop :=
  ∀ (i : Instr) (s : State) (w : Word32) (op : VOp), encode i = some w → vectorOp i = some op → takesKeys op = true → s.cur.vstart = 0 → Alone s w op →
    let t := s.cur.vtype
    let n := s.cur.vl
    let m := memberOf s w op
    let pd := statusPred m
    let writes := match op with | .fprobe => true | .facc _ => true | _ => false
    let total := bytesOfElems t n
    let r := runGroups op t (groupsOf s m) (running s w op)
    let out (e : Nat) : Nat × Nat := ((r.out.find? (fun x => x.1 == e)).map (·.2)).getD (0, 0)
    let value (e : Nat) : Nat := if laneActive s m e then (out e).2 else oldElem s t m.d e
    let u1 := if keyedShort s m then raiseAll { f := 0, v := vShort } r.s else r.s
    r.stop = none → r.stall = false → (writes = true → (writeResult s.curKey m.d t total 0 (List.replicate total 0) (running s w op)).isSome = true) →
    ∀ lo hi u, predOfBits n (fun e => laneActive s m e && decide ((out e).1 % 2 = 1)) lo → predOfBits n (fun e => laneActive s m e && decide ((out e).1 / 2 % 2 = 1)) hi →
      let u2 : State := { u1 with cur := setPred (pd + 1) hi (setPred pd lo u1.cur) }
      (if writes then writeResult s.curKey m.d t total 0 (bytesOfList t 0 ((List.range n).map value)) u2 = some u else u = u2) →
      Completes i s (Retired (if op = .fprobe then wx (BitVec.ofNat 5 m.b) (BitVec.ofNat 64 ((List.range n).countP (fun e => laneActive s m e && decide ((out e).1 = 1)))) u else u))

/-- Checks of decode, shapes and zeros of the matrix engine: what `Claims.MatrixDecode` and `Claims.ShapesAndZeros` say. -/
def Obligations.MatrixShapes : Prop := Claims.MatrixDecode ∧ Claims.ShapesAndZeros

/-- Tile loads and stores: what `Claims.TileTransfers` and `Claims.TileRowPlaces` say. Where the spec leaves a point open, the clauses follow the model's choice in log 17. -/
def Obligations.TileTransfers : Prop := Claims.TileTransfers ∧ Claims.TileRowPlaces

/-- Products and scales of the matrix engine: what `Claims.MatrixProducts` and `Claims.MatrixScales` say. Where the spec leaves a point open, the clauses follow the model's choice in logs 21 and 44. -/
def Obligations.MatrixProducts : Prop := Claims.MatrixProducts ∧ Claims.MatrixScales

/-- Row moves, accumulator output and gangs: what `Claims.RowMoves` and `Claims.Gangs` say. Where the spec leaves a point open, the clauses follow the model's choice in logs 6 and 53. -/
def Obligations.RowMovesAndGangs : Prop := Claims.RowMoves ∧ Claims.Gangs

/-- Opening, closing and granting a ray: what `Claims.RayOpening` and `Claims.RayClosesAndGrants` say. Where the spec leaves a point open, the clauses follow the model's choice in logs 6 and 46. -/
def Obligations.RayOpening : Prop := Claims.RayOpening ∧ Claims.RayClosesAndGrants

/-- Sends and tile broadcasts on a ray: what `Claims.Sends` and `Claims.TileBroadcasts` say. Where the spec leaves a point open, the clauses follow the model's choice in logs 17 and 46. -/
def Obligations.Sends : Prop := Claims.Sends ∧ Claims.TileBroadcasts

/-- Receives from a ray, and tokens that arrive: what `Claims.Receives` and `Claims.TokenArrivals` say. Where the spec leaves a point open, the clauses follow the model's choice in logs 46 and 47. -/
def Obligations.Receives : Prop := Claims.Receives ∧ Claims.TokenArrivals

/-- Copies by the engine, and faults of the records that words read: what `Claims.RecordFaults` and `Claims.Copies` say. Where the spec leaves a point open, the clauses follow the model's choice in log 45. -/
def Obligations.Copies : Prop := Claims.RecordFaults ∧ Claims.Copies

/-- Waits on completion objects, bounds of waits, and standing faults: what `Claims.Waits`, `Claims.WaitsExpire` and `Claims.StandingFaults` say. Where the spec leaves a point open, the clauses follow the model's choice in logs 31 and 49. -/
def Obligations.Waits : Prop := Claims.Waits ∧ Claims.WaitsExpire ∧ Claims.StandingFaults

/-- Barriers: making, arriving, waiting: what `Claims.BarrierMaking`, `Claims.Arrivals` and `Claims.BarrierWaits` say. Where the spec leaves a point open, the clauses follow the model's choice in logs 6 and 48. -/
def Obligations.Barriers : Prop := Claims.BarrierMaking ∧ Claims.Arrivals ∧ Claims.BarrierWaits

/-- Collectives (R134, R222, R293, R352, R353): a type that the operation does not take is an illegal encoding, a register that is not valid traps with 24, and a handle that is no barrier of the focus's reports 3. A
result that the unit holds is taken into the register, or its status reported. Else the `vl` elements of the register are contributed after a release, and the slot is given up; the last contribution of a phase makes each
waiting contributor's result: the combination of all over the tree of contexts, cores and dies, or status 4 where operations, lengths or types differ. Where the spec leaves a point open, the clauses follow the model's choice in log 48. -/
def Obligations.Collectives : Prop :=
  ∀ (i : Instr) (s : State) (w : Word32) (op : CombOp) (b a d : BitVec 5), s.cur.convoy = [] → encode i = some w → collForm i = some (op, b, a, d) →
    let ty := s.cur.vtype
    let h := (rx s a).toNat
    let th := threadOf s.cur
    let typed : Prop := ty ≠ 0 ∧ acceptsType (.scan op) ty = true
    let barred : Prop := s.cur.validMode = true ∧ (vreg s.cur b.toNat).valid = false
    let givesIt (u : State) (phase status : Nat) : Prop := Completes i s (fun t => t.cur.pc = u.cur.pc + 4 ∧ OnlyRegister d u t ∧ holds t d (BitVec.ofNat 64 (phase % 2 ^ 32 * 2 ^ 32 + status)))
    (¬typed → Completes i s (ScalarTrapped 2 (w.setWidth 64) s)) ∧
    (typed → barred → Completes i s (ScalarTrapped 24 (BitVec.ofNat 64 b.toNat) s)) ∧
    (typed → ¬barred → myBarrier s h = none → givesIt s 0 3) ∧
    (typed → ¬barred → ∀ x, myBarrier s h = some x →
      (∀ r, x.results.find? (·.thread == th) = some r →
        (r.status ≠ 0 → Completes i s (fun t => GoesOn d s t ∧ holds t d (BitVec.ofNat 64 (r.phase % 2 ^ 32 * 2 ^ 32 + r.status)) ∧ t.cur.v = s.cur.v ∧
          ∃ y, barrierAt t h = some y ∧ y.results = x.results.filter (fun q => q.thread != th))) ∧
        (r.status = 0 → badEntryIn (coreAt s s.core) (vreg s.cur b.toNat) = false → ∀ v, writeResult s.curKey b.toNat ty r.bytes.length 0 r.bytes s = some v →
          Completes i s (fun t => GoesOn d v t ∧ holds t d (BitVec.ofNat 64 (r.phase % 2 ^ 32 * 2 ^ 32)) ∧ t.cur.v = v.cur.v))) ∧
      (x.results.find? (·.thread == th) = none → chainError s [b.toNat] = none → ∀ u, releaseNow s.curKey (barrierScope x) s = some u → barrierAt u h = some x →
        (x.broken = true → givesIt u ((lookupKey h u.cur.lastArrival).getD 0) 5) ∧
        (x.broken = false → slotOfThread u (threadOf u.cur) = some u.curKey →
          let vl := u.cur.vl
          let es := elemsOf ty (chainBytes (coreAt u u.core) (vreg u.cur b.toNat))
          let sent := bytesOfList ty 0 ((List.range vl).map (fun j => es.getD j 0))
          let mine : Contribution := { thread := threadOf u.cur, core := s.core, slot := s.curKey % 4, op := op, vl := vl, vtype := ty, bytes := sent }
          let alike : Prop := x.plain = false ∧ ∀ c ∈ x.contribs, c.op = op ∧ c.vl = vl ∧ c.vtype = ty
          Completes i s (fun t => t.cur.state = .waiting (.collective d h x.phase) ∧ t.cur.pc = u.cur.pc ∧ t.cur.x = u.cur.x ∧ t.mem = u.mem ∧
            t.cur.vflags = (if es.length < vl then u.cur.vflags ||| vShort else u.cur.vflags) ∧
            ∃ y, barrierAt t h = some y ∧
              (x.arrivals + 1 < x.expected → y.phase = x.phase ∧ y.arrivals = x.arrivals + 1 ∧ y.contribs = x.contribs ++ [mine] ∧ y.results = x.results) ∧
              (x.expected ≤ x.arrivals + 1 → y.phase = x.phase + 1 ∧ y.arrivals = 0 ∧ y.contribs = [] ∧ isDue t (.barrierResume s.curKey) = true ∧
                ∃ r ∈ y.results, r.thread = threadOf u.cur ∧ r.phase = x.phase ∧
                  (alike → r.status = 0 ∧ r.bytes = bytesOfList ty (padNibble t) (treeCombine ty op (x.contribs ++ [mine]))) ∧ (¬alike → r.status = 4))))))

/-- `vroute` (R134, R179, R344, R345): the first of its three registers that is not valid traps, and so does an uncorrectable error in their chains; a release in progress holds the word; a bad record, descriptor or group
split over dies reports 2^32; a descriptor that may not be read traps as a load of it does; else the tokens are sent, each on its way to its die, and rd counts them; SHORT where scores or masks are too few. Where the spec leaves a point open, the clauses follow the model's choice in logs 45 and 47. -/
def Obligations.Routing : Prop :=
  ∀ (s u v : State) (b a d : BitVec 5) (r : List Byte) (l : List (List Byte)), s.cur.convoy = [] →
    let rs := [b.toNat, b.toNat + 1, b.toNat + 2]
    let valid : Prop := s.cur.validMode = true → ∀ q ∈ rs, (vreg s.cur q).valid = true
    let fails (x : State) : Prop := Completes (.vroute b a d) s (fun t => OnlyRegister d x t ∧ holds t d (BitVec.ofNat 64 (2 ^ 32)) ∧ t.cur.pc = s.cur.pc + 4)
    (∀ q, s.cur.validMode = true → rs.find? (fun q => !(vreg s.cur q).valid) = some q → Completes (.vroute b a d) s (ScalarTrapped 24 (BitVec.ofNat 64 q) s)) ∧
    (valid → s.cur.release ≠ none → Completes (.vroute b a d) s (· = s)) ∧
    (valid → s.cur.release = none → ∀ e, chainError s rs = some e → Completes (.vroute b a d) s (Trapped 49 e s.cur.pc s)) ∧
    (valid → s.cur.release = none → chainError s rs = none → RecordRead s 64 (rx s a) r u →
      (readRoute r = none → fails u) ∧
      (∀ cap topg ng ne tab x, readRoute r = some (cap, topg, ng, ne, tab) → readTable (ng * ne) tab u = .error x → Completes (.vroute b a d) s (· = x)) ∧
      (∀ cap topg ng ne tab, readRoute r = some (cap, topg, ng, ne, tab) → readTable (ng * ne) tab u = .ok (l, v) →
        let ds := l.filterMap readDescriptor
        let bad : Prop := (∃ x ∈ l, readDescriptor x = none) ∨ ∃ g < ng, ∃ j < ne, (ds.getD (g * ne + j) (0, 0)).1 ≠ (ds.getD (g * ne) (0, 0)).1
        let elems (t : BitVec 4) (q : Nat) : List Nat := elemsOf t (chainBytes (coreAt s s.core) (vreg s.cur q))
        let handles := elems 6 b.toNat
        let scores := elems 9 (b.toNat + 1)
        let masks := elems 6 (b.toNat + 2)
        let sent := routed v cap topg ng ne ds handles scores masks
        (bad → fails v) ∧
        (¬bad → Completes (.vroute b a d) s (fun t => GoesOn d v t ∧ holds t d (BitVec.ofNat 64 sent.length) ∧
          (∃ more, t.tokens = v.tokens ++ more ∧ more.map (fun x => { x with num := 0 }) = sent ∧ ∀ x ∈ more, isDue t (.tokenArrival x.num) = true) ∧
          t.regions = v.regions ∧
          t.cur.vflags = (if scores.length < handles.length * (ng * ne) ∨ masks.length < handles.length then s.cur.vflags ||| vShort else s.cur.vflags)))))

/-- Submissions, yields and ends of tasks: what `Claims.Submission` and `Claims.YieldsAndEnds` say. Where the spec leaves a point open, the clauses follow the model's choice in logs 49 and 54. -/
def Obligations.TaskWords : Prop := Claims.Submission ∧ Claims.YieldsAndEnds

/-- Kills, and the ends of tasks, kills and regions: what `Claims.Kills` and `Claims.RegionEnds` say. Where the spec leaves a point open, the clauses follow the model's choice in log 54. -/
def Obligations.KillsAndRegionEnds : Prop := Claims.Kills ∧ Claims.RegionEnds

/-- Completion objects and the task graph: what `Claims.ObjectUpdates` and `Claims.Predecessors` say. Where the spec leaves a point open, the clauses follow the model's choice in log 54. -/
def Obligations.CompletionAndGraph : Prop := Claims.ObjectUpdates ∧ Claims.Predecessors

/-- Engine operations end, releases complete, reservations expire; and where the steps of tasks, tenders, saves and calls complete: what `Claims.OperationsEnd`, `Claims.TileTransfersEnd`, `Claims.ReleaseSteps` and `Claims.TaskStepsComplete` say. Each clause `Completes i s P` says that `exec i s` answers a next state t with P t, under conditions on s and the operands alone: so of engineOperationComplete, releaseComplete, phaseCountersCleared, lrReservationExpiry and, in `Claims.TaskStepsComplete`, of every step of tasks, tenders, saves and runtime calls that O35 to O43 name. Where the spec leaves a point open, the clauses follow the model's choice in logs 17 and 50. -/
def Obligations.EngineAndReleaseSteps : Prop := Claims.OperationsEnd ∧ Claims.TileTransfersEnd ∧ Claims.ReleaseSteps ∧ Claims.TaskStepsComplete

/-- Tenders, bids, and the close of a window: what `Claims.TendersGoOut`, `Claims.Bids` and `Claims.WindowsClose` say. Where the spec leaves a point open, the clauses follow the model's choice in logs 27, 28 and 29. -/
def Obligations.Tenders : Prop := Claims.TendersGoOut ∧ Claims.Bids ∧ Claims.WindowsClose

/-- Awards, withdrawals and commits: what `Claims.Awards`, `Claims.AwardsFail` and `Claims.Commits` say. Where the spec leaves a point open, the clauses follow the model's choice in log 29. -/
def Obligations.AwardsAndCommits : Prop := Claims.Awards ∧ Claims.AwardsFail ∧ Claims.Commits

/-- Ageing of tenders, and saves of contexts: what `Claims.Ageing` and `Claims.Saves` say. Where the spec leaves a point open, the clauses follow the model's choice in logs 28, 51 and 52. -/
def Obligations.AgeingAndSaves : Prop := Claims.Ageing ∧ Claims.Saves

/-- Plane allocation, and pins: what `Claims.PlaneCalls` and `Claims.Pins` say. Where the spec leaves a point open, the clauses follow the model's choice in logs 12 and 32. -/
def Obligations.PlaneAndPinCalls : Prop := Claims.PlaneCalls ∧ Claims.Pins

/-- Ranged invalidations, and page fetches: what `Claims.Invalidations` and `Claims.PageFetches` say. Where the spec leaves a point open, the clauses follow the model's choice in logs 10, 33 and 59. -/
def Obligations.InvalidationsAndPages : Prop := Claims.Invalidations ∧ Claims.PageFetches

/-- Clock steps, their commands, and how time passes: what `Claims.ClockSteps`, `Claims.ClockCommands` and `Claims.TimePasses` say. Each clause `Completes i s P` says that `exec i s` answers a next state t with P t, under conditions on s and the operands alone: so of supplyRampDone, relockEnd, thermalPolicy and fstep. Where the spec leaves a point open, the clauses follow the model's choice in logs 5 and 35. -/
def Obligations.ClockSteps : Prop := Claims.ClockSteps ∧ Claims.ClockCommands ∧ Claims.TimePasses

/-- Writes to a queue window (R23, R24, R25, R33, R37, R42): before the firmware has enabled the windows they are ignored. QDBELL takes any value, QACONS one that precedes or equals QDSEQ, QWDOG any, reloading while the watchdog is live. EN starts a DISABLED queue whose sizes and rings are good, and QERR 5 refuses one; cleared
with nothing in flight it disables. RESUME, HOLD and DISC act as QCTL says. The rings and sequence numbers are written only while DISABLED, and only as whole aligned registers. Each clause `Completes i s P` says that `exec i s` answers a next state t with P t, under conditions on s and the operands alone: so of qctlEnSet, qctlEnClear, qctlResume, qctlHold, qctlDisc, qdbellWrite, qaconsWrite, qwdogWrite and queueRegisterWrite. Where the spec leaves a point open, the clauses follow the model's choice in log 34. -/
def Obligations.QueueRegisters : Prop :=
  ∀ (s : State) (q : Nat) (v : Word), q < 64 →
    let k := queueAt s q
    let gives (i : Instr) (x : Queue) : Prop := Completes i s (fun t => queueAt t q = x ∧ (∀ p, p ≠ q → queueAt t p = queueAt s p) ∧ t.mem = s.mem)
    let hold := v.getLsbD 2
    let on : QState := if hold then .held else .running
    (s.axis.windows = false → ∀ i, i ∈ [.qctlEnSet q v, .qctlEnClear q v, .qctlResume q v, .qctlHold q v, .qctlDisc q v, .qdbellWrite q v, .qaconsWrite q v, .qwdogWrite q v, .queueRegisterWrite q 0x008 8 v] → Completes i s (fun t => t = s)) ∧
    (s.axis.windows = true →
      gives (.qdbellWrite q v) { k with dbell := v.setWidth 32 } ∧
      gives (.qaconsWrite q v) (if seqLe (v.setWidth 32) k.dseq then { k with acons := v.setWidth 32 } else k) ∧
      gives (.qwdogWrite q v) { k with wdog := v.setWidth 32, wleft := if k.state = .running ∨ k.state = .held ∨ k.state = .stopped then v.setWidth 32 else k.wleft } ∧
      (let c := { k with home := (v.extractLsb' 24 3).toNat, alog2 := (v.extractLsb' 19 5).toNat, slog2 := (v.extractLsb' 14 5).toNat, holdBit := hold }
       k.state = .disabled → gives (.qctlEnSet q v) { c with state := (if configOk s c then on else .disabled), err := (if configOk s c then k.err else 5), slot := (if v.getLsbD 1 then k.dbell else k.slot) }) ∧
      (k.state ≠ .disabled → k.state ≠ .draining → k.cmds = [] → gives (.qctlEnClear q v) { k with holdBit := hold, state := .disabled }) ∧
      (v.getLsbD 0 = true → v.getLsbD 1 = false → (k.state = .stopped ∨ k.state = .halted) → gives (.qctlResume q v) { k with holdBit := hold, state := on, wleft := k.wdog }) ∧
      (v.getLsbD 0 = true → v.getLsbD 1 = false → v.getLsbD 3 = false → (k.state = .running ∨ k.state = .held) → gives (.qctlHold q v) { k with holdBit := hold, state := on }) ∧
      (v.getLsbD 0 = true → v.getLsbD 3 = false → (k.state = .stopped ∨ k.state = .halted ∨ k.state = .draining) → gives (.qctlDisc q v) { k with holdBit := hold, slot := k.dbell }) ∧
      gives (.queueRegisterWrite q 0x008 8 v) (if k.state = .disabled then { k with sbase := v } else k) ∧
      gives (.queueRegisterWrite q 0x010 8 v) (if k.state = .disabled then { k with abase := v } else k) ∧
      gives (.queueRegisterWrite q 0x030 8 v) (if k.state = .disabled then { k with hseq := v.setWidth 32 } else k) ∧
      gives (.queueRegisterWrite q 0x038 8 v) (if k.state = .disabled then { k with dseq := v.setWidth 32 } else k) ∧
      (∀ off size, size ≠ 8 ∨ off.toNat % 8 ≠ 0 ∨ off.toNat ∈ [0x020, 0x048, 0x050, 0x058, 0x060] ∨ 0x800 ≤ off.toNat → gives (.queueRegisterWrite q off size v) k))

/-- Consuming command slots, and emitting answers: what `Claims.Consumption` and `Claims.Emission` say. Each clause `Completes i s P` says that `exec i s` answers a next state t with P t, under conditions on s and the operands alone: so of slotConsume and answerEmit. -/
def Obligations.QueueRings : Prop := Claims.Consumption ∧ Claims.Emission

/-- What every command checks, and the commands that end at once: what `Claims.CommandChecks` and `Claims.SimpleCommands` say. Each clause `Completes i s P` says that `exec i s` answers a next state t with P t, under conditions on s and the operands alone: so of nop, wdog, qbind, qfence and reservedOpcode. Where the spec leaves a point open, the clauses follow the model's choice in log 34. -/
def Obligations.Commands : Prop := Claims.CommandChecks ∧ Claims.SimpleCommands

/-- Commands of partitions, regions and graphs: what `Claims.PartitionCommands` and `Claims.RegionCommands` say. Each clause `Completes i s P` says that `exec i s` answers a next state t with P t, under conditions on s and the operands alone: so of pcreate, pdestroy, pdrain, rcreate, grun and rretire. Where the spec leaves a point open, the clauses follow the model's choice in logs 10 and 34. -/
def Obligations.PartitionAndRegionCommands : Prop := Claims.PartitionCommands ∧ Claims.RegionCommands

/-- Checkpoints, and watchdogs of queues: what `Claims.Checkpoints` and `Claims.Watchdogs` say. Each clause `Completes i s P` says that `exec i s` answers a next state t with P t, under conditions on s and the operands alone: so of cksave, ckload, checkpointQuiesced, checkpointCopyComplete, checkpointCxlError and watchdogExpiry. Where the spec leaves a point open, the clauses follow the model's choice in logs 36 and 54. -/
def Obligations.CheckpointsAndWatchdogs : Prop := Claims.Checkpoints ∧ Claims.Watchdogs

/-- Boot and images: what `Claims.Boot` and `Claims.Images` say. Each clause `Completes i s P` says that `exec i s` answers a next state t with P t, under conditions on s and the operands alone: so of powerOnReset, bootlenWrite, bootImageFetched, bootSourceNoAnswer, firmwareBringup and powerFail. Where the spec leaves a point open, the clauses follow the model's choice in logs 8, 11 and 37. -/
def Obligations.Boot : Prop := Claims.Boot ∧ Claims.Images

/-- Alarms, open services, and provisioning: what `Claims.Alarms`, `Claims.OpenServices` and `Claims.Provisioning` say. Each clause `Completes i s P` says that `exec i s` answers a next state t with P t, under conditions on s and the operands alone: so of alarmTrip, keyStoreEraseDone, identity, attest, status and provision. Where the spec leaves a point open, the clauses follow the model's choice in logs 8 and 37. -/
def Obligations.AlarmsAndIdentity : Prop := Claims.Alarms ∧ Claims.OpenServices ∧ Claims.Provisioning

/-- Signed services (R16, R43, R46, R49, R51, R52): a request that no enrolled key has signed, or whose counter is not above the last, is refused and does nothing else. An accepted one reads log entries from a number on; sets and reads a counter pair; stages an image that passes; carries out the four administrative commands; requests a clock
step; reads the alarm configuration and writes it while it is unlocked. Each clause `Completes i s P` says that `exec i s` answers a next state t with P t, under conditions on s and the operands alone: so of logRead, counters, firmware, partition, step and alarm. Where the spec leaves a point open, the clauses follow the model's choice in logs 9 and 37. -/
def Obligations.SignedServices : Prop :=
  ∀ (s u : State) (a : Auth) (d n : Nat) (q : BitVec 32) (x y : Word) (img : List Byte) (opc : BitVec 8) (v : BitVec 10) (lock : Bool),
    let kind := if recNat img 4 4 = 2 then 2 else 1
    (∀ i svc args, signedForm i = some (a, svc, args) → s.axis.powered = true → s.axis.stage ≠ .halted →
      (∀ k last, s.axis.store.operators[a.key]? = some (k, last) → ¬(last.toNat < a.counter.toNat ∧ Config.requestSigned k svc args a.counter a.sig = true)) → Completes i s (Told .refused s)) ∧
    (Accepted s a 3 [d, q.toNat] u → d ≤ 8 → Completes (.logRead a d q) s (Told (.log ((dieAt s d).log.filter (fun e => seqLe q e.seq))) u)) ∧
    (Accepted s a 4 [d, n, x.toNat, y.toNat] u → d ≤ 8 → n < 32 → Completes (.counters a d n (some (x, y))) s (fun t => (dieCounter t d n).cnt = y ∧ (dieCounter t d n).sel = selWritten (dieCounter s d n).sel x ∧
      (∀ j, j ≠ n → dieCounter t d j = dieCounter s d j) ∧ t.axis.mgmt = s.axis.mgmt ++ [.counter (dieCounter t d n).sel y])) ∧
    (Accepted s a 4 [d, n] u → d ≤ 8 → n < 32 → Completes (.counters a d n none) s (Told (.counter (dieCounter s d n).sel (dieCounter s d n).cnt) u)) ∧
    (Accepted s a 5 (img.map (·.toNat)) u → imageFault u kind img = none → Completes (.firmware a img) s (fun t => t.axis.mgmt = s.axis.mgmt ++ [.firmware true] ∧ t.mem = s.mem ∧
      t.axis.staged = (if kind = 1 then some img else s.axis.staged) ∧ t.axis.stagedRuntime = (if kind = 2 then some img else s.axis.stagedRuntime))) ∧
    (∀ c, Accepted s a 5 (img.map (·.toNat)) u → imageFault u kind img = some c → Completes (.firmware a img) s (fun t => t.axis.staged = s.axis.staged ∧ t.axis.stagedRuntime = s.axis.stagedRuntime ∧
      t.axis.mgmt = s.axis.mgmt ++ [.firmware false] ∧ t.mem = s.mem)) ∧
    (Accepted s a 6 [opc.toNat, x.toNat, y.toNat] u → s.axis.stage = .ready →
      (∀ w, opc = 1 → createPart x.toNat y.toNat u = some w → Completes (.partition a opc x y) s (Told (.partition 0 y) (updPart w y.toNat (fun p => { p with announced := true })))) ∧
      (opc = 1 → createPart x.toNat y.toNat u = none → Completes (.partition a opc x y) s (Told (.partition 4 0) u)) ∧
      (∀ w, opc = 3 → bindQueue x.toNat y.toNat u = some w → Completes (.partition a opc x y) s (Told (.partition 0 0) w)) ∧
      (opc = 0 ∨ 4 < opc.toNat → Completes (.partition a opc x y) s (Told (.partition 1 0) u)) ∧
      (∀ p, (opc = 2 ∧ mayDestroy s x.toNat = true ∨ opc = 4) → partAt s x.toNat = some p → p.drain = none → copying s x.toNat = false → Completes (.partition a opc x y) s (Draining x.toNat s))) ∧
    (Accepted s a 7 [d, n] u → 8 ≤ d ∨ n < 6 ∨ 18 < n → Completes (.step a d n) s (Told (.step false) u)) ∧
    (Accepted s a 7 [d, n] u → d < 8 → 6 ≤ n → n ≤ 18 → (dieAt s d).clock.stage = none → (dieAt s d).clock.ratio ≠ n → Completes (.step a d n) s (fun t => t.axis.mgmt = s.axis.mgmt ++ [.step true] ∧
      (dieAt t d).clock.current = some { ratio := n, askers := [] } ∧ (dieAt t d).clock.stage = some (if (dieAt s d).clock.ratio < n then .raising else .relocking))) ∧
    (Accepted s a 8 [] u → Completes (.alarm a none) s (Told (.alarm (alarmBits s.axis.alarm) s.axis.alarm.locked) u)) ∧
    (Accepted s a 8 [v.toNat, if lock then 1 else 0] u → Completes (.alarm a (some (v, lock))) s (fun t => t.mem = s.mem ∧ (s.axis.alarm.locked = true → t.axis.alarm = s.axis.alarm) ∧
      (s.axis.alarm.locked = false → t.axis.alarm.locked = lock ∧ (∀ j : Fin 5, t.axis.alarm.levels[j] = v.extractLsb' (2 * j.val) 2) ∧ t.axis.alarm.tripped = s.axis.alarm.tripped)))

/-- Links, frames, memory changed from outside; and where the steps of the device complete: what `Claims.OutsideMemory`, `Claims.Flits`, `Claims.Links` and `Claims.DeviceStepsComplete` say. Each clause `Completes i s P` says that `exec i s` answers a next state t with P t, under conditions on s and the operands alone: so of flitReceive, linkRetrain, linkTrainingComplete, linkDown, fabricFrameReceive, fabricReplayTimeout, hostMemoryWrite and memoryError; of every constructor that O44 to O53 name, at the conditions in `Claims.DeviceStepsComplete`. Where the spec leaves a point open, the clauses follow the model's choice in logs 19 and 38. -/
def Obligations.LinksAndOutside : Prop := Claims.OutsideMemory ∧ Claims.Flits ∧ Claims.Links ∧ Claims.DeviceStepsComplete

/-- No bit of an encoding is dropped (R226 to R246): the word the encoder gives a well-formed instruction is read back as that instruction, with every operand at every value its row admits. -/
def Obligations.WordsReadBack : Prop := ∀ (i : Instr) (w : Word32), i.wf = true → encode i = some w → decode w = .ok i

/-- No word has two meanings and no bit of a word is ignored (R226 to R246): what the decoder reads is a well-formed instruction whose encoding is that very word. -/
def Obligations.WordsAreCanonical : Prop := ∀ (w : Word32) (i : Instr), decode w = .ok i → i.wf = true ∧ encode i = some w

/-- Words that the spec writes out bit by bit, one or more of each layout, decode to the instructions it writes beside them (R236 to R246, R250, R258, R263, R264, R267). -/
def Obligations.ListedWords : Prop :=
  decode 0x008F218B = .ok (.vaddVi 0 0 8 30 3) ∧
  decode 0x7A20820B = .ok (.vfmaVv 0 1 2 1 4) ∧
  decode 0xAA20B10B = .ok (.vclt 0 1 2 1 2) ∧
  decode 0xCAA4D28B = .ok (.vcvt 0 1 10 9 5) ∧
  decode 0xFA31008B = .ok (.pand 0 3 2 1) ∧
  decode 0x023522AB = .ok (.vldIndexed 1 3 10 5) ∧
  decode 0x1AD5822B = .ok (.vstn 0 1 13 11 4) ∧
  decode 0x6A60812B = .ok (.vsplit 6 1 2) ∧
  decode 0xCA41132B = .ok (.faccMin 1 2 2 6) ∧
  decode 0x5220805B = .ok (.mop 1 2 1 0) ∧
  decode 0x7251E2DB = .ok (.mrowOut 5 3 6 5) ∧
  decode 0xFFB207FB = .ok (.vsmine 0xFFB 4 15) ∧
  decode 0x0C30107B = .ok (.acq 3) ∧
  decode 0x00C5A57B = .ok (.ccopy 12 11 10) ∧
  decode 0x0804D2FB = .ok (.tkill 9 5) ∧
  decode 0x6CC5F57B = .ok (.bfi 13 12 11 10) ∧
  decode 0x0062B023 = .ok (.sd 0 6 5 0) ∧
  decode 0x046522AF = .ok (.amoadd 1 0 6 10 0 5) ∧
  decode 0x80229073 = .ok (.csrrw 0x802 5 0)

/-- What reset leaves where the spec gives a value (R15, R19, R24, R42, R46, R51, R114, R133, R207, R268 to R273): the ROM stage with no die released and no queue window enabled; every slot free with the CSRs at their reset values; every core with nothing allocated, held or counted; every die held, at 1.0 GHz and 350 mV; every queue
disabled and unbound; memory with nothing listed. Registers to which the spec gives no reset value are in log 2, and none of them is named here. -/
def Obligations.Reset : Prop :=
  let s := State.reset
  (s.axis.stage = .rom ∧ s.axis.dies = 0 ∧ s.axis.fail = 0 ∧ s.axis.bootLen = 0 ∧ s.axis.windows = false ∧ s.axis.alarm = { levels := #v[2, 2, 2, 1, 2], locked := false, tripped := 0 }) ∧
  (∀ key, let c := ctxAt s key; c.state = .free ∧ c.task = none ∧ c.vl = 0 ∧ c.vtype = 0 ∧ c.vstart = 0 ∧ c.vcvx = 0 ∧ c.vmt = 0 ∧ c.vpstep = 0 ∧ c.vouter = 0 ∧ c.vflags = 0 ∧ c.frm = 0 ∧ c.fflags = 0 ∧ c.pres = 0 ∧
    c.spp = false ∧ c.sscratch = 0 ∧ c.scause = 0 ∧ c.stval = 0 ∧ c.sfinfo = 0 ∧ (∀ n : Fin 8, c.mshape[n] = { fmt := 0, rows := 0, cols := 0 }) ∧ (∀ n : Fin 32, c.v[n] = Chain.empty) ∧ c.convoy = [] ∧ c.resv = none) ∧
  (∀ g, let k := coreAt s g; k.segs = [] ∧ k.lsplit = none ∧ k.resident = [] ∧ k.tlb = [] ∧ k.scored = [] ∧ k.claim = none ∧ (∀ n : Fin 16, k.counters[n].sel = 0 ∧ k.counters[n].cnt = 0)) ∧
  (∀ d : Fin 8, let x := s.dies[d]; x.released = false ∧ x.cycle = 0 ∧ x.refk = 0 ∧ x.clock.ratio = 10 ∧ x.clock.supply = 350 ∧ x.clock.stage = none ∧ x.clock.nstep = 0 ∧ x.tlb = [] ∧ x.plane = [] ∧ x.rays = [] ∧ x.barriers = [] ∧ x.log = [] ∧ x.locus.entries = [] ∧ x.locus.nextTseq = 1) ∧
  (∀ q : Fin 64, let k := s.queues[q]; k.state = .disabled ∧ k.part = none ∧ k.dbell = 0 ∧ k.slot = 0 ∧ k.acons = 0 ∧ k.hseq = 0 ∧ k.dseq = 0 ∧ k.wdog = 0 ∧ k.err = 0) ∧
  s.parts = [] ∧ s.regions = [] ∧ s.saved = [] ∧ s.engines = [] ∧ Memory.wf s.mem = true ∧ ∀ k, getByte k s.mem = unlisted

/-- Every step keeps memory in its one form: addresses rising, and no byte listed that reads as an unlisted one does. So equal memories are equal data in every state that steps lead to. -/
def Obligations.StepsKeepMemory : Prop := Keeps (fun s => Memory.wf s.mem = true)

/-- Nothing stops the machine: every word and every step of the device has a next state in every state, but for a host write to an address at which the spec gives the host port no memory (R13, R42; the stop is the model's, log 19). -/
def Obligations.NothingStops : Prop :=
  (∀ (i : Instr) (s : State), (∀ a bs, i ≠ .hostMemoryWrite a bs) → ∃ t, exec i s = .next t) ∧
  (∀ s : State, (∃ t, step s = .next t) ∨ ∃ a, step s = .fault (.hostAddress a)) ∧
  ∀ s : State, s.inputs = [] → (∀ l ∈ s.agenda, ∀ i ∈ l, ∀ a bs, i ≠ .hostMemoryWrite a bs) → (∀ x ∈ s.timers, ∀ a bs, x.event ≠ .hostMemoryWrite a bs) → ∃ t, step s = .next t

/-- A step runs the decoded instruction: where the step's turn falls to a context (which one is free, log 4), whose pc is aligned and lies in a page it may execute from, the four bytes there make a word, lowest byte first, and the step is what that instruction does, or what an illegal encoding does if the word names none. Around it: time passes before; after a word that did not stand waiting, a bound of a
fault served stops, and a debugger's single step ends; and last comes what follows every step: failures owed to a region are delivered, waits whose object has reached its target end, regions with nothing left retire, and region blocks are written. -/
def Obligations.StepRunsTheWord : Prop :=
  ∀ (s : State) (key k : Nat) (use : Option (TlbEntry × Source)),
    let f := focus (advance s) key
    chosen (advance s) = some (.context key) → ¬ (f.cur.priv = .s ∧ f.cur.pc = Config.runtimeEntry) → f.cur.pc.toNat % 4 = 0 → scalarPlace f (who f) .fetch f.cur.pc.toNat = .ok (.mem k, use) → hasError k 4 f = false →
      let w : Word32 := BitVec.ofNat 32 (natOf (seeBytes f .fetch k 4))
      (∀ i, decode w = .ok i → step s = afterStep (advance s) (afterWord w f (exec i (useScalar f.curKey use f)))) ∧
      (∀ e, decode w = .error e → step s = afterStep (advance s) (afterWord w f (exec (.illegalEncoding w) (useScalar f.curKey use f))))
end

