-- ==== Sys2Proof/Laws/Memory.lean ====
section
/-! SUPPORT. Memory: a read after a write, what a write leaves alone, and that every memory operation keeps the canonical form. -/

namespace Sys2Proof.Laws

open Machine

/-! ## The canonical form -/

theorem wfFrom_cons {lo a : Nat} {b : Byte} {t : Memory} : wfFrom lo ((a, b) :: t) = true ↔ lo ≤ a ∧ b ≠ unlisted ∧ wfFrom (a + 1) t = true := by
  simp [wfFrom, and_assoc]

theorem wfFrom_mono {lo hi : Nat} (h : lo ≤ hi) : ∀ {m : Memory}, wfFrom hi m = true → wfFrom lo m = true
  | [], _ => rfl
  | (_, _) :: _, w => by
    rw [wfFrom_cons] at *
    exact ⟨Nat.le_trans h w.1, w.2⟩

theorem getByte_below {k lo : Nat} (h : k < lo) : ∀ {m : Memory}, wfFrom lo m = true → getByte k m = unlisted
  | [], _ => rfl
  | (a, b) :: t, w => by
    rw [wfFrom_cons] at w
    simp [getByte, show a ≠ k by omega, show k < a by omega]

theorem wfFrom_setByte (k : Nat) (v : Byte) : ∀ {lo : Nat} {m : Memory}, lo ≤ k → wfFrom lo m = true → wfFrom lo (setByte k v m) = true
  | lo, [], h, _ => by
    unfold setByte
    split
    · rfl
    · rename_i hv
      exact wfFrom_cons.2 ⟨h, hv, rfl⟩
  | lo, (a, b) :: t, h, w => by
    have w' := wfFrom_cons.1 w
    unfold setByte
    split
    · rename_i e
      subst e
      split
      · exact wfFrom_mono (by omega) w'.2.2
      · rename_i hv
        exact wfFrom_cons.2 ⟨h, hv, w'.2.2⟩
    · split
      · split
        · exact w
        · rename_i hlt hv
          exact wfFrom_cons.2 ⟨h, hv, wfFrom_cons.2 ⟨by omega, w'.2⟩⟩
      · exact wfFrom_cons.2 ⟨w'.1, w'.2.1, wfFrom_setByte k v (by omega) w'.2.2⟩

theorem wf_setByte {m : Memory} (k : Nat) (v : Byte) (w : Memory.wf m = true) : Memory.wf (setByte k v m) = true := wfFrom_setByte k v (Nat.zero_le k) w

theorem wf_setBytes : ∀ (k : Nat) (bs : List Byte) {m : Memory}, Memory.wf m = true → Memory.wf (setBytes k bs m) = true
  | _, [], _, w => w
  | k, b :: t, _, w => wf_setBytes (k + 1) t (wf_setByte k b w)

theorem wfFrom_filter (p : Host.Cell → Bool) : ∀ {lo : Nat} {m : Memory}, wfFrom lo m = true → wfFrom lo (m.filter p) = true
  | _, [], _ => rfl
  | lo, (a, b) :: t, w => by
    have w' := wfFrom_cons.1 w
    have r := wfFrom_filter p w'.2.2
    rw [List.filter_cons]
    split
    · exact wfFrom_cons.2 ⟨w'.1, w'.2.1, r⟩
    · exact wfFrom_mono (by omega) r

theorem wf_filter {m : Memory} (p : Host.Cell → Bool) (w : Memory.wf m = true) : Memory.wf (m.filter p) = true := wfFrom_filter p w

theorem wf_clearBytes {m : Memory} (k n : Nat) (w : Memory.wf m = true) : Memory.wf (clearBytes k n m) = true := wf_filter _ w

/-- Memories in canonical form that read alike are the same list. -/
theorem wf_ext : ∀ {lo : Nat} {m n : Memory}, wfFrom lo m = true → wfFrom lo n = true → (∀ k, getByte k m = getByte k n) → m = n
  | _, [], [], _, _, _ => rfl
  | _, [], (a, b) :: t, _, w, h => by
    have e := h a
    simp [getByte] at e
    exact absurd e.symm (wfFrom_cons.1 w).2.1
  | _, (a, b) :: t, [], w, _, h => by
    have e := h a
    simp [getByte] at e
    exact absurd e (wfFrom_cons.1 w).2.1
  | lo, (a, b) :: t, (c, d) :: u, w, x, h => by
    have w' := wfFrom_cons.1 w
    have x' := wfFrom_cons.1 x
    have hac : a = c := by
      rcases Nat.lt_trichotomy a c with l | e | l
      · have e := h a
        simp [getByte, show c ≠ a by omega, l] at e
        exact absurd e w'.2.1
      · exact e
      · have e := h c
        simp [getByte, show a ≠ c by omega, l] at e
        exact absurd e.symm x'.2.1
    subst hac
    have hbd : b = d := by simpa [getByte] using h a
    subst hbd
    have ht : t = u := by
      refine wf_ext w'.2.2 x'.2.2 (fun k => ?_)
      by_cases hk : k ≤ a
      · rw [getByte_below (by omega) w'.2.2, getByte_below (by omega) x'.2.2]
      · have e := h k
        simpa [getByte, show a ≠ k by omega, show ¬ k < a by omega] using e
    rw [ht]

/-! ## Reads after writes -/

theorem getByte_setByte_self (k : Nat) (v : Byte) : ∀ {lo : Nat} {m : Memory}, wfFrom lo m = true → getByte k (setByte k v m) = v
  | _, [], _ => by
    unfold setByte
    split
    · rename_i h; simp [getByte, h]
    · simp [getByte]
  | _, (a, b) :: t, w => by
    have w' := wfFrom_cons.1 w
    unfold setByte
    split
    · rename_i e
      subst e
      split
      · rename_i hv
        rw [getByte_below (Nat.lt_succ_self _) w'.2.2, hv]
      · simp [getByte]
    · split
      · split
        · rename_i h1 h2 hv
          simp [getByte, h1, h2, hv]
        · simp [getByte]
      · rename_i h1 h2
        simp [getByte, h1, h2, getByte_setByte_self k v w'.2.2]

theorem getByte_setByte_ne {j k : Nat} (h : j ≠ k) (v : Byte) : ∀ {lo : Nat} {m : Memory}, wfFrom lo m = true → getByte j (setByte k v m) = getByte j m
  | _, [], _ => by
    unfold setByte
    split
    · rfl
    · simp [getByte, Ne.symm h]
  | _, (a, b) :: t, w => by
    have w' := wfFrom_cons.1 w
    unfold setByte
    split
    · rename_i e
      subst e
      split
      · by_cases hj : j < a
        · rw [getByte_below (show j < a + 1 by omega) w'.2.2]
          simp [getByte, Ne.symm h, hj]
        · simp [getByte, Ne.symm h, hj]
      · simp [getByte, Ne.symm h]
    · split
      · split
        · rfl
        · rename_i h1 h2 hv
          by_cases hj : j < k
          · simp [getByte, Ne.symm h, hj, show a ≠ j by omega, show j < a by omega]
          · simp [getByte, Ne.symm h, hj]
      · simp only [getByte]
        rw [getByte_setByte_ne h v w'.2.2]

theorem getByte_setBytes_outside {j : Nat} : ∀ {k : Nat} (bs : List Byte) {m : Memory}, Memory.wf m = true → j < k ∨ k + bs.length ≤ j →
    getByte j (setBytes k bs m) = getByte j m
  | _, [], _, _, _ => rfl
  | k, b :: t, m, w, h => by
    simp only [List.length_cons] at h
    rw [setBytes, getByte_setBytes_outside t (wf_setByte k b w) (by omega), getByte_setByte_ne (by omega) b w]

theorem getBytes_setBytes : ∀ (k : Nat) (bs : List Byte) {m : Memory}, Memory.wf m = true → getBytes k bs.length (setBytes k bs m) = bs
  | _, [], _, _ => rfl
  | k, b :: t, m, w => by
    simp only [List.length_cons, getBytes, setBytes]
    rw [getBytes_setBytes (k + 1) t (wf_setByte k b w), getByte_setBytes_outside t (wf_setByte k b w) (Or.inl (Nat.lt_succ_self k)), getByte_setByte_self k b w]

theorem getByte_clearBytes (j k n : Nat) : ∀ {lo : Nat} {m : Memory}, wfFrom lo m = true →
    getByte j (clearBytes k n m) = if k ≤ j ∧ j < k + n then unlisted else getByte j m
  | _, [], _ => by simp [clearBytes, getByte]
  | lo, (a, b) :: t, w => by
    have w' := wfFrom_cons.1 w
    have r := getByte_clearBytes j k n w'.2.2
    have f := wfFrom_filter (fun c => c.1 < k || k + n ≤ c.1) w'.2.2
    unfold clearBytes at *
    rw [List.filter_cons]
    by_cases hj : j ≤ a
    · have below := getByte_below (show j < a + 1 by omega) f
      split
      · rename_i ha
        simp only [decide_eq_true_eq, Bool.or_eq_true] at ha
        by_cases e : a = j
        · subst e; simp [getByte, show ¬ (k ≤ a ∧ a < k + n) by omega]
        · simp [getByte, e, show j < a by omega]
      · rename_i ha
        simp only [decide_eq_true_eq, Bool.or_eq_true, not_or] at ha
        rw [below]
        by_cases e : a = j
        · subst e; simp [show k ≤ a ∧ a < k + n by omega]
        · simp [getByte, e, show j < a by omega]
    · have skip : getByte j ((a, b) :: t) = getByte j t := by simp [getByte, show a ≠ j by omega, show ¬ j < a by omega]
      split
      · simp only [getByte, show a ≠ j by omega, show ¬ j < a by omega, if_false]
        exact r
      · rw [r, skip]

end Sys2Proof.Laws
end

