-- ==== Sys2Proof/Laws/State.lean ====
section
/-! SUPPORT. What each named update of the state leaves alone, one lemma per field, and what it changes, so that no proof unfolds a
record update. -/

namespace Sys2Proof.Laws

open Machine

/-! ## Lists by key -/

@[simp] theorem lookupKey_insertKey_self {α : Type} (k : Nat) (v : α) (l : List (Nat × α)) : lookupKey k (insertKey k v l) = some v := by
  induction l with
  | nil => simp [insertKey, lookupKey]
  | cons x t ih =>
    unfold insertKey
    split
    · simp [lookupKey]
    · split
      · simp [lookupKey]
      · rename_i h1 h2
        simp [lookupKey, h1, h2, ih]

theorem lookupKey_insertKey_ne {α : Type} {j k : Nat} (h : j ≠ k) (v : α) (l : List (Nat × α)) :
    lookupKey j (insertKey k v l) = lookupKey j l := by
  induction l with
  | nil => simp [insertKey, lookupKey, Ne.symm h]
  | cons x t ih =>
    unfold insertKey
    split
    · rename_i h1
      have : k ≠ j := Ne.symm h
      simp [lookupKey, h1, this]
    · split
      · rename_i h1 h2
        by_cases hj : j < k
        · simp [lookupKey, Ne.symm h, hj, show x.1 ≠ j by omega, show j < x.1 by omega]
        · simp [lookupKey, Ne.symm h, hj]
      · simp only [lookupKey]; rw [ih]

/-! ## Contexts, cores, dies, queues -/

@[simp] theorem coreAt_updCore_self (s : State) (g : Nat) (f : Core → Core) : coreAt (updCore s g f) g = f (coreAt s g) := by
  simp [coreAt, updCore, setCore]

theorem coreAt_updCore_ne (s : State) {g h : Nat} (ne : h ≠ g) (f : Core → Core) : coreAt (updCore s g f) h = coreAt s h := by
  simp [coreAt, updCore, setCore, lookupKey_insertKey_ne ne]

@[simp] theorem ctxAt_curKey (s : State) : ctxAt s s.curKey = s.cur := by simp [ctxAt]

theorem dieAt_setDie_self (s : State) (d : Nat) (x : Die) : dieAt (setDie s d x) d = x := by
  unfold dieAt setDie; split <;> simp_all

theorem dieAt_setDie_ne (s : State) {d e : Nat} (x : Die) (h : e ≠ d) (h8 : e < 8 ∨ d < 8) : dieAt (setDie s d x) e = dieAt s e := by
  unfold dieAt setDie
  by_cases hd : d < 8
  · rw [dif_pos hd]
    by_cases he : e < 8
    · rw [dif_pos he, dif_pos he]; exact Vector.getElem_set_ne hd he (Ne.symm h)
    · rw [dif_neg he, dif_neg he]
  · have he : e < 8 := by omega
    rw [dif_neg hd, dif_pos he, dif_pos he]

@[simp] theorem dieAt_updDie_self (s : State) (d : Nat) (f : Die → Die) : dieAt (updDie s d f) d = f (dieAt s d) := dieAt_setDie_self ..

theorem dieAt_updDie_ne (s : State) {d e : Nat} (f : Die → Die) (h : e ≠ d) (h8 : e < 8 ∨ d < 8) : dieAt (updDie s d f) e = dieAt s e := dieAt_setDie_ne s _ h h8

theorem queueAt_setQueue_self (s : State) {q : Nat} (x : Queue) (h : q < 64) : queueAt (setQueue s q x) q = x := by
  simp [queueAt, setQueue, h]

theorem queueAt_setQueue_ne (s : State) {q r : Nat} (x : Queue) (h : r ≠ q) : queueAt (setQueue s q x) r = queueAt s r := by
  unfold queueAt setQueue
  by_cases hq : q < 64
  · rw [dif_pos hq]
    by_cases hr : r < 64
    · rw [dif_pos hr, dif_pos hr]; exact Vector.getElem_set_ne hq hr (Ne.symm h)
    · rw [dif_neg hr, dif_neg hr]
  · rw [dif_neg hq]

theorem queueAt_updQueue_self (s : State) {q : Nat} (f : Queue → Queue) (h : q < 64) : queueAt (updQueue s q f) q = f (queueAt s q) :=
  queueAt_setQueue_self s _ h

theorem queueAt_updQueue_ne (s : State) {q r : Nat} (f : Queue → Queue) (h : r ≠ q) : queueAt (updQueue s q f) r = queueAt s r :=
  queueAt_setQueue_ne s _ h

/-! ## Registers -/

@[simp] theorem getX_setX_self (r : BitVec 5) (v : Word) (c : Ctx) : getX (setX r v c) r = if r = 0 then 0 else v := by
  unfold getX setX; split <;> simp

theorem getX_setX_ne {q r : BitVec 5} (h : q ≠ r) (v : Word) (c : Ctx) : getX (setX r v c) q = getX c q := by
  unfold getX setX
  by_cases hr : r = 0
  · simp [hr]
  · by_cases hq : q = 0
    · simp [hq]
    · have ne : r.toNat ≠ q.toNat := fun e => h (BitVec.eq_of_toNat_eq e.symm)
      rw [if_neg hr, if_neg hq, if_neg hq]
      exact Vector.getElem_set_ne r.isLt q.isLt ne

@[simp] theorem rx_zero (s : State) : rx s 0 = 0 := by simp [rx, getX]

theorem setX_frame (r : BitVec 5) (v : Word) (c : Ctx) : setX r v c = { c with x := (setX r v c).x } := by
  unfold setX; split <;> rfl

@[simp] theorem wx_cur (r : BitVec 5) (v : Word) (s : State) : (wx r v s).cur = setX r v s.cur := rfl

@[simp] theorem next4_cur (s : State) : (next4 s).cur = { s.cur with pc := s.cur.pc + 4 } := by
  have h : (countEvent 0x002 1 s.curKey s).cur = s.cur := by unfold countEvent; dsimp only; split <;> rfl
  simp [next4, h]

@[simp] theorem jumpTo_cur (a : Word) (s : State) : (jumpTo a s).cur = { s.cur with pc := a } := by
  have h : (countEvent 0x002 1 s.curKey s).cur = s.cur := by unfold countEvent; dsimp only; split <;> rfl
  simp [jumpTo, h]

/-! ## `wx` -/

@[simp] theorem wx_curKey (r : BitVec 5) (v : Word) (s : State) : (wx r v s).curKey = s.curKey := rfl
@[simp] theorem wx_parked (r : BitVec 5) (v : Word) (s : State) : (wx r v s).parked = s.parked := rfl
@[simp] theorem wx_cores (r : BitVec 5) (v : Word) (s : State) : (wx r v s).cores = s.cores := rfl
@[simp] theorem wx_dies (r : BitVec 5) (v : Word) (s : State) : (wx r v s).dies = s.dies := rfl
@[simp] theorem wx_hub (r : BitVec 5) (v : Word) (s : State) : (wx r v s).hub = s.hub := rfl
@[simp] theorem wx_mem (r : BitVec 5) (v : Word) (s : State) : (wx r v s).mem = s.mem := rfl
@[simp] theorem wx_queues (r : BitVec 5) (v : Word) (s : State) : (wx r v s).queues = s.queues := rfl
@[simp] theorem wx_parts (r : BitVec 5) (v : Word) (s : State) : (wx r v s).parts = s.parts := rfl
@[simp] theorem wx_regions (r : BitVec 5) (v : Word) (s : State) : (wx r v s).regions = s.regions := rfl
@[simp] theorem wx_saved (r : BitVec 5) (v : Word) (s : State) : (wx r v s).saved = s.saved := rfl
@[simp] theorem wx_gangs (r : BitVec 5) (v : Word) (s : State) : (wx r v s).gangs = s.gangs := rfl
@[simp] theorem wx_engines (r : BitVec 5) (v : Word) (s : State) : (wx r v s).engines = s.engines := rfl
@[simp] theorem wx_pending (r : BitVec 5) (v : Word) (s : State) : (wx r v s).pending = s.pending := rfl
@[simp] theorem wx_tokens (r : BitVec 5) (v : Word) (s : State) : (wx r v s).tokens = s.tokens := rfl
@[simp] theorem wx_invals (r : BitVec 5) (v : Word) (s : State) : (wx r v s).invals = s.invals := rfl
@[simp] theorem wx_fetches (r : BitVec 5) (v : Word) (s : State) : (wx r v s).fetches = s.fetches := rfl
@[simp] theorem wx_checkpoints (r : BitVec 5) (v : Word) (s : State) : (wx r v s).checkpoints = s.checkpoints := rfl
@[simp] theorem wx_waitingDrains (r : BitVec 5) (v : Word) (s : State) : (wx r v s).waitingDrains = s.waitingDrains := rfl
@[simp] theorem wx_axis (r : BitVec 5) (v : Word) (s : State) : (wx r v s).axis = s.axis := rfl
@[simp] theorem wx_fabric (r : BitVec 5) (v : Word) (s : State) : (wx r v s).fabric = s.fabric := rfl
@[simp] theorem wx_badCells (r : BitVec 5) (v : Word) (s : State) : (wx r v s).badCells = s.badCells := rfl
@[simp] theorem wx_owed (r : BitVec 5) (v : Word) (s : State) : (wx r v s).owed = s.owed := rfl
@[simp] theorem wx_nextId (r : BitVec 5) (v : Word) (s : State) : (wx r v s).nextId = s.nextId := rfl
@[simp] theorem wx_agenda (r : BitVec 5) (v : Word) (s : State) : (wx r v s).agenda = s.agenda := rfl
@[simp] theorem wx_timers (r : BitVec 5) (v : Word) (s : State) : (wx r v s).timers = s.timers := rfl
@[simp] theorem wx_inputs (r : BitVec 5) (v : Word) (s : State) : (wx r v s).inputs = s.inputs := rfl
@[simp] theorem wx_nonce (r : BitVec 5) (v : Word) (s : State) : (wx r v s).nonce = s.nonce := rfl
@[simp] theorem wx_wall (r : BitVec 5) (v : Word) (s : State) : (wx r v s).wall = s.wall := rfl

/-! ## `setCore` -/

@[simp] theorem setCore_cur (s : State) (g : Nat) (c : Core) : (setCore s g c).cur = s.cur := rfl
@[simp] theorem setCore_curKey (s : State) (g : Nat) (c : Core) : (setCore s g c).curKey = s.curKey := rfl
@[simp] theorem setCore_parked (s : State) (g : Nat) (c : Core) : (setCore s g c).parked = s.parked := rfl
@[simp] theorem setCore_dies (s : State) (g : Nat) (c : Core) : (setCore s g c).dies = s.dies := rfl
@[simp] theorem setCore_hub (s : State) (g : Nat) (c : Core) : (setCore s g c).hub = s.hub := rfl
@[simp] theorem setCore_mem (s : State) (g : Nat) (c : Core) : (setCore s g c).mem = s.mem := rfl
@[simp] theorem setCore_queues (s : State) (g : Nat) (c : Core) : (setCore s g c).queues = s.queues := rfl
@[simp] theorem setCore_parts (s : State) (g : Nat) (c : Core) : (setCore s g c).parts = s.parts := rfl
@[simp] theorem setCore_regions (s : State) (g : Nat) (c : Core) : (setCore s g c).regions = s.regions := rfl
@[simp] theorem setCore_saved (s : State) (g : Nat) (c : Core) : (setCore s g c).saved = s.saved := rfl
@[simp] theorem setCore_gangs (s : State) (g : Nat) (c : Core) : (setCore s g c).gangs = s.gangs := rfl
@[simp] theorem setCore_engines (s : State) (g : Nat) (c : Core) : (setCore s g c).engines = s.engines := rfl
@[simp] theorem setCore_pending (s : State) (g : Nat) (c : Core) : (setCore s g c).pending = s.pending := rfl
@[simp] theorem setCore_tokens (s : State) (g : Nat) (c : Core) : (setCore s g c).tokens = s.tokens := rfl
@[simp] theorem setCore_invals (s : State) (g : Nat) (c : Core) : (setCore s g c).invals = s.invals := rfl
@[simp] theorem setCore_fetches (s : State) (g : Nat) (c : Core) : (setCore s g c).fetches = s.fetches := rfl
@[simp] theorem setCore_checkpoints (s : State) (g : Nat) (c : Core) : (setCore s g c).checkpoints = s.checkpoints := rfl
@[simp] theorem setCore_waitingDrains (s : State) (g : Nat) (c : Core) : (setCore s g c).waitingDrains = s.waitingDrains := rfl
@[simp] theorem setCore_axis (s : State) (g : Nat) (c : Core) : (setCore s g c).axis = s.axis := rfl
@[simp] theorem setCore_fabric (s : State) (g : Nat) (c : Core) : (setCore s g c).fabric = s.fabric := rfl
@[simp] theorem setCore_badCells (s : State) (g : Nat) (c : Core) : (setCore s g c).badCells = s.badCells := rfl
@[simp] theorem setCore_owed (s : State) (g : Nat) (c : Core) : (setCore s g c).owed = s.owed := rfl
@[simp] theorem setCore_nextId (s : State) (g : Nat) (c : Core) : (setCore s g c).nextId = s.nextId := rfl
@[simp] theorem setCore_agenda (s : State) (g : Nat) (c : Core) : (setCore s g c).agenda = s.agenda := rfl
@[simp] theorem setCore_timers (s : State) (g : Nat) (c : Core) : (setCore s g c).timers = s.timers := rfl
@[simp] theorem setCore_inputs (s : State) (g : Nat) (c : Core) : (setCore s g c).inputs = s.inputs := rfl
@[simp] theorem setCore_nonce (s : State) (g : Nat) (c : Core) : (setCore s g c).nonce = s.nonce := rfl
@[simp] theorem setCore_wall (s : State) (g : Nat) (c : Core) : (setCore s g c).wall = s.wall := rfl

/-! ## `updCore` -/

@[simp] theorem updCore_cur (s : State) (g : Nat) (f : Core → Core) : (updCore s g f).cur = s.cur := rfl
@[simp] theorem updCore_curKey (s : State) (g : Nat) (f : Core → Core) : (updCore s g f).curKey = s.curKey := rfl
@[simp] theorem updCore_parked (s : State) (g : Nat) (f : Core → Core) : (updCore s g f).parked = s.parked := rfl
@[simp] theorem updCore_dies (s : State) (g : Nat) (f : Core → Core) : (updCore s g f).dies = s.dies := rfl
@[simp] theorem updCore_hub (s : State) (g : Nat) (f : Core → Core) : (updCore s g f).hub = s.hub := rfl
@[simp] theorem updCore_mem (s : State) (g : Nat) (f : Core → Core) : (updCore s g f).mem = s.mem := rfl
@[simp] theorem updCore_queues (s : State) (g : Nat) (f : Core → Core) : (updCore s g f).queues = s.queues := rfl
@[simp] theorem updCore_parts (s : State) (g : Nat) (f : Core → Core) : (updCore s g f).parts = s.parts := rfl
@[simp] theorem updCore_regions (s : State) (g : Nat) (f : Core → Core) : (updCore s g f).regions = s.regions := rfl
@[simp] theorem updCore_saved (s : State) (g : Nat) (f : Core → Core) : (updCore s g f).saved = s.saved := rfl
@[simp] theorem updCore_gangs (s : State) (g : Nat) (f : Core → Core) : (updCore s g f).gangs = s.gangs := rfl
@[simp] theorem updCore_engines (s : State) (g : Nat) (f : Core → Core) : (updCore s g f).engines = s.engines := rfl
@[simp] theorem updCore_pending (s : State) (g : Nat) (f : Core → Core) : (updCore s g f).pending = s.pending := rfl
@[simp] theorem updCore_tokens (s : State) (g : Nat) (f : Core → Core) : (updCore s g f).tokens = s.tokens := rfl
@[simp] theorem updCore_invals (s : State) (g : Nat) (f : Core → Core) : (updCore s g f).invals = s.invals := rfl
@[simp] theorem updCore_fetches (s : State) (g : Nat) (f : Core → Core) : (updCore s g f).fetches = s.fetches := rfl
@[simp] theorem updCore_checkpoints (s : State) (g : Nat) (f : Core → Core) : (updCore s g f).checkpoints = s.checkpoints := rfl
@[simp] theorem updCore_waitingDrains (s : State) (g : Nat) (f : Core → Core) : (updCore s g f).waitingDrains = s.waitingDrains := rfl
@[simp] theorem updCore_axis (s : State) (g : Nat) (f : Core → Core) : (updCore s g f).axis = s.axis := rfl
@[simp] theorem updCore_fabric (s : State) (g : Nat) (f : Core → Core) : (updCore s g f).fabric = s.fabric := rfl
@[simp] theorem updCore_badCells (s : State) (g : Nat) (f : Core → Core) : (updCore s g f).badCells = s.badCells := rfl
@[simp] theorem updCore_owed (s : State) (g : Nat) (f : Core → Core) : (updCore s g f).owed = s.owed := rfl
@[simp] theorem updCore_nextId (s : State) (g : Nat) (f : Core → Core) : (updCore s g f).nextId = s.nextId := rfl
@[simp] theorem updCore_agenda (s : State) (g : Nat) (f : Core → Core) : (updCore s g f).agenda = s.agenda := rfl
@[simp] theorem updCore_timers (s : State) (g : Nat) (f : Core → Core) : (updCore s g f).timers = s.timers := rfl
@[simp] theorem updCore_inputs (s : State) (g : Nat) (f : Core → Core) : (updCore s g f).inputs = s.inputs := rfl
@[simp] theorem updCore_nonce (s : State) (g : Nat) (f : Core → Core) : (updCore s g f).nonce = s.nonce := rfl
@[simp] theorem updCore_wall (s : State) (g : Nat) (f : Core → Core) : (updCore s g f).wall = s.wall := rfl

/-! ## `countEvent` -/

@[simp] theorem countEvent_cur (code n key : Nat) (s : State) : (countEvent code n key s).cur = s.cur := by unfold countEvent; dsimp only; split <;> rfl
@[simp] theorem countEvent_curKey (code n key : Nat) (s : State) : (countEvent code n key s).curKey = s.curKey := by unfold countEvent; dsimp only; split <;> rfl
@[simp] theorem countEvent_parked (code n key : Nat) (s : State) : (countEvent code n key s).parked = s.parked := by unfold countEvent; dsimp only; split <;> rfl
@[simp] theorem countEvent_dies (code n key : Nat) (s : State) : (countEvent code n key s).dies = s.dies := by unfold countEvent; dsimp only; split <;> rfl
@[simp] theorem countEvent_hub (code n key : Nat) (s : State) : (countEvent code n key s).hub = s.hub := by unfold countEvent; dsimp only; split <;> rfl
@[simp] theorem countEvent_mem (code n key : Nat) (s : State) : (countEvent code n key s).mem = s.mem := by unfold countEvent; dsimp only; split <;> rfl
@[simp] theorem countEvent_queues (code n key : Nat) (s : State) : (countEvent code n key s).queues = s.queues := by unfold countEvent; dsimp only; split <;> rfl
@[simp] theorem countEvent_parts (code n key : Nat) (s : State) : (countEvent code n key s).parts = s.parts := by unfold countEvent; dsimp only; split <;> rfl
@[simp] theorem countEvent_regions (code n key : Nat) (s : State) : (countEvent code n key s).regions = s.regions := by unfold countEvent; dsimp only; split <;> rfl
@[simp] theorem countEvent_saved (code n key : Nat) (s : State) : (countEvent code n key s).saved = s.saved := by unfold countEvent; dsimp only; split <;> rfl
@[simp] theorem countEvent_gangs (code n key : Nat) (s : State) : (countEvent code n key s).gangs = s.gangs := by unfold countEvent; dsimp only; split <;> rfl
@[simp] theorem countEvent_engines (code n key : Nat) (s : State) : (countEvent code n key s).engines = s.engines := by unfold countEvent; dsimp only; split <;> rfl
@[simp] theorem countEvent_pending (code n key : Nat) (s : State) : (countEvent code n key s).pending = s.pending := by unfold countEvent; dsimp only; split <;> rfl
@[simp] theorem countEvent_tokens (code n key : Nat) (s : State) : (countEvent code n key s).tokens = s.tokens := by unfold countEvent; dsimp only; split <;> rfl
@[simp] theorem countEvent_invals (code n key : Nat) (s : State) : (countEvent code n key s).invals = s.invals := by unfold countEvent; dsimp only; split <;> rfl
@[simp] theorem countEvent_fetches (code n key : Nat) (s : State) : (countEvent code n key s).fetches = s.fetches := by unfold countEvent; dsimp only; split <;> rfl
@[simp] theorem countEvent_checkpoints (code n key : Nat) (s : State) : (countEvent code n key s).checkpoints = s.checkpoints := by unfold countEvent; dsimp only; split <;> rfl
@[simp] theorem countEvent_waitingDrains (code n key : Nat) (s : State) : (countEvent code n key s).waitingDrains = s.waitingDrains := by unfold countEvent; dsimp only; split <;> rfl
@[simp] theorem countEvent_axis (code n key : Nat) (s : State) : (countEvent code n key s).axis = s.axis := by unfold countEvent; dsimp only; split <;> rfl
@[simp] theorem countEvent_fabric (code n key : Nat) (s : State) : (countEvent code n key s).fabric = s.fabric := by unfold countEvent; dsimp only; split <;> rfl
@[simp] theorem countEvent_badCells (code n key : Nat) (s : State) : (countEvent code n key s).badCells = s.badCells := by unfold countEvent; dsimp only; split <;> rfl
@[simp] theorem countEvent_owed (code n key : Nat) (s : State) : (countEvent code n key s).owed = s.owed := by unfold countEvent; dsimp only; split <;> rfl
@[simp] theorem countEvent_nextId (code n key : Nat) (s : State) : (countEvent code n key s).nextId = s.nextId := by unfold countEvent; dsimp only; split <;> rfl
@[simp] theorem countEvent_agenda (code n key : Nat) (s : State) : (countEvent code n key s).agenda = s.agenda := by unfold countEvent; dsimp only; split <;> rfl
@[simp] theorem countEvent_timers (code n key : Nat) (s : State) : (countEvent code n key s).timers = s.timers := by unfold countEvent; dsimp only; split <;> rfl
@[simp] theorem countEvent_inputs (code n key : Nat) (s : State) : (countEvent code n key s).inputs = s.inputs := by unfold countEvent; dsimp only; split <;> rfl
@[simp] theorem countEvent_nonce (code n key : Nat) (s : State) : (countEvent code n key s).nonce = s.nonce := by unfold countEvent; dsimp only; split <;> rfl
@[simp] theorem countEvent_wall (code n key : Nat) (s : State) : (countEvent code n key s).wall = s.wall := by unfold countEvent; dsimp only; split <;> rfl

/-! ## `next4` -/

@[simp] theorem next4_curKey (s : State) : (next4 s).curKey = s.curKey := by simp [next4]
@[simp] theorem next4_parked (s : State) : (next4 s).parked = s.parked := by simp [next4]
@[simp] theorem next4_dies (s : State) : (next4 s).dies = s.dies := by simp [next4]
@[simp] theorem next4_hub (s : State) : (next4 s).hub = s.hub := by simp [next4]
@[simp] theorem next4_mem (s : State) : (next4 s).mem = s.mem := by simp [next4]
@[simp] theorem next4_queues (s : State) : (next4 s).queues = s.queues := by simp [next4]
@[simp] theorem next4_parts (s : State) : (next4 s).parts = s.parts := by simp [next4]
@[simp] theorem next4_regions (s : State) : (next4 s).regions = s.regions := by simp [next4]
@[simp] theorem next4_saved (s : State) : (next4 s).saved = s.saved := by simp [next4]
@[simp] theorem next4_gangs (s : State) : (next4 s).gangs = s.gangs := by simp [next4]
@[simp] theorem next4_engines (s : State) : (next4 s).engines = s.engines := by simp [next4]
@[simp] theorem next4_pending (s : State) : (next4 s).pending = s.pending := by simp [next4]
@[simp] theorem next4_tokens (s : State) : (next4 s).tokens = s.tokens := by simp [next4]
@[simp] theorem next4_invals (s : State) : (next4 s).invals = s.invals := by simp [next4]
@[simp] theorem next4_fetches (s : State) : (next4 s).fetches = s.fetches := by simp [next4]
@[simp] theorem next4_checkpoints (s : State) : (next4 s).checkpoints = s.checkpoints := by simp [next4]
@[simp] theorem next4_waitingDrains (s : State) : (next4 s).waitingDrains = s.waitingDrains := by simp [next4]
@[simp] theorem next4_axis (s : State) : (next4 s).axis = s.axis := by simp [next4]
@[simp] theorem next4_fabric (s : State) : (next4 s).fabric = s.fabric := by simp [next4]
@[simp] theorem next4_badCells (s : State) : (next4 s).badCells = s.badCells := by simp [next4]
@[simp] theorem next4_owed (s : State) : (next4 s).owed = s.owed := by simp [next4]
@[simp] theorem next4_nextId (s : State) : (next4 s).nextId = s.nextId := by simp [next4]
@[simp] theorem next4_agenda (s : State) : (next4 s).agenda = s.agenda := by simp [next4]
@[simp] theorem next4_timers (s : State) : (next4 s).timers = s.timers := by simp [next4]
@[simp] theorem next4_inputs (s : State) : (next4 s).inputs = s.inputs := by simp [next4]
@[simp] theorem next4_nonce (s : State) : (next4 s).nonce = s.nonce := by simp [next4]
@[simp] theorem next4_wall (s : State) : (next4 s).wall = s.wall := by simp [next4]

/-! ## `jumpTo` -/

@[simp] theorem jumpTo_curKey (a : Word) (s : State) : (jumpTo a s).curKey = s.curKey := by simp [jumpTo]
@[simp] theorem jumpTo_parked (a : Word) (s : State) : (jumpTo a s).parked = s.parked := by simp [jumpTo]
@[simp] theorem jumpTo_dies (a : Word) (s : State) : (jumpTo a s).dies = s.dies := by simp [jumpTo]
@[simp] theorem jumpTo_hub (a : Word) (s : State) : (jumpTo a s).hub = s.hub := by simp [jumpTo]
@[simp] theorem jumpTo_mem (a : Word) (s : State) : (jumpTo a s).mem = s.mem := by simp [jumpTo]
@[simp] theorem jumpTo_queues (a : Word) (s : State) : (jumpTo a s).queues = s.queues := by simp [jumpTo]
@[simp] theorem jumpTo_parts (a : Word) (s : State) : (jumpTo a s).parts = s.parts := by simp [jumpTo]
@[simp] theorem jumpTo_regions (a : Word) (s : State) : (jumpTo a s).regions = s.regions := by simp [jumpTo]
@[simp] theorem jumpTo_saved (a : Word) (s : State) : (jumpTo a s).saved = s.saved := by simp [jumpTo]
@[simp] theorem jumpTo_gangs (a : Word) (s : State) : (jumpTo a s).gangs = s.gangs := by simp [jumpTo]
@[simp] theorem jumpTo_engines (a : Word) (s : State) : (jumpTo a s).engines = s.engines := by simp [jumpTo]
@[simp] theorem jumpTo_pending (a : Word) (s : State) : (jumpTo a s).pending = s.pending := by simp [jumpTo]
@[simp] theorem jumpTo_tokens (a : Word) (s : State) : (jumpTo a s).tokens = s.tokens := by simp [jumpTo]
@[simp] theorem jumpTo_invals (a : Word) (s : State) : (jumpTo a s).invals = s.invals := by simp [jumpTo]
@[simp] theorem jumpTo_fetches (a : Word) (s : State) : (jumpTo a s).fetches = s.fetches := by simp [jumpTo]
@[simp] theorem jumpTo_checkpoints (a : Word) (s : State) : (jumpTo a s).checkpoints = s.checkpoints := by simp [jumpTo]
@[simp] theorem jumpTo_waitingDrains (a : Word) (s : State) : (jumpTo a s).waitingDrains = s.waitingDrains := by simp [jumpTo]
@[simp] theorem jumpTo_axis (a : Word) (s : State) : (jumpTo a s).axis = s.axis := by simp [jumpTo]
@[simp] theorem jumpTo_fabric (a : Word) (s : State) : (jumpTo a s).fabric = s.fabric := by simp [jumpTo]
@[simp] theorem jumpTo_badCells (a : Word) (s : State) : (jumpTo a s).badCells = s.badCells := by simp [jumpTo]
@[simp] theorem jumpTo_owed (a : Word) (s : State) : (jumpTo a s).owed = s.owed := by simp [jumpTo]
@[simp] theorem jumpTo_nextId (a : Word) (s : State) : (jumpTo a s).nextId = s.nextId := by simp [jumpTo]
@[simp] theorem jumpTo_agenda (a : Word) (s : State) : (jumpTo a s).agenda = s.agenda := by simp [jumpTo]
@[simp] theorem jumpTo_timers (a : Word) (s : State) : (jumpTo a s).timers = s.timers := by simp [jumpTo]
@[simp] theorem jumpTo_inputs (a : Word) (s : State) : (jumpTo a s).inputs = s.inputs := by simp [jumpTo]
@[simp] theorem jumpTo_nonce (a : Word) (s : State) : (jumpTo a s).nonce = s.nonce := by simp [jumpTo]
@[simp] theorem jumpTo_wall (a : Word) (s : State) : (jumpTo a s).wall = s.wall := by simp [jumpTo]

/-! ## `updPart` -/

@[simp] theorem updPart_cur (s : State) (i : Nat) (f : Part → Part) : (updPart s i f).cur = s.cur := rfl
@[simp] theorem updPart_curKey (s : State) (i : Nat) (f : Part → Part) : (updPart s i f).curKey = s.curKey := rfl
@[simp] theorem updPart_parked (s : State) (i : Nat) (f : Part → Part) : (updPart s i f).parked = s.parked := rfl
@[simp] theorem updPart_cores (s : State) (i : Nat) (f : Part → Part) : (updPart s i f).cores = s.cores := rfl
@[simp] theorem updPart_dies (s : State) (i : Nat) (f : Part → Part) : (updPart s i f).dies = s.dies := rfl
@[simp] theorem updPart_hub (s : State) (i : Nat) (f : Part → Part) : (updPart s i f).hub = s.hub := rfl
@[simp] theorem updPart_mem (s : State) (i : Nat) (f : Part → Part) : (updPart s i f).mem = s.mem := rfl
@[simp] theorem updPart_queues (s : State) (i : Nat) (f : Part → Part) : (updPart s i f).queues = s.queues := rfl
@[simp] theorem updPart_regions (s : State) (i : Nat) (f : Part → Part) : (updPart s i f).regions = s.regions := rfl
@[simp] theorem updPart_saved (s : State) (i : Nat) (f : Part → Part) : (updPart s i f).saved = s.saved := rfl
@[simp] theorem updPart_gangs (s : State) (i : Nat) (f : Part → Part) : (updPart s i f).gangs = s.gangs := rfl
@[simp] theorem updPart_engines (s : State) (i : Nat) (f : Part → Part) : (updPart s i f).engines = s.engines := rfl
@[simp] theorem updPart_pending (s : State) (i : Nat) (f : Part → Part) : (updPart s i f).pending = s.pending := rfl
@[simp] theorem updPart_tokens (s : State) (i : Nat) (f : Part → Part) : (updPart s i f).tokens = s.tokens := rfl
@[simp] theorem updPart_invals (s : State) (i : Nat) (f : Part → Part) : (updPart s i f).invals = s.invals := rfl
@[simp] theorem updPart_fetches (s : State) (i : Nat) (f : Part → Part) : (updPart s i f).fetches = s.fetches := rfl
@[simp] theorem updPart_checkpoints (s : State) (i : Nat) (f : Part → Part) : (updPart s i f).checkpoints = s.checkpoints := rfl
@[simp] theorem updPart_waitingDrains (s : State) (i : Nat) (f : Part → Part) : (updPart s i f).waitingDrains = s.waitingDrains := rfl
@[simp] theorem updPart_axis (s : State) (i : Nat) (f : Part → Part) : (updPart s i f).axis = s.axis := rfl
@[simp] theorem updPart_fabric (s : State) (i : Nat) (f : Part → Part) : (updPart s i f).fabric = s.fabric := rfl
@[simp] theorem updPart_badCells (s : State) (i : Nat) (f : Part → Part) : (updPart s i f).badCells = s.badCells := rfl
@[simp] theorem updPart_owed (s : State) (i : Nat) (f : Part → Part) : (updPart s i f).owed = s.owed := rfl
@[simp] theorem updPart_nextId (s : State) (i : Nat) (f : Part → Part) : (updPart s i f).nextId = s.nextId := rfl
@[simp] theorem updPart_agenda (s : State) (i : Nat) (f : Part → Part) : (updPart s i f).agenda = s.agenda := rfl
@[simp] theorem updPart_timers (s : State) (i : Nat) (f : Part → Part) : (updPart s i f).timers = s.timers := rfl
@[simp] theorem updPart_inputs (s : State) (i : Nat) (f : Part → Part) : (updPart s i f).inputs = s.inputs := rfl
@[simp] theorem updPart_nonce (s : State) (i : Nat) (f : Part → Part) : (updPart s i f).nonce = s.nonce := rfl
@[simp] theorem updPart_wall (s : State) (i : Nat) (f : Part → Part) : (updPart s i f).wall = s.wall := rfl

/-! ## `updRegion` -/

@[simp] theorem updRegion_cur (s : State) (p i : Nat) (f : Region → Region) : (updRegion s p i f).cur = s.cur := rfl
@[simp] theorem updRegion_curKey (s : State) (p i : Nat) (f : Region → Region) : (updRegion s p i f).curKey = s.curKey := rfl
@[simp] theorem updRegion_parked (s : State) (p i : Nat) (f : Region → Region) : (updRegion s p i f).parked = s.parked := rfl
@[simp] theorem updRegion_cores (s : State) (p i : Nat) (f : Region → Region) : (updRegion s p i f).cores = s.cores := rfl
@[simp] theorem updRegion_dies (s : State) (p i : Nat) (f : Region → Region) : (updRegion s p i f).dies = s.dies := rfl
@[simp] theorem updRegion_hub (s : State) (p i : Nat) (f : Region → Region) : (updRegion s p i f).hub = s.hub := rfl
@[simp] theorem updRegion_mem (s : State) (p i : Nat) (f : Region → Region) : (updRegion s p i f).mem = s.mem := rfl
@[simp] theorem updRegion_queues (s : State) (p i : Nat) (f : Region → Region) : (updRegion s p i f).queues = s.queues := rfl
@[simp] theorem updRegion_parts (s : State) (p i : Nat) (f : Region → Region) : (updRegion s p i f).parts = s.parts := rfl
@[simp] theorem updRegion_saved (s : State) (p i : Nat) (f : Region → Region) : (updRegion s p i f).saved = s.saved := rfl
@[simp] theorem updRegion_gangs (s : State) (p i : Nat) (f : Region → Region) : (updRegion s p i f).gangs = s.gangs := rfl
@[simp] theorem updRegion_engines (s : State) (p i : Nat) (f : Region → Region) : (updRegion s p i f).engines = s.engines := rfl
@[simp] theorem updRegion_pending (s : State) (p i : Nat) (f : Region → Region) : (updRegion s p i f).pending = s.pending := rfl
@[simp] theorem updRegion_tokens (s : State) (p i : Nat) (f : Region → Region) : (updRegion s p i f).tokens = s.tokens := rfl
@[simp] theorem updRegion_invals (s : State) (p i : Nat) (f : Region → Region) : (updRegion s p i f).invals = s.invals := rfl
@[simp] theorem updRegion_fetches (s : State) (p i : Nat) (f : Region → Region) : (updRegion s p i f).fetches = s.fetches := rfl
@[simp] theorem updRegion_checkpoints (s : State) (p i : Nat) (f : Region → Region) : (updRegion s p i f).checkpoints = s.checkpoints := rfl
@[simp] theorem updRegion_waitingDrains (s : State) (p i : Nat) (f : Region → Region) : (updRegion s p i f).waitingDrains = s.waitingDrains := rfl
@[simp] theorem updRegion_axis (s : State) (p i : Nat) (f : Region → Region) : (updRegion s p i f).axis = s.axis := rfl
@[simp] theorem updRegion_fabric (s : State) (p i : Nat) (f : Region → Region) : (updRegion s p i f).fabric = s.fabric := rfl
@[simp] theorem updRegion_badCells (s : State) (p i : Nat) (f : Region → Region) : (updRegion s p i f).badCells = s.badCells := rfl
@[simp] theorem updRegion_owed (s : State) (p i : Nat) (f : Region → Region) : (updRegion s p i f).owed = s.owed := rfl
@[simp] theorem updRegion_nextId (s : State) (p i : Nat) (f : Region → Region) : (updRegion s p i f).nextId = s.nextId := rfl
@[simp] theorem updRegion_agenda (s : State) (p i : Nat) (f : Region → Region) : (updRegion s p i f).agenda = s.agenda := rfl
@[simp] theorem updRegion_timers (s : State) (p i : Nat) (f : Region → Region) : (updRegion s p i f).timers = s.timers := rfl
@[simp] theorem updRegion_inputs (s : State) (p i : Nat) (f : Region → Region) : (updRegion s p i f).inputs = s.inputs := rfl
@[simp] theorem updRegion_nonce (s : State) (p i : Nat) (f : Region → Region) : (updRegion s p i f).nonce = s.nonce := rfl
@[simp] theorem updRegion_wall (s : State) (p i : Nat) (f : Region → Region) : (updRegion s p i f).wall = s.wall := rfl

/-! ## `post` -/

@[simp] theorem post_cur (e : Instr) (s : State) : (post e s).cur = s.cur := rfl
@[simp] theorem post_curKey (e : Instr) (s : State) : (post e s).curKey = s.curKey := rfl
@[simp] theorem post_parked (e : Instr) (s : State) : (post e s).parked = s.parked := rfl
@[simp] theorem post_cores (e : Instr) (s : State) : (post e s).cores = s.cores := rfl
@[simp] theorem post_dies (e : Instr) (s : State) : (post e s).dies = s.dies := rfl
@[simp] theorem post_hub (e : Instr) (s : State) : (post e s).hub = s.hub := rfl
@[simp] theorem post_mem (e : Instr) (s : State) : (post e s).mem = s.mem := rfl
@[simp] theorem post_queues (e : Instr) (s : State) : (post e s).queues = s.queues := rfl
@[simp] theorem post_parts (e : Instr) (s : State) : (post e s).parts = s.parts := rfl
@[simp] theorem post_regions (e : Instr) (s : State) : (post e s).regions = s.regions := rfl
@[simp] theorem post_saved (e : Instr) (s : State) : (post e s).saved = s.saved := rfl
@[simp] theorem post_gangs (e : Instr) (s : State) : (post e s).gangs = s.gangs := rfl
@[simp] theorem post_engines (e : Instr) (s : State) : (post e s).engines = s.engines := rfl
@[simp] theorem post_pending (e : Instr) (s : State) : (post e s).pending = s.pending := rfl
@[simp] theorem post_tokens (e : Instr) (s : State) : (post e s).tokens = s.tokens := rfl
@[simp] theorem post_invals (e : Instr) (s : State) : (post e s).invals = s.invals := rfl
@[simp] theorem post_fetches (e : Instr) (s : State) : (post e s).fetches = s.fetches := rfl
@[simp] theorem post_checkpoints (e : Instr) (s : State) : (post e s).checkpoints = s.checkpoints := rfl
@[simp] theorem post_waitingDrains (e : Instr) (s : State) : (post e s).waitingDrains = s.waitingDrains := rfl
@[simp] theorem post_axis (e : Instr) (s : State) : (post e s).axis = s.axis := rfl
@[simp] theorem post_fabric (e : Instr) (s : State) : (post e s).fabric = s.fabric := rfl
@[simp] theorem post_badCells (e : Instr) (s : State) : (post e s).badCells = s.badCells := rfl
@[simp] theorem post_owed (e : Instr) (s : State) : (post e s).owed = s.owed := rfl
@[simp] theorem post_nextId (e : Instr) (s : State) : (post e s).nextId = s.nextId := rfl
@[simp] theorem post_timers (e : Instr) (s : State) : (post e s).timers = s.timers := rfl
@[simp] theorem post_inputs (e : Instr) (s : State) : (post e s).inputs = s.inputs := rfl
@[simp] theorem post_nonce (e : Instr) (s : State) : (post e s).nonce = s.nonce := rfl
@[simp] theorem post_wall (e : Instr) (s : State) : (post e s).wall = s.wall := rfl

/-! ## `startTimer` -/

@[simp] theorem startTimer_cur (d : Nat) (c : Bool) (n : Nat) (e : Instr) (s : State) : (startTimer d c n e s).cur = s.cur := rfl
@[simp] theorem startTimer_curKey (d : Nat) (c : Bool) (n : Nat) (e : Instr) (s : State) : (startTimer d c n e s).curKey = s.curKey := rfl
@[simp] theorem startTimer_parked (d : Nat) (c : Bool) (n : Nat) (e : Instr) (s : State) : (startTimer d c n e s).parked = s.parked := rfl
@[simp] theorem startTimer_cores (d : Nat) (c : Bool) (n : Nat) (e : Instr) (s : State) : (startTimer d c n e s).cores = s.cores := rfl
@[simp] theorem startTimer_dies (d : Nat) (c : Bool) (n : Nat) (e : Instr) (s : State) : (startTimer d c n e s).dies = s.dies := rfl
@[simp] theorem startTimer_hub (d : Nat) (c : Bool) (n : Nat) (e : Instr) (s : State) : (startTimer d c n e s).hub = s.hub := rfl
@[simp] theorem startTimer_mem (d : Nat) (c : Bool) (n : Nat) (e : Instr) (s : State) : (startTimer d c n e s).mem = s.mem := rfl
@[simp] theorem startTimer_queues (d : Nat) (c : Bool) (n : Nat) (e : Instr) (s : State) : (startTimer d c n e s).queues = s.queues := rfl
@[simp] theorem startTimer_parts (d : Nat) (c : Bool) (n : Nat) (e : Instr) (s : State) : (startTimer d c n e s).parts = s.parts := rfl
@[simp] theorem startTimer_regions (d : Nat) (c : Bool) (n : Nat) (e : Instr) (s : State) : (startTimer d c n e s).regions = s.regions := rfl
@[simp] theorem startTimer_saved (d : Nat) (c : Bool) (n : Nat) (e : Instr) (s : State) : (startTimer d c n e s).saved = s.saved := rfl
@[simp] theorem startTimer_gangs (d : Nat) (c : Bool) (n : Nat) (e : Instr) (s : State) : (startTimer d c n e s).gangs = s.gangs := rfl
@[simp] theorem startTimer_engines (d : Nat) (c : Bool) (n : Nat) (e : Instr) (s : State) : (startTimer d c n e s).engines = s.engines := rfl
@[simp] theorem startTimer_pending (d : Nat) (c : Bool) (n : Nat) (e : Instr) (s : State) : (startTimer d c n e s).pending = s.pending := rfl
@[simp] theorem startTimer_tokens (d : Nat) (c : Bool) (n : Nat) (e : Instr) (s : State) : (startTimer d c n e s).tokens = s.tokens := rfl
@[simp] theorem startTimer_invals (d : Nat) (c : Bool) (n : Nat) (e : Instr) (s : State) : (startTimer d c n e s).invals = s.invals := rfl
@[simp] theorem startTimer_fetches (d : Nat) (c : Bool) (n : Nat) (e : Instr) (s : State) : (startTimer d c n e s).fetches = s.fetches := rfl
@[simp] theorem startTimer_checkpoints (d : Nat) (c : Bool) (n : Nat) (e : Instr) (s : State) : (startTimer d c n e s).checkpoints = s.checkpoints := rfl
@[simp] theorem startTimer_waitingDrains (d : Nat) (c : Bool) (n : Nat) (e : Instr) (s : State) : (startTimer d c n e s).waitingDrains = s.waitingDrains := rfl
@[simp] theorem startTimer_axis (d : Nat) (c : Bool) (n : Nat) (e : Instr) (s : State) : (startTimer d c n e s).axis = s.axis := rfl
@[simp] theorem startTimer_fabric (d : Nat) (c : Bool) (n : Nat) (e : Instr) (s : State) : (startTimer d c n e s).fabric = s.fabric := rfl
@[simp] theorem startTimer_badCells (d : Nat) (c : Bool) (n : Nat) (e : Instr) (s : State) : (startTimer d c n e s).badCells = s.badCells := rfl
@[simp] theorem startTimer_owed (d : Nat) (c : Bool) (n : Nat) (e : Instr) (s : State) : (startTimer d c n e s).owed = s.owed := rfl
@[simp] theorem startTimer_nextId (d : Nat) (c : Bool) (n : Nat) (e : Instr) (s : State) : (startTimer d c n e s).nextId = s.nextId := rfl
@[simp] theorem startTimer_agenda (d : Nat) (c : Bool) (n : Nat) (e : Instr) (s : State) : (startTimer d c n e s).agenda = (retract (· == e) s).agenda := rfl
@[simp] theorem startTimer_inputs (d : Nat) (c : Bool) (n : Nat) (e : Instr) (s : State) : (startTimer d c n e s).inputs = s.inputs := rfl
@[simp] theorem startTimer_nonce (d : Nat) (c : Bool) (n : Nat) (e : Instr) (s : State) : (startTimer d c n e s).nonce = s.nonce := rfl
@[simp] theorem startTimer_wall (d : Nat) (c : Bool) (n : Nat) (e : Instr) (s : State) : (startTimer d c n e s).wall = s.wall := rfl

/-! ## `stopTimer` -/

@[simp] theorem stopTimer_cur (e : Instr) (s : State) : (stopTimer e s).cur = s.cur := rfl
@[simp] theorem stopTimer_curKey (e : Instr) (s : State) : (stopTimer e s).curKey = s.curKey := rfl
@[simp] theorem stopTimer_parked (e : Instr) (s : State) : (stopTimer e s).parked = s.parked := rfl
@[simp] theorem stopTimer_cores (e : Instr) (s : State) : (stopTimer e s).cores = s.cores := rfl
@[simp] theorem stopTimer_dies (e : Instr) (s : State) : (stopTimer e s).dies = s.dies := rfl
@[simp] theorem stopTimer_hub (e : Instr) (s : State) : (stopTimer e s).hub = s.hub := rfl
@[simp] theorem stopTimer_mem (e : Instr) (s : State) : (stopTimer e s).mem = s.mem := rfl
@[simp] theorem stopTimer_queues (e : Instr) (s : State) : (stopTimer e s).queues = s.queues := rfl
@[simp] theorem stopTimer_parts (e : Instr) (s : State) : (stopTimer e s).parts = s.parts := rfl
@[simp] theorem stopTimer_regions (e : Instr) (s : State) : (stopTimer e s).regions = s.regions := rfl
@[simp] theorem stopTimer_saved (e : Instr) (s : State) : (stopTimer e s).saved = s.saved := rfl
@[simp] theorem stopTimer_gangs (e : Instr) (s : State) : (stopTimer e s).gangs = s.gangs := rfl
@[simp] theorem stopTimer_engines (e : Instr) (s : State) : (stopTimer e s).engines = s.engines := rfl
@[simp] theorem stopTimer_pending (e : Instr) (s : State) : (stopTimer e s).pending = s.pending := rfl
@[simp] theorem stopTimer_tokens (e : Instr) (s : State) : (stopTimer e s).tokens = s.tokens := rfl
@[simp] theorem stopTimer_invals (e : Instr) (s : State) : (stopTimer e s).invals = s.invals := rfl
@[simp] theorem stopTimer_fetches (e : Instr) (s : State) : (stopTimer e s).fetches = s.fetches := rfl
@[simp] theorem stopTimer_checkpoints (e : Instr) (s : State) : (stopTimer e s).checkpoints = s.checkpoints := rfl
@[simp] theorem stopTimer_waitingDrains (e : Instr) (s : State) : (stopTimer e s).waitingDrains = s.waitingDrains := rfl
@[simp] theorem stopTimer_axis (e : Instr) (s : State) : (stopTimer e s).axis = s.axis := rfl
@[simp] theorem stopTimer_fabric (e : Instr) (s : State) : (stopTimer e s).fabric = s.fabric := rfl
@[simp] theorem stopTimer_badCells (e : Instr) (s : State) : (stopTimer e s).badCells = s.badCells := rfl
@[simp] theorem stopTimer_owed (e : Instr) (s : State) : (stopTimer e s).owed = s.owed := rfl
@[simp] theorem stopTimer_nextId (e : Instr) (s : State) : (stopTimer e s).nextId = s.nextId := rfl
@[simp] theorem stopTimer_agenda (e : Instr) (s : State) : (stopTimer e s).agenda = (retract (· == e) s).agenda := rfl
@[simp] theorem stopTimer_inputs (e : Instr) (s : State) : (stopTimer e s).inputs = s.inputs := rfl
@[simp] theorem stopTimer_nonce (e : Instr) (s : State) : (stopTimer e s).nonce = s.nonce := rfl
@[simp] theorem stopTimer_wall (e : Instr) (s : State) : (stopTimer e s).wall = s.wall := rfl

/-! ## `updAxis` -/

@[simp] theorem updAxis_cur (f : Axis → Axis) (s : State) : (updAxis f s).cur = s.cur := rfl
@[simp] theorem updAxis_curKey (f : Axis → Axis) (s : State) : (updAxis f s).curKey = s.curKey := rfl
@[simp] theorem updAxis_parked (f : Axis → Axis) (s : State) : (updAxis f s).parked = s.parked := rfl
@[simp] theorem updAxis_cores (f : Axis → Axis) (s : State) : (updAxis f s).cores = s.cores := rfl
@[simp] theorem updAxis_dies (f : Axis → Axis) (s : State) : (updAxis f s).dies = s.dies := rfl
@[simp] theorem updAxis_hub (f : Axis → Axis) (s : State) : (updAxis f s).hub = s.hub := rfl
@[simp] theorem updAxis_mem (f : Axis → Axis) (s : State) : (updAxis f s).mem = s.mem := rfl
@[simp] theorem updAxis_queues (f : Axis → Axis) (s : State) : (updAxis f s).queues = s.queues := rfl
@[simp] theorem updAxis_parts (f : Axis → Axis) (s : State) : (updAxis f s).parts = s.parts := rfl
@[simp] theorem updAxis_regions (f : Axis → Axis) (s : State) : (updAxis f s).regions = s.regions := rfl
@[simp] theorem updAxis_saved (f : Axis → Axis) (s : State) : (updAxis f s).saved = s.saved := rfl
@[simp] theorem updAxis_gangs (f : Axis → Axis) (s : State) : (updAxis f s).gangs = s.gangs := rfl
@[simp] theorem updAxis_engines (f : Axis → Axis) (s : State) : (updAxis f s).engines = s.engines := rfl
@[simp] theorem updAxis_pending (f : Axis → Axis) (s : State) : (updAxis f s).pending = s.pending := rfl
@[simp] theorem updAxis_tokens (f : Axis → Axis) (s : State) : (updAxis f s).tokens = s.tokens := rfl
@[simp] theorem updAxis_invals (f : Axis → Axis) (s : State) : (updAxis f s).invals = s.invals := rfl
@[simp] theorem updAxis_fetches (f : Axis → Axis) (s : State) : (updAxis f s).fetches = s.fetches := rfl
@[simp] theorem updAxis_checkpoints (f : Axis → Axis) (s : State) : (updAxis f s).checkpoints = s.checkpoints := rfl
@[simp] theorem updAxis_waitingDrains (f : Axis → Axis) (s : State) : (updAxis f s).waitingDrains = s.waitingDrains := rfl
@[simp] theorem updAxis_fabric (f : Axis → Axis) (s : State) : (updAxis f s).fabric = s.fabric := rfl
@[simp] theorem updAxis_badCells (f : Axis → Axis) (s : State) : (updAxis f s).badCells = s.badCells := rfl
@[simp] theorem updAxis_owed (f : Axis → Axis) (s : State) : (updAxis f s).owed = s.owed := rfl
@[simp] theorem updAxis_nextId (f : Axis → Axis) (s : State) : (updAxis f s).nextId = s.nextId := rfl
@[simp] theorem updAxis_agenda (f : Axis → Axis) (s : State) : (updAxis f s).agenda = s.agenda := rfl
@[simp] theorem updAxis_timers (f : Axis → Axis) (s : State) : (updAxis f s).timers = s.timers := rfl
@[simp] theorem updAxis_inputs (f : Axis → Axis) (s : State) : (updAxis f s).inputs = s.inputs := rfl
@[simp] theorem updAxis_nonce (f : Axis → Axis) (s : State) : (updAxis f s).nonce = s.nonce := rfl
@[simp] theorem updAxis_wall (f : Axis → Axis) (s : State) : (updAxis f s).wall = s.wall := rfl

/-! ## `tellPort` -/

@[simp] theorem tellPort_cur (a : MgmtAnswer) (s : State) : (tellPort a s).cur = s.cur := rfl
@[simp] theorem tellPort_curKey (a : MgmtAnswer) (s : State) : (tellPort a s).curKey = s.curKey := rfl
@[simp] theorem tellPort_parked (a : MgmtAnswer) (s : State) : (tellPort a s).parked = s.parked := rfl
@[simp] theorem tellPort_cores (a : MgmtAnswer) (s : State) : (tellPort a s).cores = s.cores := rfl
@[simp] theorem tellPort_dies (a : MgmtAnswer) (s : State) : (tellPort a s).dies = s.dies := rfl
@[simp] theorem tellPort_hub (a : MgmtAnswer) (s : State) : (tellPort a s).hub = s.hub := rfl
@[simp] theorem tellPort_mem (a : MgmtAnswer) (s : State) : (tellPort a s).mem = s.mem := rfl
@[simp] theorem tellPort_queues (a : MgmtAnswer) (s : State) : (tellPort a s).queues = s.queues := rfl
@[simp] theorem tellPort_parts (a : MgmtAnswer) (s : State) : (tellPort a s).parts = s.parts := rfl
@[simp] theorem tellPort_regions (a : MgmtAnswer) (s : State) : (tellPort a s).regions = s.regions := rfl
@[simp] theorem tellPort_saved (a : MgmtAnswer) (s : State) : (tellPort a s).saved = s.saved := rfl
@[simp] theorem tellPort_gangs (a : MgmtAnswer) (s : State) : (tellPort a s).gangs = s.gangs := rfl
@[simp] theorem tellPort_engines (a : MgmtAnswer) (s : State) : (tellPort a s).engines = s.engines := rfl
@[simp] theorem tellPort_pending (a : MgmtAnswer) (s : State) : (tellPort a s).pending = s.pending := rfl
@[simp] theorem tellPort_tokens (a : MgmtAnswer) (s : State) : (tellPort a s).tokens = s.tokens := rfl
@[simp] theorem tellPort_invals (a : MgmtAnswer) (s : State) : (tellPort a s).invals = s.invals := rfl
@[simp] theorem tellPort_fetches (a : MgmtAnswer) (s : State) : (tellPort a s).fetches = s.fetches := rfl
@[simp] theorem tellPort_checkpoints (a : MgmtAnswer) (s : State) : (tellPort a s).checkpoints = s.checkpoints := rfl
@[simp] theorem tellPort_waitingDrains (a : MgmtAnswer) (s : State) : (tellPort a s).waitingDrains = s.waitingDrains := rfl
@[simp] theorem tellPort_fabric (a : MgmtAnswer) (s : State) : (tellPort a s).fabric = s.fabric := rfl
@[simp] theorem tellPort_badCells (a : MgmtAnswer) (s : State) : (tellPort a s).badCells = s.badCells := rfl
@[simp] theorem tellPort_owed (a : MgmtAnswer) (s : State) : (tellPort a s).owed = s.owed := rfl
@[simp] theorem tellPort_nextId (a : MgmtAnswer) (s : State) : (tellPort a s).nextId = s.nextId := rfl
@[simp] theorem tellPort_agenda (a : MgmtAnswer) (s : State) : (tellPort a s).agenda = s.agenda := rfl
@[simp] theorem tellPort_timers (a : MgmtAnswer) (s : State) : (tellPort a s).timers = s.timers := rfl
@[simp] theorem tellPort_inputs (a : MgmtAnswer) (s : State) : (tellPort a s).inputs = s.inputs := rfl
@[simp] theorem tellPort_nonce (a : MgmtAnswer) (s : State) : (tellPort a s).nonce = s.nonce := rfl
@[simp] theorem tellPort_wall (a : MgmtAnswer) (s : State) : (tellPort a s).wall = s.wall := rfl

/-! ## `setDie` -/

@[simp] theorem setDie_cur (s : State) (d : Nat) (x : Die) : (setDie s d x).cur = s.cur := by unfold setDie; split <;> rfl
@[simp] theorem setDie_curKey (s : State) (d : Nat) (x : Die) : (setDie s d x).curKey = s.curKey := by unfold setDie; split <;> rfl
@[simp] theorem setDie_parked (s : State) (d : Nat) (x : Die) : (setDie s d x).parked = s.parked := by unfold setDie; split <;> rfl
@[simp] theorem setDie_cores (s : State) (d : Nat) (x : Die) : (setDie s d x).cores = s.cores := by unfold setDie; split <;> rfl
@[simp] theorem setDie_mem (s : State) (d : Nat) (x : Die) : (setDie s d x).mem = s.mem := by unfold setDie; split <;> rfl
@[simp] theorem setDie_queues (s : State) (d : Nat) (x : Die) : (setDie s d x).queues = s.queues := by unfold setDie; split <;> rfl
@[simp] theorem setDie_parts (s : State) (d : Nat) (x : Die) : (setDie s d x).parts = s.parts := by unfold setDie; split <;> rfl
@[simp] theorem setDie_regions (s : State) (d : Nat) (x : Die) : (setDie s d x).regions = s.regions := by unfold setDie; split <;> rfl
@[simp] theorem setDie_saved (s : State) (d : Nat) (x : Die) : (setDie s d x).saved = s.saved := by unfold setDie; split <;> rfl
@[simp] theorem setDie_gangs (s : State) (d : Nat) (x : Die) : (setDie s d x).gangs = s.gangs := by unfold setDie; split <;> rfl
@[simp] theorem setDie_engines (s : State) (d : Nat) (x : Die) : (setDie s d x).engines = s.engines := by unfold setDie; split <;> rfl
@[simp] theorem setDie_pending (s : State) (d : Nat) (x : Die) : (setDie s d x).pending = s.pending := by unfold setDie; split <;> rfl
@[simp] theorem setDie_tokens (s : State) (d : Nat) (x : Die) : (setDie s d x).tokens = s.tokens := by unfold setDie; split <;> rfl
@[simp] theorem setDie_invals (s : State) (d : Nat) (x : Die) : (setDie s d x).invals = s.invals := by unfold setDie; split <;> rfl
@[simp] theorem setDie_fetches (s : State) (d : Nat) (x : Die) : (setDie s d x).fetches = s.fetches := by unfold setDie; split <;> rfl
@[simp] theorem setDie_checkpoints (s : State) (d : Nat) (x : Die) : (setDie s d x).checkpoints = s.checkpoints := by unfold setDie; split <;> rfl
@[simp] theorem setDie_waitingDrains (s : State) (d : Nat) (x : Die) : (setDie s d x).waitingDrains = s.waitingDrains := by unfold setDie; split <;> rfl
@[simp] theorem setDie_axis (s : State) (d : Nat) (x : Die) : (setDie s d x).axis = s.axis := by unfold setDie; split <;> rfl
@[simp] theorem setDie_fabric (s : State) (d : Nat) (x : Die) : (setDie s d x).fabric = s.fabric := by unfold setDie; split <;> rfl
@[simp] theorem setDie_badCells (s : State) (d : Nat) (x : Die) : (setDie s d x).badCells = s.badCells := by unfold setDie; split <;> rfl
@[simp] theorem setDie_owed (s : State) (d : Nat) (x : Die) : (setDie s d x).owed = s.owed := by unfold setDie; split <;> rfl
@[simp] theorem setDie_nextId (s : State) (d : Nat) (x : Die) : (setDie s d x).nextId = s.nextId := by unfold setDie; split <;> rfl
@[simp] theorem setDie_agenda (s : State) (d : Nat) (x : Die) : (setDie s d x).agenda = s.agenda := by unfold setDie; split <;> rfl
@[simp] theorem setDie_timers (s : State) (d : Nat) (x : Die) : (setDie s d x).timers = s.timers := by unfold setDie; split <;> rfl
@[simp] theorem setDie_inputs (s : State) (d : Nat) (x : Die) : (setDie s d x).inputs = s.inputs := by unfold setDie; split <;> rfl
@[simp] theorem setDie_nonce (s : State) (d : Nat) (x : Die) : (setDie s d x).nonce = s.nonce := by unfold setDie; split <;> rfl
@[simp] theorem setDie_wall (s : State) (d : Nat) (x : Die) : (setDie s d x).wall = s.wall := by unfold setDie; split <;> rfl

/-! ## `updDie` -/

@[simp] theorem updDie_cur (s : State) (d : Nat) (f : Die → Die) : (updDie s d f).cur = s.cur := by simp [updDie]
@[simp] theorem updDie_curKey (s : State) (d : Nat) (f : Die → Die) : (updDie s d f).curKey = s.curKey := by simp [updDie]
@[simp] theorem updDie_parked (s : State) (d : Nat) (f : Die → Die) : (updDie s d f).parked = s.parked := by simp [updDie]
@[simp] theorem updDie_cores (s : State) (d : Nat) (f : Die → Die) : (updDie s d f).cores = s.cores := by simp [updDie]
@[simp] theorem updDie_mem (s : State) (d : Nat) (f : Die → Die) : (updDie s d f).mem = s.mem := by simp [updDie]
@[simp] theorem updDie_queues (s : State) (d : Nat) (f : Die → Die) : (updDie s d f).queues = s.queues := by simp [updDie]
@[simp] theorem updDie_parts (s : State) (d : Nat) (f : Die → Die) : (updDie s d f).parts = s.parts := by simp [updDie]
@[simp] theorem updDie_regions (s : State) (d : Nat) (f : Die → Die) : (updDie s d f).regions = s.regions := by simp [updDie]
@[simp] theorem updDie_saved (s : State) (d : Nat) (f : Die → Die) : (updDie s d f).saved = s.saved := by simp [updDie]
@[simp] theorem updDie_gangs (s : State) (d : Nat) (f : Die → Die) : (updDie s d f).gangs = s.gangs := by simp [updDie]
@[simp] theorem updDie_engines (s : State) (d : Nat) (f : Die → Die) : (updDie s d f).engines = s.engines := by simp [updDie]
@[simp] theorem updDie_pending (s : State) (d : Nat) (f : Die → Die) : (updDie s d f).pending = s.pending := by simp [updDie]
@[simp] theorem updDie_tokens (s : State) (d : Nat) (f : Die → Die) : (updDie s d f).tokens = s.tokens := by simp [updDie]
@[simp] theorem updDie_invals (s : State) (d : Nat) (f : Die → Die) : (updDie s d f).invals = s.invals := by simp [updDie]
@[simp] theorem updDie_fetches (s : State) (d : Nat) (f : Die → Die) : (updDie s d f).fetches = s.fetches := by simp [updDie]
@[simp] theorem updDie_checkpoints (s : State) (d : Nat) (f : Die → Die) : (updDie s d f).checkpoints = s.checkpoints := by simp [updDie]
@[simp] theorem updDie_waitingDrains (s : State) (d : Nat) (f : Die → Die) : (updDie s d f).waitingDrains = s.waitingDrains := by simp [updDie]
@[simp] theorem updDie_axis (s : State) (d : Nat) (f : Die → Die) : (updDie s d f).axis = s.axis := by simp [updDie]
@[simp] theorem updDie_fabric (s : State) (d : Nat) (f : Die → Die) : (updDie s d f).fabric = s.fabric := by simp [updDie]
@[simp] theorem updDie_badCells (s : State) (d : Nat) (f : Die → Die) : (updDie s d f).badCells = s.badCells := by simp [updDie]
@[simp] theorem updDie_owed (s : State) (d : Nat) (f : Die → Die) : (updDie s d f).owed = s.owed := by simp [updDie]
@[simp] theorem updDie_nextId (s : State) (d : Nat) (f : Die → Die) : (updDie s d f).nextId = s.nextId := by simp [updDie]
@[simp] theorem updDie_agenda (s : State) (d : Nat) (f : Die → Die) : (updDie s d f).agenda = s.agenda := by simp [updDie]
@[simp] theorem updDie_timers (s : State) (d : Nat) (f : Die → Die) : (updDie s d f).timers = s.timers := by simp [updDie]
@[simp] theorem updDie_inputs (s : State) (d : Nat) (f : Die → Die) : (updDie s d f).inputs = s.inputs := by simp [updDie]
@[simp] theorem updDie_nonce (s : State) (d : Nat) (f : Die → Die) : (updDie s d f).nonce = s.nonce := by simp [updDie]
@[simp] theorem updDie_wall (s : State) (d : Nat) (f : Die → Die) : (updDie s d f).wall = s.wall := by simp [updDie]

/-! ## `setQueue` -/

@[simp] theorem setQueue_cur (s : State) (q : Nat) (x : Queue) : (setQueue s q x).cur = s.cur := by unfold setQueue; split <;> rfl
@[simp] theorem setQueue_curKey (s : State) (q : Nat) (x : Queue) : (setQueue s q x).curKey = s.curKey := by unfold setQueue; split <;> rfl
@[simp] theorem setQueue_parked (s : State) (q : Nat) (x : Queue) : (setQueue s q x).parked = s.parked := by unfold setQueue; split <;> rfl
@[simp] theorem setQueue_cores (s : State) (q : Nat) (x : Queue) : (setQueue s q x).cores = s.cores := by unfold setQueue; split <;> rfl
@[simp] theorem setQueue_dies (s : State) (q : Nat) (x : Queue) : (setQueue s q x).dies = s.dies := by unfold setQueue; split <;> rfl
@[simp] theorem setQueue_hub (s : State) (q : Nat) (x : Queue) : (setQueue s q x).hub = s.hub := by unfold setQueue; split <;> rfl
@[simp] theorem setQueue_mem (s : State) (q : Nat) (x : Queue) : (setQueue s q x).mem = s.mem := by unfold setQueue; split <;> rfl
@[simp] theorem setQueue_parts (s : State) (q : Nat) (x : Queue) : (setQueue s q x).parts = s.parts := by unfold setQueue; split <;> rfl
@[simp] theorem setQueue_regions (s : State) (q : Nat) (x : Queue) : (setQueue s q x).regions = s.regions := by unfold setQueue; split <;> rfl
@[simp] theorem setQueue_saved (s : State) (q : Nat) (x : Queue) : (setQueue s q x).saved = s.saved := by unfold setQueue; split <;> rfl
@[simp] theorem setQueue_gangs (s : State) (q : Nat) (x : Queue) : (setQueue s q x).gangs = s.gangs := by unfold setQueue; split <;> rfl
@[simp] theorem setQueue_engines (s : State) (q : Nat) (x : Queue) : (setQueue s q x).engines = s.engines := by unfold setQueue; split <;> rfl
@[simp] theorem setQueue_pending (s : State) (q : Nat) (x : Queue) : (setQueue s q x).pending = s.pending := by unfold setQueue; split <;> rfl
@[simp] theorem setQueue_tokens (s : State) (q : Nat) (x : Queue) : (setQueue s q x).tokens = s.tokens := by unfold setQueue; split <;> rfl
@[simp] theorem setQueue_invals (s : State) (q : Nat) (x : Queue) : (setQueue s q x).invals = s.invals := by unfold setQueue; split <;> rfl
@[simp] theorem setQueue_fetches (s : State) (q : Nat) (x : Queue) : (setQueue s q x).fetches = s.fetches := by unfold setQueue; split <;> rfl
@[simp] theorem setQueue_checkpoints (s : State) (q : Nat) (x : Queue) : (setQueue s q x).checkpoints = s.checkpoints := by unfold setQueue; split <;> rfl
@[simp] theorem setQueue_waitingDrains (s : State) (q : Nat) (x : Queue) : (setQueue s q x).waitingDrains = s.waitingDrains := by unfold setQueue; split <;> rfl
@[simp] theorem setQueue_axis (s : State) (q : Nat) (x : Queue) : (setQueue s q x).axis = s.axis := by unfold setQueue; split <;> rfl
@[simp] theorem setQueue_fabric (s : State) (q : Nat) (x : Queue) : (setQueue s q x).fabric = s.fabric := by unfold setQueue; split <;> rfl
@[simp] theorem setQueue_badCells (s : State) (q : Nat) (x : Queue) : (setQueue s q x).badCells = s.badCells := by unfold setQueue; split <;> rfl
@[simp] theorem setQueue_owed (s : State) (q : Nat) (x : Queue) : (setQueue s q x).owed = s.owed := by unfold setQueue; split <;> rfl
@[simp] theorem setQueue_nextId (s : State) (q : Nat) (x : Queue) : (setQueue s q x).nextId = s.nextId := by unfold setQueue; split <;> rfl
@[simp] theorem setQueue_agenda (s : State) (q : Nat) (x : Queue) : (setQueue s q x).agenda = s.agenda := by unfold setQueue; split <;> rfl
@[simp] theorem setQueue_timers (s : State) (q : Nat) (x : Queue) : (setQueue s q x).timers = s.timers := by unfold setQueue; split <;> rfl
@[simp] theorem setQueue_inputs (s : State) (q : Nat) (x : Queue) : (setQueue s q x).inputs = s.inputs := by unfold setQueue; split <;> rfl
@[simp] theorem setQueue_nonce (s : State) (q : Nat) (x : Queue) : (setQueue s q x).nonce = s.nonce := by unfold setQueue; split <;> rfl
@[simp] theorem setQueue_wall (s : State) (q : Nat) (x : Queue) : (setQueue s q x).wall = s.wall := by unfold setQueue; split <;> rfl

/-! ## `updQueue` -/

@[simp] theorem updQueue_cur (s : State) (q : Nat) (f : Queue → Queue) : (updQueue s q f).cur = s.cur := by simp [updQueue]
@[simp] theorem updQueue_curKey (s : State) (q : Nat) (f : Queue → Queue) : (updQueue s q f).curKey = s.curKey := by simp [updQueue]
@[simp] theorem updQueue_parked (s : State) (q : Nat) (f : Queue → Queue) : (updQueue s q f).parked = s.parked := by simp [updQueue]
@[simp] theorem updQueue_cores (s : State) (q : Nat) (f : Queue → Queue) : (updQueue s q f).cores = s.cores := by simp [updQueue]
@[simp] theorem updQueue_dies (s : State) (q : Nat) (f : Queue → Queue) : (updQueue s q f).dies = s.dies := by simp [updQueue]
@[simp] theorem updQueue_hub (s : State) (q : Nat) (f : Queue → Queue) : (updQueue s q f).hub = s.hub := by simp [updQueue]
@[simp] theorem updQueue_mem (s : State) (q : Nat) (f : Queue → Queue) : (updQueue s q f).mem = s.mem := by simp [updQueue]
@[simp] theorem updQueue_parts (s : State) (q : Nat) (f : Queue → Queue) : (updQueue s q f).parts = s.parts := by simp [updQueue]
@[simp] theorem updQueue_regions (s : State) (q : Nat) (f : Queue → Queue) : (updQueue s q f).regions = s.regions := by simp [updQueue]
@[simp] theorem updQueue_saved (s : State) (q : Nat) (f : Queue → Queue) : (updQueue s q f).saved = s.saved := by simp [updQueue]
@[simp] theorem updQueue_gangs (s : State) (q : Nat) (f : Queue → Queue) : (updQueue s q f).gangs = s.gangs := by simp [updQueue]
@[simp] theorem updQueue_engines (s : State) (q : Nat) (f : Queue → Queue) : (updQueue s q f).engines = s.engines := by simp [updQueue]
@[simp] theorem updQueue_pending (s : State) (q : Nat) (f : Queue → Queue) : (updQueue s q f).pending = s.pending := by simp [updQueue]
@[simp] theorem updQueue_tokens (s : State) (q : Nat) (f : Queue → Queue) : (updQueue s q f).tokens = s.tokens := by simp [updQueue]
@[simp] theorem updQueue_invals (s : State) (q : Nat) (f : Queue → Queue) : (updQueue s q f).invals = s.invals := by simp [updQueue]
@[simp] theorem updQueue_fetches (s : State) (q : Nat) (f : Queue → Queue) : (updQueue s q f).fetches = s.fetches := by simp [updQueue]
@[simp] theorem updQueue_checkpoints (s : State) (q : Nat) (f : Queue → Queue) : (updQueue s q f).checkpoints = s.checkpoints := by simp [updQueue]
@[simp] theorem updQueue_waitingDrains (s : State) (q : Nat) (f : Queue → Queue) : (updQueue s q f).waitingDrains = s.waitingDrains := by simp [updQueue]
@[simp] theorem updQueue_axis (s : State) (q : Nat) (f : Queue → Queue) : (updQueue s q f).axis = s.axis := by simp [updQueue]
@[simp] theorem updQueue_fabric (s : State) (q : Nat) (f : Queue → Queue) : (updQueue s q f).fabric = s.fabric := by simp [updQueue]
@[simp] theorem updQueue_badCells (s : State) (q : Nat) (f : Queue → Queue) : (updQueue s q f).badCells = s.badCells := by simp [updQueue]
@[simp] theorem updQueue_owed (s : State) (q : Nat) (f : Queue → Queue) : (updQueue s q f).owed = s.owed := by simp [updQueue]
@[simp] theorem updQueue_nextId (s : State) (q : Nat) (f : Queue → Queue) : (updQueue s q f).nextId = s.nextId := by simp [updQueue]
@[simp] theorem updQueue_agenda (s : State) (q : Nat) (f : Queue → Queue) : (updQueue s q f).agenda = s.agenda := by simp [updQueue]
@[simp] theorem updQueue_timers (s : State) (q : Nat) (f : Queue → Queue) : (updQueue s q f).timers = s.timers := by simp [updQueue]
@[simp] theorem updQueue_inputs (s : State) (q : Nat) (f : Queue → Queue) : (updQueue s q f).inputs = s.inputs := by simp [updQueue]
@[simp] theorem updQueue_nonce (s : State) (q : Nat) (f : Queue → Queue) : (updQueue s q f).nonce = s.nonce := by simp [updQueue]
@[simp] theorem updQueue_wall (s : State) (q : Nat) (f : Queue → Queue) : (updQueue s q f).wall = s.wall := by simp [updQueue]

/-! ## `retract` -/

@[simp] theorem retract_cur (p : Instr → Bool) (s : State) : (retract p s).cur = s.cur := rfl
@[simp] theorem retract_curKey (p : Instr → Bool) (s : State) : (retract p s).curKey = s.curKey := rfl
@[simp] theorem retract_parked (p : Instr → Bool) (s : State) : (retract p s).parked = s.parked := rfl
@[simp] theorem retract_cores (p : Instr → Bool) (s : State) : (retract p s).cores = s.cores := rfl
@[simp] theorem retract_dies (p : Instr → Bool) (s : State) : (retract p s).dies = s.dies := rfl
@[simp] theorem retract_hub (p : Instr → Bool) (s : State) : (retract p s).hub = s.hub := rfl
@[simp] theorem retract_mem (p : Instr → Bool) (s : State) : (retract p s).mem = s.mem := rfl
@[simp] theorem retract_queues (p : Instr → Bool) (s : State) : (retract p s).queues = s.queues := rfl
@[simp] theorem retract_parts (p : Instr → Bool) (s : State) : (retract p s).parts = s.parts := rfl
@[simp] theorem retract_regions (p : Instr → Bool) (s : State) : (retract p s).regions = s.regions := rfl
@[simp] theorem retract_saved (p : Instr → Bool) (s : State) : (retract p s).saved = s.saved := rfl
@[simp] theorem retract_gangs (p : Instr → Bool) (s : State) : (retract p s).gangs = s.gangs := rfl
@[simp] theorem retract_engines (p : Instr → Bool) (s : State) : (retract p s).engines = s.engines := rfl
@[simp] theorem retract_pending (p : Instr → Bool) (s : State) : (retract p s).pending = s.pending := rfl
@[simp] theorem retract_tokens (p : Instr → Bool) (s : State) : (retract p s).tokens = s.tokens := rfl
@[simp] theorem retract_invals (p : Instr → Bool) (s : State) : (retract p s).invals = s.invals := rfl
@[simp] theorem retract_fetches (p : Instr → Bool) (s : State) : (retract p s).fetches = s.fetches := rfl
@[simp] theorem retract_checkpoints (p : Instr → Bool) (s : State) : (retract p s).checkpoints = s.checkpoints := rfl
@[simp] theorem retract_waitingDrains (p : Instr → Bool) (s : State) : (retract p s).waitingDrains = s.waitingDrains := rfl
@[simp] theorem retract_axis (p : Instr → Bool) (s : State) : (retract p s).axis = s.axis := rfl
@[simp] theorem retract_fabric (p : Instr → Bool) (s : State) : (retract p s).fabric = s.fabric := rfl
@[simp] theorem retract_badCells (p : Instr → Bool) (s : State) : (retract p s).badCells = s.badCells := rfl
@[simp] theorem retract_owed (p : Instr → Bool) (s : State) : (retract p s).owed = s.owed := rfl
@[simp] theorem retract_nextId (p : Instr → Bool) (s : State) : (retract p s).nextId = s.nextId := rfl
@[simp] theorem retract_timers (p : Instr → Bool) (s : State) : (retract p s).timers = s.timers := rfl
@[simp] theorem retract_inputs (p : Instr → Bool) (s : State) : (retract p s).inputs = s.inputs := rfl
@[simp] theorem retract_wall (p : Instr → Bool) (s : State) : (retract p s).wall = s.wall := rfl
@[simp] theorem retract_nonce (p : Instr → Bool) (s : State) : (retract p s).nonce = s.nonce := rfl

/-! ## `postOnce` -/

@[simp] theorem postOnce_cur (e : Instr) (s : State) : (postOnce e s).cur = s.cur := by unfold postOnce; split <;> rfl
@[simp] theorem postOnce_curKey (e : Instr) (s : State) : (postOnce e s).curKey = s.curKey := by unfold postOnce; split <;> rfl
@[simp] theorem postOnce_parked (e : Instr) (s : State) : (postOnce e s).parked = s.parked := by unfold postOnce; split <;> rfl
@[simp] theorem postOnce_cores (e : Instr) (s : State) : (postOnce e s).cores = s.cores := by unfold postOnce; split <;> rfl
@[simp] theorem postOnce_dies (e : Instr) (s : State) : (postOnce e s).dies = s.dies := by unfold postOnce; split <;> rfl
@[simp] theorem postOnce_hub (e : Instr) (s : State) : (postOnce e s).hub = s.hub := by unfold postOnce; split <;> rfl
@[simp] theorem postOnce_mem (e : Instr) (s : State) : (postOnce e s).mem = s.mem := by unfold postOnce; split <;> rfl
@[simp] theorem postOnce_queues (e : Instr) (s : State) : (postOnce e s).queues = s.queues := by unfold postOnce; split <;> rfl
@[simp] theorem postOnce_parts (e : Instr) (s : State) : (postOnce e s).parts = s.parts := by unfold postOnce; split <;> rfl
@[simp] theorem postOnce_regions (e : Instr) (s : State) : (postOnce e s).regions = s.regions := by unfold postOnce; split <;> rfl
@[simp] theorem postOnce_saved (e : Instr) (s : State) : (postOnce e s).saved = s.saved := by unfold postOnce; split <;> rfl
@[simp] theorem postOnce_gangs (e : Instr) (s : State) : (postOnce e s).gangs = s.gangs := by unfold postOnce; split <;> rfl
@[simp] theorem postOnce_engines (e : Instr) (s : State) : (postOnce e s).engines = s.engines := by unfold postOnce; split <;> rfl
@[simp] theorem postOnce_pending (e : Instr) (s : State) : (postOnce e s).pending = s.pending := by unfold postOnce; split <;> rfl
@[simp] theorem postOnce_tokens (e : Instr) (s : State) : (postOnce e s).tokens = s.tokens := by unfold postOnce; split <;> rfl
@[simp] theorem postOnce_invals (e : Instr) (s : State) : (postOnce e s).invals = s.invals := by unfold postOnce; split <;> rfl
@[simp] theorem postOnce_fetches (e : Instr) (s : State) : (postOnce e s).fetches = s.fetches := by unfold postOnce; split <;> rfl
@[simp] theorem postOnce_checkpoints (e : Instr) (s : State) : (postOnce e s).checkpoints = s.checkpoints := by unfold postOnce; split <;> rfl
@[simp] theorem postOnce_waitingDrains (e : Instr) (s : State) : (postOnce e s).waitingDrains = s.waitingDrains := by unfold postOnce; split <;> rfl
@[simp] theorem postOnce_axis (e : Instr) (s : State) : (postOnce e s).axis = s.axis := by unfold postOnce; split <;> rfl
@[simp] theorem postOnce_fabric (e : Instr) (s : State) : (postOnce e s).fabric = s.fabric := by unfold postOnce; split <;> rfl
@[simp] theorem postOnce_badCells (e : Instr) (s : State) : (postOnce e s).badCells = s.badCells := by unfold postOnce; split <;> rfl
@[simp] theorem postOnce_owed (e : Instr) (s : State) : (postOnce e s).owed = s.owed := by unfold postOnce; split <;> rfl
@[simp] theorem postOnce_nextId (e : Instr) (s : State) : (postOnce e s).nextId = s.nextId := by unfold postOnce; split <;> rfl
@[simp] theorem postOnce_timers (e : Instr) (s : State) : (postOnce e s).timers = s.timers := by unfold postOnce; split <;> rfl
@[simp] theorem postOnce_inputs (e : Instr) (s : State) : (postOnce e s).inputs = s.inputs := by unfold postOnce; split <;> rfl
@[simp] theorem postOnce_wall (e : Instr) (s : State) : (postOnce e s).wall = s.wall := by unfold postOnce; split <;> rfl
@[simp] theorem postOnce_nonce (e : Instr) (s : State) : (postOnce e s).nonce = s.nonce := by unfold postOnce; split <;> rfl

/-! ## `renameTimer` -/

@[simp] theorem renameTimer_cur (e f : Instr) (s : State) : (renameTimer e f s).cur = s.cur := rfl
@[simp] theorem renameTimer_curKey (e f : Instr) (s : State) : (renameTimer e f s).curKey = s.curKey := rfl
@[simp] theorem renameTimer_parked (e f : Instr) (s : State) : (renameTimer e f s).parked = s.parked := rfl
@[simp] theorem renameTimer_cores (e f : Instr) (s : State) : (renameTimer e f s).cores = s.cores := rfl
@[simp] theorem renameTimer_dies (e f : Instr) (s : State) : (renameTimer e f s).dies = s.dies := rfl
@[simp] theorem renameTimer_hub (e f : Instr) (s : State) : (renameTimer e f s).hub = s.hub := rfl
@[simp] theorem renameTimer_mem (e f : Instr) (s : State) : (renameTimer e f s).mem = s.mem := rfl
@[simp] theorem renameTimer_queues (e f : Instr) (s : State) : (renameTimer e f s).queues = s.queues := rfl
@[simp] theorem renameTimer_parts (e f : Instr) (s : State) : (renameTimer e f s).parts = s.parts := rfl
@[simp] theorem renameTimer_regions (e f : Instr) (s : State) : (renameTimer e f s).regions = s.regions := rfl
@[simp] theorem renameTimer_saved (e f : Instr) (s : State) : (renameTimer e f s).saved = s.saved := rfl
@[simp] theorem renameTimer_gangs (e f : Instr) (s : State) : (renameTimer e f s).gangs = s.gangs := rfl
@[simp] theorem renameTimer_engines (e f : Instr) (s : State) : (renameTimer e f s).engines = s.engines := rfl
@[simp] theorem renameTimer_pending (e f : Instr) (s : State) : (renameTimer e f s).pending = s.pending := rfl
@[simp] theorem renameTimer_tokens (e f : Instr) (s : State) : (renameTimer e f s).tokens = s.tokens := rfl
@[simp] theorem renameTimer_invals (e f : Instr) (s : State) : (renameTimer e f s).invals = s.invals := rfl
@[simp] theorem renameTimer_fetches (e f : Instr) (s : State) : (renameTimer e f s).fetches = s.fetches := rfl
@[simp] theorem renameTimer_checkpoints (e f : Instr) (s : State) : (renameTimer e f s).checkpoints = s.checkpoints := rfl
@[simp] theorem renameTimer_waitingDrains (e f : Instr) (s : State) : (renameTimer e f s).waitingDrains = s.waitingDrains := rfl
@[simp] theorem renameTimer_axis (e f : Instr) (s : State) : (renameTimer e f s).axis = s.axis := rfl
@[simp] theorem renameTimer_fabric (e f : Instr) (s : State) : (renameTimer e f s).fabric = s.fabric := rfl
@[simp] theorem renameTimer_badCells (e f : Instr) (s : State) : (renameTimer e f s).badCells = s.badCells := rfl
@[simp] theorem renameTimer_owed (e f : Instr) (s : State) : (renameTimer e f s).owed = s.owed := rfl
@[simp] theorem renameTimer_nextId (e f : Instr) (s : State) : (renameTimer e f s).nextId = s.nextId := rfl
@[simp] theorem renameTimer_inputs (e f : Instr) (s : State) : (renameTimer e f s).inputs = s.inputs := rfl
@[simp] theorem renameTimer_wall (e f : Instr) (s : State) : (renameTimer e f s).wall = s.wall := rfl
@[simp] theorem renameTimer_nonce (e f : Instr) (s : State) : (renameTimer e f s).nonce = s.nonce := rfl

/-! ## `updPort` -/

@[simp] theorem updPort_cur (d p : Nat) (f : Port → Port) (s : State) : (updPort d p f s).cur = s.cur := by simp [updPort]
@[simp] theorem updPort_curKey (d p : Nat) (f : Port → Port) (s : State) : (updPort d p f s).curKey = s.curKey := by simp [updPort]
@[simp] theorem updPort_parked (d p : Nat) (f : Port → Port) (s : State) : (updPort d p f s).parked = s.parked := by simp [updPort]
@[simp] theorem updPort_cores (d p : Nat) (f : Port → Port) (s : State) : (updPort d p f s).cores = s.cores := by simp [updPort]
@[simp] theorem updPort_mem (d p : Nat) (f : Port → Port) (s : State) : (updPort d p f s).mem = s.mem := by simp [updPort]
@[simp] theorem updPort_queues (d p : Nat) (f : Port → Port) (s : State) : (updPort d p f s).queues = s.queues := by simp [updPort]
@[simp] theorem updPort_parts (d p : Nat) (f : Port → Port) (s : State) : (updPort d p f s).parts = s.parts := by simp [updPort]
@[simp] theorem updPort_regions (d p : Nat) (f : Port → Port) (s : State) : (updPort d p f s).regions = s.regions := by simp [updPort]
@[simp] theorem updPort_saved (d p : Nat) (f : Port → Port) (s : State) : (updPort d p f s).saved = s.saved := by simp [updPort]
@[simp] theorem updPort_gangs (d p : Nat) (f : Port → Port) (s : State) : (updPort d p f s).gangs = s.gangs := by simp [updPort]
@[simp] theorem updPort_engines (d p : Nat) (f : Port → Port) (s : State) : (updPort d p f s).engines = s.engines := by simp [updPort]
@[simp] theorem updPort_pending (d p : Nat) (f : Port → Port) (s : State) : (updPort d p f s).pending = s.pending := by simp [updPort]
@[simp] theorem updPort_tokens (d p : Nat) (f : Port → Port) (s : State) : (updPort d p f s).tokens = s.tokens := by simp [updPort]
@[simp] theorem updPort_invals (d p : Nat) (f : Port → Port) (s : State) : (updPort d p f s).invals = s.invals := by simp [updPort]
@[simp] theorem updPort_fetches (d p : Nat) (f : Port → Port) (s : State) : (updPort d p f s).fetches = s.fetches := by simp [updPort]
@[simp] theorem updPort_checkpoints (d p : Nat) (f : Port → Port) (s : State) : (updPort d p f s).checkpoints = s.checkpoints := by simp [updPort]
@[simp] theorem updPort_waitingDrains (d p : Nat) (f : Port → Port) (s : State) : (updPort d p f s).waitingDrains = s.waitingDrains := by simp [updPort]
@[simp] theorem updPort_axis (d p : Nat) (f : Port → Port) (s : State) : (updPort d p f s).axis = s.axis := by simp [updPort]
@[simp] theorem updPort_fabric (d p : Nat) (f : Port → Port) (s : State) : (updPort d p f s).fabric = s.fabric := by simp [updPort]
@[simp] theorem updPort_badCells (d p : Nat) (f : Port → Port) (s : State) : (updPort d p f s).badCells = s.badCells := by simp [updPort]
@[simp] theorem updPort_owed (d p : Nat) (f : Port → Port) (s : State) : (updPort d p f s).owed = s.owed := by simp [updPort]
@[simp] theorem updPort_nextId (d p : Nat) (f : Port → Port) (s : State) : (updPort d p f s).nextId = s.nextId := by simp [updPort]
@[simp] theorem updPort_agenda (d p : Nat) (f : Port → Port) (s : State) : (updPort d p f s).agenda = s.agenda := by simp [updPort]
@[simp] theorem updPort_timers (d p : Nat) (f : Port → Port) (s : State) : (updPort d p f s).timers = s.timers := by simp [updPort]
@[simp] theorem updPort_inputs (d p : Nat) (f : Port → Port) (s : State) : (updPort d p f s).inputs = s.inputs := by simp [updPort]
@[simp] theorem updPort_wall (d p : Nat) (f : Port → Port) (s : State) : (updPort d p f s).wall = s.wall := by simp [updPort]
@[simp] theorem updPort_nonce (d p : Nat) (f : Port → Port) (s : State) : (updPort d p f s).nonce = s.nonce := by simp [updPort]

end Sys2Proof.Laws
end

