-- ==== Sys2Proof/Laws/Scalar.lean ====
section
/-! SUPPORT. What the shared operations of scalar words do: each lemma says once everything the operation can do when it answers a
next state. -/

namespace Sys2Proof.Laws

open Machine

theorem countEvent_sameCores (code n key : Nat) (s : State) : SameCores s (countEvent code n key s) := by
  intro g
  unfold countEvent
  dsimp only
  split
  · rfl
  · by_cases h : g = key / 4
    · subst h; simp
    · rw [coreAt_updCore_ne _ h]

theorem sameCores_of_cores {s t u : State} (h : SameCores s t) (e : u.cores = t.cores) : SameCores s u := by
  intro g
  have := h g
  simpa [coreAt, e] using this

theorem next4_onlyFocus (s : State) : OnlyFocus s (next4 s) := by
  refine ⟨?_, sameCores_of_cores (countEvent_sameCores 0x002 1 s.curKey s) rfl⟩
  unfold next4 countEvent
  dsimp only
  split <;> rfl

theorem jumpTo_onlyFocus (a : Word) (s : State) : OnlyFocus s (jumpTo a s) := by
  refine ⟨?_, sameCores_of_cores (countEvent_sameCores 0x002 1 s.curKey s) rfl⟩
  unfold jumpTo countEvent
  dsimp only
  split <;> rfl

theorem onlyFocus_of_cur {s t : State} {c : Ctx} (h : OnlyFocus { s with cur := c } t) : OnlyFocus s t := by
  refine ⟨?_, h.2⟩
  have := h.1
  rw [this]

/-- A scalar word behind no open convoy does what its function says. -/
theorem scalarWord_next (f : State → State) {s : State} (h : s.cur.convoy = []) : scalarWord f s = .next (f s) := by
  simp [scalarWord, h]

/-- A word that writes a register: the register holds the value, the pc is past the word, and nothing else has changed. -/
theorem result_next (d : BitVec 5) (v : State → Word) {s : State} (h : s.cur.convoy = []) :
    ∃ t, result d v s = .next t ∧ getX t.cur d = (if d = 0 then 0 else v s) ∧ t.cur.pc = s.cur.pc + 4 ∧ OnlyRegister d s t := by
  have hc : (next4 (wx d (v s) s)).cur = { setX d (v s) s.cur with pc := (setX d (v s) s.cur).pc + 4 } := next4_cur _
  have hp : (setX d (v s) s.cur).pc = s.cur.pc := by unfold setX; split <;> rfl
  refine ⟨next4 (wx d (v s) s), scalarWord_next _ h, ?_, ?_, ?_, ?_, ?_⟩
  · rw [hc]; exact getX_setX_self d (v s) s.cur
  · rw [hc, ← hp]
  · exact onlyFocus_of_cur (next4_onlyFocus (wx d (v s) s))
  · rw [hc]; unfold setX; split <;> rfl
  · intro r hr
    rw [hc]; exact getX_setX_ne hr (v s) s.cur

/-- Counting a miss of the core TLB changes only an event counter. -/
theorem countMiss_onlyFocus (t : Trap) (s : State) : OnlyFocus s (countMiss t s) ∧ (countMiss t s).cur = s.cur := by
  have h : ∀ c n k, OnlyFocus s (countEvent c n k s) ∧ (countEvent c n k s).cur = s.cur := fun c n k =>
    ⟨⟨by unfold countEvent; dsimp only; split <;> rfl, countEvent_sameCores c n k s⟩, countEvent_cur ..⟩
  have k : ∀ c : Bool, OnlyFocus s (if c then countEvent 0x050 1 s.curKey s else s) ∧ (if c then countEvent 0x050 1 s.curKey s else s).cur = s.cur := fun c => by
    cases c
    · exact ⟨⟨rfl, fun _ => rfl⟩, rfl⟩
    · exact h ..
  exact k _

/-- A trap of a scalar word, of every class but a remote page; an access that must wait is none. -/
theorem raise_trapped {t : Trap} (s : State) (h : t.code ≠ 27) (w : t.code ≠ heldCode) : ScalarTrapped t.code t.tval s (raise t s) := by
  obtain ⟨⟨hs, hc⟩, hcur⟩ := countMiss_onlyFocus t s
  unfold raise raiseAt
  rw [if_neg w]
  dsimp only
  rw [if_neg h]
  have hm : (countMiss t s).mem = s.mem := by rw [hs]
  refine ⟨⟨hm, ?_⟩, ⟨?_, sameCores_of_cores hc rfl⟩, ?_, ?_⟩
  · rw [hcur]
    unfold enterTrap
    cases s.cur.priv <;> rfl
  · conv => lhs; rw [hs]
  · rw [hcur]; rfl
  · rw [hcur]; rfl

/-- A word that only goes on. -/
theorem next4_onlyRegister (s : State) : (next4 s).cur.pc = s.cur.pc + 4 ∧ OnlyRegister 0 s (next4 s) := by
  have h : (next4 s).cur = { s.cur with pc := s.cur.pc + 4 } := next4_cur _
  refine ⟨by rw [h], next4_onlyFocus s, by rw [h], ?_⟩
  intro r _
  rw [h]
  rfl

/-- A word that writes a register and goes on at an address. -/
theorem jumpTo_onlyRegister (d : BitVec 5) (v a : Word) (s : State) :
    (jumpTo a (wx d v s)).cur.pc = a ∧ (d ≠ 0 → getX (jumpTo a (wx d v s)).cur d = v) ∧ OnlyRegister d s (jumpTo a (wx d v s)) := by
  have h : (jumpTo a (wx d v s)).cur = { setX d v s.cur with pc := a } := jumpTo_cur _ _
  refine ⟨by rw [h], ?_, onlyFocus_of_cur (jumpTo_onlyFocus a (wx d v s)), ?_, ?_⟩
  · intro hd
    rw [h]
    have := getX_setX_self d v s.cur
    rwa [if_neg hd] at this
  · rw [h]
    unfold setX
    split <;> rfl
  · intro r hr
    rw [h]
    exact getX_setX_ne hr v s.cur

/-- A word that only goes on at an address. -/
theorem jumpTo_onlyRegister_zero (a : Word) (s : State) : (jumpTo a s).cur.pc = a ∧ OnlyRegister 0 s (jumpTo a s) := by
  have h := jumpTo_onlyRegister 0 0 a s
  exact ⟨h.1, h.2.2⟩

end Sys2Proof.Laws
end

