-- ==== Sys2Proof/Laws/Access.lean ====
section
/-! SUPPORT. What translating and making an access changes: TLBs and event counters, and for a store the bytes and the reservations. -/

namespace Sys2Proof.Laws

open Machine

theorem countEvent_eq (code n key : Nat) (s : State) : countEvent code n key s = { s with cores := (countEvent code n key s).cores } := by
  unfold countEvent
  dsimp only
  split <;> rfl

theorem onlyFocusAndTlb_refl (s : State) : OnlyFocusAndTlb s s := ⟨rfl, fun _ => rfl, fun _ => rfl⟩

theorem onlyFocusAndTlb_trans {s t u : State} (h : OnlyFocusAndTlb s t) (g : OnlyFocusAndTlb t u) : OnlyFocusAndTlb s u := by
  refine ⟨?_, fun x => ?_, fun x => ?_⟩
  · rw [g.1, h.1]
  · rw [g.2.1 x, h.2.1 x]
  · rw [g.2.2 x, h.2.2 x]

theorem onlyFocusAndTlb_of_onlyFocus {s t : State} (h : OnlyFocus s t) : OnlyFocusAndTlb s t := by
  refine ⟨?_, fun g => ?_, fun d => ?_⟩
  · rw [h.1]
  · rw [h.2 g]
  · rw [h.1]
    rfl

theorem onlyFocusAndTlb_cur (s : State) (c : Ctx) : OnlyFocusAndTlb s { s with cur := c } := ⟨rfl, fun _ => rfl, fun _ => rfl⟩

theorem onlyFocusAndTlb_updCore (s : State) (g : Nat) (f : Core → Core)
    (hf : ∀ c, f c = { c with tlb := (f c).tlb, counters := (f c).counters }) : OnlyFocusAndTlb s (updCore s g f) := by
  refine ⟨rfl, fun x => ?_, fun _ => rfl⟩
  by_cases h : x = g
  · subst h
    rw [coreAt_updCore_self]
    exact hf _
  · rw [coreAt_updCore_ne _ h]

theorem onlyFocusAndTlb_updDie (s : State) (d : Nat) (f : Die → Die) (hf : ∀ x, f x = { x with tlb := (f x).tlb }) :
    OnlyFocusAndTlb s (updDie s d f) := by
  refine ⟨?_, fun _ => ?_, fun x => ?_⟩
  · unfold updDie setDie
    split <;> rfl
  · unfold updDie setDie
    split <;> rfl
  · by_cases h : x = d
    · subst h
      rw [dieAt_updDie_self]
      exact hf _
    · by_cases h8 : x < 8 ∨ d < 8
      · rw [dieAt_updDie_ne _ _ h h8]
      · have e : dieAt (updDie s d f) x = dieAt (updDie s d f) d := by simp [dieAt, show ¬ x < 8 by omega, show ¬ d < 8 by omega]
        have e' : dieAt s x = dieAt s d := by simp [dieAt, show ¬ x < 8 by omega, show ¬ d < 8 by omega]
        rw [e, e', dieAt_updDie_self]
        exact hf _

/-- Using a translation changes TLBs and event counters. -/
theorem useEntry_onlyTlb (key : Nat) (t : TlbEntry) (src : Source) (s : State) : OnlyFocusAndTlb s (useEntry key t src s) := by
  unfold useEntry
  dsimp only
  have h1 := onlyFocusAndTlb_updCore s (key / 4) (fun c => { c with tlb := (t :: c.tlb.filter (fun u => !(u.part == t.part && u.vbase == t.vbase))).take 256 }) (fun _ => rfl)
  cases src with
  | core => exact h1
  | behind =>
    refine onlyFocusAndTlb_trans h1 (onlyFocusAndTlb_trans ?_ (onlyFocusAndTlb_updDie _ _ _ ?_))
    · rw [countEvent_eq]
      exact ⟨rfl, fun g => by
        have := countEvent_sameCores 0x050 1 key (updCore s (key / 4) (fun c => { c with tlb := (t :: c.tlb.filter (fun u => !(u.part == t.part && u.vbase == t.vbase))).take 256 })) g
        rw [countEvent_eq] at this
        rw [this], fun _ => rfl⟩
    · intro x
      split <;> rfl

theorem useEntry_cur (key : Nat) (t : TlbEntry) (src : Source) (s : State) : (useEntry key t src s).cur = s.cur := by
  unfold useEntry
  cases src <;> simp

theorem useScalar_onlyTlb (key : Nat) (use : Option (TlbEntry × Source)) (s : State) : OnlyFocusAndTlb s (useScalar key use s) := by
  unfold useScalar
  split
  · exact useEntry_onlyTlb ..
  · exact onlyFocusAndTlb_refl s

@[simp] theorem useScalar_cur (key : Nat) (use : Option (TlbEntry × Source)) (s : State) : (useScalar key use s).cur = s.cur := by
  unfold useScalar
  split
  · exact useEntry_cur ..
  · rfl

/-- What has changed only in the focus, TLBs and counters has the same memory and the same uncorrectable errors. -/
theorem onlyFocusAndTlb_mem {s t : State} (h : OnlyFocusAndTlb s t) : t.mem = s.mem ∧ t.badCells = s.badCells ∧ t.curKey = s.curKey ∧ t.parked = s.parked := by
  rw [h.1]
  exact ⟨rfl, rfl, rfl, rfl⟩

end Sys2Proof.Laws
end

