-- ==== Sys2Proof/Laws/Decode.lean ====
section
/-! SUPPORT. The encoder and the decoder agree row by row: the parts of a packed word, and one lemma
per word row that the decoder reads back exactly the fields the encoder laid down. -/

namespace Sys2Proof.Laws

theorem extract_append_low {n m : Nat} (x : BitVec n) (y : BitVec m) : (x ++ y).extractLsb' 0 m = y := by
  ext i h
  simp [BitVec.getLsbD_append, h]

theorem extract_append_high {n m : Nat} (x : BitVec n) (y : BitVec m) (k l : Nat) (h : m ≤ k) :
    (x ++ y).extractLsb' k l = x.extractLsb' (k - m) l := by
  ext i h'
  simp [BitVec.getLsbD_append, show ¬ (k + i < m) by omega, show k + i - m = k - m + i by omega]

theorem extract_whole {n : Nat} (x : BitVec n) : x.extractLsb' 0 n = x := by
  ext i h
  simp

section Parts
variable (f7 : BitVec 7) (b a : BitVec 5) (f3 : BitVec 3) (d : BitVec 5) (op : BitVec 7)

theorem pack_op : (pack f7 b a f3 d op).extractLsb' 0 7 = op := extract_append_low _ op

theorem pack_d : (pack f7 b a f3 d op).extractLsb' 7 5 = d := by
  unfold pack; rw [extract_append_high _ op 7 5 (by decide)]; exact extract_append_low _ d

theorem pack_f3 : (pack f7 b a f3 d op).extractLsb' 12 3 = f3 := by
  unfold pack
  rw [extract_append_high _ op 12 3 (by decide), extract_append_high _ d _ 3 (by decide)]
  exact extract_append_low _ f3

theorem pack_a : (pack f7 b a f3 d op).extractLsb' 15 5 = a := by
  unfold pack
  rw [extract_append_high _ op 15 5 (by decide), extract_append_high _ d _ 5 (by decide),
    extract_append_high _ f3 _ 5 (by decide)]
  exact extract_append_low _ a

theorem pack_b : (pack f7 b a f3 d op).extractLsb' 20 5 = b := by
  unfold pack
  rw [extract_append_high _ op 20 5 (by decide), extract_append_high _ d _ 5 (by decide),
    extract_append_high _ f3 _ 5 (by decide), extract_append_high _ a _ 5 (by decide)]
  exact extract_append_low _ b

theorem pack_f7 : (pack f7 b a f3 d op).extractLsb' 25 7 = f7 := by
  unfold pack
  rw [extract_append_high _ op 25 7 (by decide), extract_append_high _ d _ 7 (by decide),
    extract_append_high _ f3 _ 7 (by decide), extract_append_high _ a _ 7 (by decide),
    extract_append_high _ b _ 7 (by decide)]
  exact extract_whole f7

theorem decode_pack : decode (pack f7 b a f3 d op) = decodeParts f7 b a f3 d op := by
  simp only [decode, pack_op, pack_d, pack_f3, pack_a, pack_b, pack_f7]

end Parts

theorem join_extract {n m : Nat} (i : BitVec (n + m)) : i.extractLsb' m n ++ i.extractLsb' 0 m = i := by
  ext k hk
  rw [BitVec.getElem_append]
  split <;> rename_i h
  · simp [← BitVec.getLsbD_eq_getElem, h]
  · simp [← BitVec.getLsbD_eq_getElem, show k - m < n by omega, show m + (k - m) = k by omega]

theorem join_12 (i : BitVec 12) : (i.extractLsb' 5 7 ++ i.extractLsb' 0 5 : BitVec 12) = i := @join_extract 7 5 i

theorem join_6 (i : BitVec 6) : (i.extractLsb' 5 1 ++ i.extractLsb' 0 5 : BitVec 6) = i := @join_extract 1 5 i

theorem join_20 (u : BitVec 20) :
    (u.extractLsb' 13 7 ++ u.extractLsb' 8 5 ++ u.extractLsb' 3 5 ++ u.extractLsb' 0 3 : BitVec 20) = u := by
  ext k hk
  simp only [BitVec.getElem_append, BitVec.getElem_extractLsb']
  split
  · simp [BitVec.getLsbD_eq_getElem hk]
  · split
    · rename_i h1 h2; simp [← BitVec.getLsbD_eq_getElem, show 3 + (k - 3) = k by omega]
    · split
      · rename_i h1 h2 h3; simp [← BitVec.getLsbD_eq_getElem, show 8 + (k - 3 - 5) = k by omega]
      · rename_i h1 h2 h3; simp [← BitVec.getLsbD_eq_getElem, show 13 + (k - 3 - 5 - 5) = k by omega]

theorem cat12_2 : ∀ (x0 : BitVec 1) (x1 : BitVec 2), (cat12 x0 x1).extractLsb' 2 1 = x0 := by decide
theorem cat12_0 : ∀ (x0 : BitVec 1) (x1 : BitVec 2), (cat12 x0 x1).extractLsb' 0 2 = x1 := by decide
theorem cat21_1 : ∀ (x0 : BitVec 2) (x1 : BitVec 1), (cat21 x0 x1).extractLsb' 1 2 = x0 := by decide
theorem cat21_0 : ∀ (x0 : BitVec 2) (x1 : BitVec 1), (cat21 x0 x1).extractLsb' 0 1 = x1 := by decide
theorem cat14_4 : ∀ (x0 : BitVec 1) (x1 : BitVec 4), (cat14 x0 x1).extractLsb' 4 1 = x0 := by decide
theorem cat14_0 : ∀ (x0 : BitVec 1) (x1 : BitVec 4), (cat14 x0 x1).extractLsb' 0 4 = x1 := by decide
theorem cat221_3 : ∀ (x0 : BitVec 2) (x1 : BitVec 2) (x2 : BitVec 1), (cat221 x0 x1 x2).extractLsb' 3 2 = x0 := by decide
theorem cat221_1 : ∀ (x0 : BitVec 2) (x1 : BitVec 2) (x2 : BitVec 1), (cat221 x0 x1 x2).extractLsb' 1 2 = x1 := by decide
theorem cat221_0 : ∀ (x0 : BitVec 2) (x1 : BitVec 2) (x2 : BitVec 1), (cat221 x0 x1 x2).extractLsb' 0 1 = x2 := by decide
theorem cat23_3 : ∀ (x0 : BitVec 2) (x1 : BitVec 3), (cat23 x0 x1).extractLsb' 3 2 = x0 := by decide
theorem cat23_0 : ∀ (x0 : BitVec 2) (x1 : BitVec 3), (cat23 x0 x1).extractLsb' 0 3 = x1 := by decide
theorem cat32_2 : ∀ (x0 : BitVec 3) (x1 : BitVec 2), (cat32 x0 x1).extractLsb' 2 3 = x0 := by decide
theorem cat32_0 : ∀ (x0 : BitVec 3) (x1 : BitVec 2), (cat32 x0 x1).extractLsb' 0 2 = x1 := by decide
theorem cat16_6 : ∀ (x0 : BitVec 1) (x1 : BitVec 6), (cat16 x0 x1).extractLsb' 6 1 = x0 := by decide
theorem cat16_0 : ∀ (x0 : BitVec 1) (x1 : BitVec 6), (cat16 x0 x1).extractLsb' 0 6 = x1 := by decide
theorem cat43_3 : ∀ (x0 : BitVec 4) (x1 : BitVec 3), (cat43 x0 x1).extractLsb' 3 4 = x0 := by decide
theorem cat43_0 : ∀ (x0 : BitVec 4) (x1 : BitVec 3), (cat43 x0 x1).extractLsb' 0 3 = x1 := by decide
theorem cat511_2 : ∀ (x0 : BitVec 5) (x1 : BitVec 1) (x2 : BitVec 1), (cat511 x0 x1 x2).extractLsb' 2 5 = x0 := by decide
theorem cat511_1 : ∀ (x0 : BitVec 5) (x1 : BitVec 1) (x2 : BitVec 1), (cat511 x0 x1 x2).extractLsb' 1 1 = x1 := by decide
theorem cat511_0 : ∀ (x0 : BitVec 5) (x1 : BitVec 1) (x2 : BitVec 1), (cat511 x0 x1 x2).extractLsb' 0 1 = x2 := by decide
theorem cat52_2 : ∀ (x0 : BitVec 5) (x1 : BitVec 2), (cat52 x0 x1).extractLsb' 2 5 = x0 := by decide
theorem cat52_0 : ∀ (x0 : BitVec 5) (x1 : BitVec 2), (cat52 x0 x1).extractLsb' 0 2 = x1 := by decide
theorem cat61_1 : ∀ (x0 : BitVec 6) (x1 : BitVec 1), (cat61 x0 x1).extractLsb' 1 6 = x0 := by decide
theorem cat61_0 : ∀ (x0 : BitVec 6) (x1 : BitVec 1), (cat61 x0 x1).extractLsb' 0 1 = x1 := by decide

/-- The hints of SY group 110 have f7 64 to 127, which no operation of the group has (R244, R246). -/
theorem hint_apart : ∀ h : BitVec 6, (cat16 1#1 h = 0#7) = False ∧ (cat16 1#1 h = 1#7) = False ∧
    (cat16 1#1 h = 2#7) = False ∧ (cat16 1#1 h = 3#7) = False ∧ (cat16 1#1 h = 4#7) = False ∧
    (cat16 1#1 h).extractLsb' 6 1 = 1#1 ∧ (cat16 1#1 h).extractLsb' 0 6 = h := by decide

end Sys2Proof.Laws
end

