-- ==== Sys2Proof/Laws/Exec.lean ====
section
/-! SUPPORT. What `exec` is on each constructor of `Instr`: the one call that its arm makes. -/

namespace Sys2Proof.Laws

open Machine

theorem exec_powerOnReset {s} : exec (.powerOnReset) s = execPowerOnReset s := rfl
theorem exec_bootlenWrite {len s} : exec (.bootlenWrite len) s = execBootlenWrite len s := rfl
theorem exec_bootImageFetched {image s} : exec (.bootImageFetched image) s = execBootImageFetched image s := rfl
theorem exec_firmwareBringup {runtime s} : exec (.firmwareBringup runtime) s = execFirmwareBringup runtime s := rfl
theorem exec_alarmTrip {causes s} : exec (.alarmTrip causes) s = execAlarmTrip causes s := rfl
theorem exec_keyStoreEraseDone {s} : exec (.keyStoreEraseDone) s = execKeyStoreEraseDone s := rfl
theorem exec_thermalPolicy {die temp s} : exec (.thermalPolicy die temp) s = execThermalPolicy die temp s := rfl
theorem exec_identity {s} : exec (.identity) s = execIdentity s := rfl
theorem exec_attest {nonce s} : exec (.attest nonce) s = execAttest nonce s := rfl
theorem exec_status {s} : exec (.status) s = execStatus s := rfl
theorem exec_logRead {auth die seq s} : exec (.logRead auth die seq) s = execLogRead auth die seq s := rfl
theorem exec_counters {auth die idx set s} : exec (.counters auth die idx set) s = execCounters auth die idx set s := rfl
theorem exec_firmware {auth image s} : exec (.firmware auth image) s = execFirmware auth image s := rfl
theorem exec_partition {auth opc arg0 arg1 s} : exec (.partition auth opc arg0 arg1) s = execPartition auth opc arg0 arg1 s := rfl
theorem exec_step {auth die clock s} : exec (.step auth die clock) s = execStep auth die clock s := rfl
theorem exec_alarm {auth set s} : exec (.alarm auth set) s = execAlarm auth set s := rfl
theorem exec_provision {auth keys s} : exec (.provision auth keys) s = execProvision auth keys s := rfl
theorem exec_supplyRampDone {die s} : exec (.supplyRampDone die) s = execSupplyRampDone die s := rfl
theorem exec_relockEnd {die s} : exec (.relockEnd die) s = execRelockEnd die s := rfl
theorem exec_flitReceive {die port header payload s} : exec (.flitReceive die port header payload) s = execFlitReceive die port header payload s := rfl
theorem exec_linkRetrain {die port s} : exec (.linkRetrain die port) s = execLinkRetrain die port s := rfl
theorem exec_linkDown {die port s} : exec (.linkDown die port) s = execLinkDown die port s := rfl
theorem exec_fabricFrameReceive {port pkg flits s} : exec (.fabricFrameReceive port pkg flits) s = execFabricFrameReceive port pkg flits s := rfl
theorem exec_fabricReplayTimeout {port s} : exec (.fabricReplayTimeout port) s = execFabricReplayTimeout port s := rfl
theorem exec_qctlEnSet {q v s} : exec (.qctlEnSet q v) s = execQctlEnSet q v s := rfl
theorem exec_qctlEnClear {q v s} : exec (.qctlEnClear q v) s = execQctlEnClear q v s := rfl
theorem exec_qctlResume {q v s} : exec (.qctlResume q v) s = execQctlResume q v s := rfl
theorem exec_qctlHold {q v s} : exec (.qctlHold q v) s = execQctlHold q v s := rfl
theorem exec_qctlDisc {q v s} : exec (.qctlDisc q v) s = execQctlDisc q v s := rfl
theorem exec_qdbellWrite {q v s} : exec (.qdbellWrite q v) s = execQdbellWrite q v s := rfl
theorem exec_qaconsWrite {q v s} : exec (.qaconsWrite q v) s = execQaconsWrite q v s := rfl
theorem exec_qwdogWrite {q v s} : exec (.qwdogWrite q v) s = execQwdogWrite q v s := rfl
theorem exec_queueRegisterWrite {q off size v s} : exec (.queueRegisterWrite q off size v) s = execQueueRegisterWrite q off size v s := rfl
theorem exec_slotConsume {q s} : exec (.slotConsume q) s = execSlotConsume q s := rfl
theorem exec_answerEmit {q s} : exec (.answerEmit q) s = execAnswerEmit q s := rfl
theorem exec_nop {q hseq s} : exec (.nop q hseq) s = execNop q hseq s := rfl
theorem exec_pcreate {q hseq s} : exec (.pcreate q hseq) s = execPcreate q hseq s := rfl
theorem exec_pdestroy {q hseq s} : exec (.pdestroy q hseq) s = execPdestroy q hseq s := rfl
theorem exec_qbind {q hseq s} : exec (.qbind q hseq) s = execQbind q hseq s := rfl
theorem exec_pdrain {q hseq s} : exec (.pdrain q hseq) s = execPdrain q hseq s := rfl
theorem exec_rcreate {q hseq s} : exec (.rcreate q hseq) s = execRcreate q hseq s := rfl
theorem exec_grun {q hseq s} : exec (.grun q hseq) s = execGrun q hseq s := rfl
theorem exec_wdog {q hseq s} : exec (.wdog q hseq) s = execWdog q hseq s := rfl
theorem exec_cksave {q hseq s} : exec (.cksave q hseq) s = execCksave q hseq s := rfl
theorem exec_ckload {q hseq s} : exec (.ckload q hseq) s = execCkload q hseq s := rfl
theorem exec_fstep {q hseq s} : exec (.fstep q hseq) s = execFstep q hseq s := rfl
theorem exec_qfence {q hseq s} : exec (.qfence q hseq) s = execQfence q hseq s := rfl
theorem exec_rretire {q hseq s} : exec (.rretire q hseq) s = execRretire q hseq s := rfl
theorem exec_reservedOpcode {q hseq s} : exec (.reservedOpcode q hseq) s = execReservedOpcode q hseq s := rfl
theorem exec_checkpointQuiesced {q hseq s} : exec (.checkpointQuiesced q hseq) s = execCheckpointQuiesced q hseq s := rfl
theorem exec_checkpointCopyComplete {q hseq s} : exec (.checkpointCopyComplete q hseq) s = execCheckpointCopyComplete q hseq s := rfl
theorem exec_checkpointCxlError {q hseq reached s} : exec (.checkpointCxlError q hseq reached) s = execCheckpointCxlError q hseq reached s := rfl
theorem exec_watchdogExpiry {q s} : exec (.watchdogExpiry q) s = execWatchdogExpiry q s := rfl
theorem exec_drainOperationsSettled {part s} : exec (.drainOperationsSettled part) s = execDrainOperationsSettled part s := rfl
theorem exec_regionRetire {part region s} : exec (.regionRetire part region) s = execRegionRetire part region s := rfl
theorem exec_locusWaitingSubmissionEnter {locus s} : exec (.locusWaitingSubmissionEnter locus) s = execLocusWaitingSubmissionEnter locus s := rfl
theorem exec_tenderPriorityRise {locus entry s} : exec (.tenderPriorityRise locus entry) s = execTenderPriorityRise locus entry s := rfl
theorem exec_tenderStart {locus s} : exec (.tenderStart locus) s = execTenderStart locus s := rfl
theorem exec_tenderArrival {locus entry round core s} : exec (.tenderArrival locus entry round core) s = execTenderArrival locus entry round core s := rfl
theorem exec_bidReceive {locus entry round core bid s} : exec (.bidReceive locus entry round core bid) s = execBidReceive locus entry round core bid s := rfl
theorem exec_bidWindowExpiry {locus entry round s} : exec (.bidWindowExpiry locus entry round) s = execBidWindowExpiry locus entry round s := rfl
theorem exec_escalatedTenderReceive {die entry s} : exec (.escalatedTenderReceive die entry) s = execEscalatedTenderReceive die entry s := rfl
theorem exec_hubTenderResult {die entry committed s} : exec (.hubTenderResult die entry committed) s = execHubTenderResult die entry committed s := rfl
theorem exec_awardArrival {locus entry round core s} : exec (.awardArrival locus entry round core) s = execAwardArrival locus entry round core s := rfl
theorem exec_withdrawalReceive {locus entry round core s} : exec (.withdrawalReceive locus entry round core) s = execWithdrawalReceive locus entry round core s := rfl
theorem exec_commitTimeout {locus entry round s} : exec (.commitTimeout locus entry round) s = execCommitTimeout locus entry round s := rfl
theorem exec_commitReceive {locus entry round core s} : exec (.commitReceive locus entry round core) s = execCommitReceive locus entry round core s := rfl
theorem exec_preemptionStopTimeout {ctx s} : exec (.preemptionStopTimeout ctx) s = execPreemptionStopTimeout ctx s := rfl
theorem exec_convoyBoundaryStop {ctx s} : exec (.convoyBoundaryStop ctx) s = execConvoyBoundaryStop ctx s := rfl
theorem exec_saveOwedWritesDelivered {ctx s} : exec (.saveOwedWritesDelivered ctx) s = execSaveOwedWritesDelivered ctx s := rfl
theorem exec_saveImageWritten {ctx s} : exec (.saveImageWritten ctx) s = execSaveImageWritten ctx s := rfl
theorem exec_protectionExpiry {ctx s} : exec (.protectionExpiry ctx) s = execProtectionExpiry ctx s := rfl
theorem exec_retireComplete {ctx s} : exec (.retireComplete ctx) s = execRetireComplete ctx s := rfl
theorem exec_completionObjectUpdate {part region object estat s} : exec (.completionObjectUpdate part region object estat) s = execCompletionObjectUpdate part region object estat s := rfl
theorem exec_predDecrement {part region node core s} : exec (.predDecrement part region node core) s = execPredDecrement part region node core s := rfl
theorem exec_cancellingDecrement {part region node core s} : exec (.cancellingDecrement part region node core) s = execCancellingDecrement part region node core s := rfl
theorem exec_killEnd {part region s} : exec (.killEnd part region) s = execKillEnd part region s := rfl
theorem exec_regionWatchdogExpiry {ctx s} : exec (.regionWatchdogExpiry ctx) s = execRegionWatchdogExpiry ctx s := rfl
theorem exec_poolEmptyRestart {ctx s} : exec (.poolEmptyRestart ctx) s = execPoolEmptyRestart ctx s := rfl
theorem exec_poolEmptyWaitExpiry {ctx s} : exec (.poolEmptyWaitExpiry ctx) s = execPoolEmptyWaitExpiry ctx s := rfl
theorem exec_rayPermitResume {ctx s} : exec (.rayPermitResume ctx) s = execRayPermitResume ctx s := rfl
theorem exec_rayPermitWaitExpiry {ctx s} : exec (.rayPermitWaitExpiry ctx) s = execRayPermitWaitExpiry ctx s := rfl
theorem exec_pageFetchComplete {part page ok s} : exec (.pageFetchComplete part page ok) s = execPageFetchComplete part page ok s := rfl
theorem exec_rangedInvalidationComplete {req s} : exec (.rangedInvalidationComplete req) s = execRangedInvalidationComplete req s := rfl
theorem exec_planeAllocate {ctx units s} : exec (.planeAllocate ctx units) s = execPlaneAllocate ctx units s := rfl
theorem exec_planeFree {ctx offset units s} : exec (.planeFree ctx offset units) s = execPlaneFree ctx offset units s := rfl
theorem exec_pin {ctx base len s} : exec (.pin ctx base len) s = execPin ctx base len s := rfl
theorem exec_unpin {ctx base len s} : exec (.unpin ctx base len) s = execUnpin ctx base len s := rfl
theorem exec_invalidate {ctx base len mode s} : exec (.invalidate ctx base len mode) s = execInvalidate ctx base len mode s := rfl
theorem exec_engineOperationComplete {op s} : exec (.engineOperationComplete op) s = execEngineOperationComplete op s := rfl
theorem exec_writeQueueApply {entry s} : exec (.writeQueueApply entry) s = execWriteQueueApply entry s := rfl
theorem exec_releaseComplete {ctx s} : exec (.releaseComplete ctx) s = execReleaseComplete ctx s := rfl
theorem exec_lrReservationExpiry {ctx s} : exec (.lrReservationExpiry ctx) s = execLrReservationExpiry ctx s := rfl
theorem exec_barrierResume {ctx s} : exec (.barrierResume ctx) s = execBarrierResume ctx s := rfl
theorem exec_tokenArrival {token s} : exec (.tokenArrival token) s = execTokenArrival token s := rfl
theorem exec_illegalEncoding {word s} : exec (.illegalEncoding word) s = execIllegalEncoding word s := rfl
theorem exec_linkTrainingComplete {die port ok s} : exec (.linkTrainingComplete die port ok) s = execLinkTrainingComplete die port ok s := rfl
theorem exec_dieTlbHoldEnd {req s} : exec (.dieTlbHoldEnd req) s = execDieTlbHoldEnd req s := rfl
theorem exec_phaseCountersCleared {ctx phase s} : exec (.phaseCountersCleared ctx phase) s = execPhaseCountersCleared ctx phase s := rfl
theorem exec_debuggerResume {ctx single s} : exec (.debuggerResume ctx single) s = execDebuggerResume ctx single s := rfl
theorem exec_bootSourceNoAnswer {s} : exec (.bootSourceNoAnswer) s = execBootSourceNoAnswer s := rfl
theorem exec_powerFail {s} : exec (.powerFail) s = execPowerFail s := rfl
theorem exec_hostMemoryWrite {addr bytes s} : exec (.hostMemoryWrite addr bytes) s = execHostMemoryWrite addr bytes s := rfl
theorem exec_memoryError {unit addr corrected s} : exec (.memoryError unit addr corrected) s = execMemoryError unit addr corrected s := rfl
theorem exec_vaddVv {c m b a d s} : exec (.vaddVv c m b a d) s = execVaddVv c m b a d s := rfl
theorem exec_vaddVx {c m b a d s} : exec (.vaddVx c m b a d) s = execVaddVx c m b a d s := rfl
theorem exec_vaddVi {c m b i d s} : exec (.vaddVi c m b i d) s = execVaddVi c m b i d s := rfl
theorem exec_vaddVs {m b a d s} : exec (.vaddVs m b a d) s = execVaddVs m b a d s := rfl
theorem exec_vaddRay {c m b a d s} : exec (.vaddRay c m b a d) s = execVaddRay c m b a d s := rfl
theorem exec_vsubVv {c m b a d s} : exec (.vsubVv c m b a d) s = execVsubVv c m b a d s := rfl
theorem exec_vsubVx {c m b a d s} : exec (.vsubVx c m b a d) s = execVsubVx c m b a d s := rfl
theorem exec_vsubVi {c m b i d s} : exec (.vsubVi c m b i d) s = execVsubVi c m b i d s := rfl
theorem exec_vsubVs {m b a d s} : exec (.vsubVs m b a d) s = execVsubVs m b a d s := rfl
theorem exec_vsubRay {c m b a d s} : exec (.vsubRay c m b a d) s = execVsubRay c m b a d s := rfl
theorem exec_vrsubVx {c m b a d s} : exec (.vrsubVx c m b a d) s = execVrsubVx c m b a d s := rfl
theorem exec_vrsubVi {c m b i d s} : exec (.vrsubVi c m b i d) s = execVrsubVi c m b i d s := rfl
theorem exec_vrsubVs {m b a d s} : exec (.vrsubVs m b a d) s = execVrsubVs m b a d s := rfl
theorem exec_vrsubRay {c m b a d s} : exec (.vrsubRay c m b a d) s = execVrsubRay c m b a d s := rfl
theorem exec_vmulVv {c m b a d s} : exec (.vmulVv c m b a d) s = execVmulVv c m b a d s := rfl
theorem exec_vmulVx {c m b a d s} : exec (.vmulVx c m b a d) s = execVmulVx c m b a d s := rfl
theorem exec_vmulVs {m b a d s} : exec (.vmulVs m b a d) s = execVmulVs m b a d s := rfl
theorem exec_vmulRay {c m b a d s} : exec (.vmulRay c m b a d) s = execVmulRay c m b a d s := rfl
theorem exec_vmulhVv {c m b a d s} : exec (.vmulhVv c m b a d) s = execVmulhVv c m b a d s := rfl
theorem exec_vmulhVx {c m b a d s} : exec (.vmulhVx c m b a d) s = execVmulhVx c m b a d s := rfl
theorem exec_vmulhVs {m b a d s} : exec (.vmulhVs m b a d) s = execVmulhVs m b a d s := rfl
theorem exec_vmulhRay {c m b a d s} : exec (.vmulhRay c m b a d) s = execVmulhRay c m b a d s := rfl
theorem exec_vdivVv {c m b a d s} : exec (.vdivVv c m b a d) s = execVdivVv c m b a d s := rfl
theorem exec_vdivVx {c m b a d s} : exec (.vdivVx c m b a d) s = execVdivVx c m b a d s := rfl
theorem exec_vdivVs {m b a d s} : exec (.vdivVs m b a d) s = execVdivVs m b a d s := rfl
theorem exec_vdivRay {c m b a d s} : exec (.vdivRay c m b a d) s = execVdivRay c m b a d s := rfl
theorem exec_vremVv {c m b a d s} : exec (.vremVv c m b a d) s = execVremVv c m b a d s := rfl
theorem exec_vremVx {c m b a d s} : exec (.vremVx c m b a d) s = execVremVx c m b a d s := rfl
theorem exec_vremVs {m b a d s} : exec (.vremVs m b a d) s = execVremVs m b a d s := rfl
theorem exec_vremRay {c m b a d s} : exec (.vremRay c m b a d) s = execVremRay c m b a d s := rfl
theorem exec_vminVv {c m b a d s} : exec (.vminVv c m b a d) s = execVminVv c m b a d s := rfl
theorem exec_vminVx {c m b a d s} : exec (.vminVx c m b a d) s = execVminVx c m b a d s := rfl
theorem exec_vminVi {c m b i d s} : exec (.vminVi c m b i d) s = execVminVi c m b i d s := rfl
theorem exec_vminVs {m b a d s} : exec (.vminVs m b a d) s = execVminVs m b a d s := rfl
theorem exec_vminRay {c m b a d s} : exec (.vminRay c m b a d) s = execVminRay c m b a d s := rfl
theorem exec_vmaxVv {c m b a d s} : exec (.vmaxVv c m b a d) s = execVmaxVv c m b a d s := rfl
theorem exec_vmaxVx {c m b a d s} : exec (.vmaxVx c m b a d) s = execVmaxVx c m b a d s := rfl
theorem exec_vmaxVi {c m b i d s} : exec (.vmaxVi c m b i d) s = execVmaxVi c m b i d s := rfl
theorem exec_vmaxVs {m b a d s} : exec (.vmaxVs m b a d) s = execVmaxVs m b a d s := rfl
theorem exec_vmaxRay {c m b a d s} : exec (.vmaxRay c m b a d) s = execVmaxRay c m b a d s := rfl
theorem exec_vandVv {c m b a d s} : exec (.vandVv c m b a d) s = execVandVv c m b a d s := rfl
theorem exec_vandVx {c m b a d s} : exec (.vandVx c m b a d) s = execVandVx c m b a d s := rfl
theorem exec_vandVi {c m b i d s} : exec (.vandVi c m b i d) s = execVandVi c m b i d s := rfl
theorem exec_vandVs {m b a d s} : exec (.vandVs m b a d) s = execVandVs m b a d s := rfl
theorem exec_vandRay {c m b a d s} : exec (.vandRay c m b a d) s = execVandRay c m b a d s := rfl
theorem exec_vorVv {c m b a d s} : exec (.vorVv c m b a d) s = execVorVv c m b a d s := rfl
theorem exec_vorVx {c m b a d s} : exec (.vorVx c m b a d) s = execVorVx c m b a d s := rfl
theorem exec_vorVi {c m b i d s} : exec (.vorVi c m b i d) s = execVorVi c m b i d s := rfl
theorem exec_vorVs {m b a d s} : exec (.vorVs m b a d) s = execVorVs m b a d s := rfl
theorem exec_vorRay {c m b a d s} : exec (.vorRay c m b a d) s = execVorRay c m b a d s := rfl
theorem exec_vxorVv {c m b a d s} : exec (.vxorVv c m b a d) s = execVxorVv c m b a d s := rfl
theorem exec_vxorVx {c m b a d s} : exec (.vxorVx c m b a d) s = execVxorVx c m b a d s := rfl
theorem exec_vxorVi {c m b i d s} : exec (.vxorVi c m b i d) s = execVxorVi c m b i d s := rfl
theorem exec_vxorVs {m b a d s} : exec (.vxorVs m b a d) s = execVxorVs m b a d s := rfl
theorem exec_vxorRay {c m b a d s} : exec (.vxorRay c m b a d) s = execVxorRay c m b a d s := rfl
theorem exec_vsllVv {c m b a d s} : exec (.vsllVv c m b a d) s = execVsllVv c m b a d s := rfl
theorem exec_vsllVx {c m b a d s} : exec (.vsllVx c m b a d) s = execVsllVx c m b a d s := rfl
theorem exec_vsllVi {c m b i d s} : exec (.vsllVi c m b i d) s = execVsllVi c m b i d s := rfl
theorem exec_vsllVs {m b a d s} : exec (.vsllVs m b a d) s = execVsllVs m b a d s := rfl
theorem exec_vsllRay {c m b a d s} : exec (.vsllRay c m b a d) s = execVsllRay c m b a d s := rfl
theorem exec_vsrlVv {c m b a d s} : exec (.vsrlVv c m b a d) s = execVsrlVv c m b a d s := rfl
theorem exec_vsrlVx {c m b a d s} : exec (.vsrlVx c m b a d) s = execVsrlVx c m b a d s := rfl
theorem exec_vsrlVi {c m b i d s} : exec (.vsrlVi c m b i d) s = execVsrlVi c m b i d s := rfl
theorem exec_vsrlVs {m b a d s} : exec (.vsrlVs m b a d) s = execVsrlVs m b a d s := rfl
theorem exec_vsrlRay {c m b a d s} : exec (.vsrlRay c m b a d) s = execVsrlRay c m b a d s := rfl
theorem exec_vsraVv {c m b a d s} : exec (.vsraVv c m b a d) s = execVsraVv c m b a d s := rfl
theorem exec_vsraVx {c m b a d s} : exec (.vsraVx c m b a d) s = execVsraVx c m b a d s := rfl
theorem exec_vsraVi {c m b i d s} : exec (.vsraVi c m b i d) s = execVsraVi c m b i d s := rfl
theorem exec_vsraVs {m b a d s} : exec (.vsraVs m b a d) s = execVsraVs m b a d s := rfl
theorem exec_vsraRay {c m b a d s} : exec (.vsraRay c m b a d) s = execVsraRay c m b a d s := rfl
theorem exec_vfmaVv {c m b a d s} : exec (.vfmaVv c m b a d) s = execVfmaVv c m b a d s := rfl
theorem exec_vfmaVx {c m b a d s} : exec (.vfmaVx c m b a d) s = execVfmaVx c m b a d s := rfl
theorem exec_vfmaVs {m b a d s} : exec (.vfmaVs m b a d) s = execVfmaVs m b a d s := rfl
theorem exec_vfmaRay {c m b a d s} : exec (.vfmaRay c m b a d) s = execVfmaRay c m b a d s := rfl
theorem exec_vfmsVv {c m b a d s} : exec (.vfmsVv c m b a d) s = execVfmsVv c m b a d s := rfl
theorem exec_vfmsVx {c m b a d s} : exec (.vfmsVx c m b a d) s = execVfmsVx c m b a d s := rfl
theorem exec_vfmsVs {m b a d s} : exec (.vfmsVs m b a d) s = execVfmsVs m b a d s := rfl
theorem exec_vfmsRay {c m b a d s} : exec (.vfmsRay c m b a d) s = execVfmsRay c m b a d s := rfl
theorem exec_vfnmaVv {c m b a d s} : exec (.vfnmaVv c m b a d) s = execVfnmaVv c m b a d s := rfl
theorem exec_vfnmaVx {c m b a d s} : exec (.vfnmaVx c m b a d) s = execVfnmaVx c m b a d s := rfl
theorem exec_vfnmaVs {m b a d s} : exec (.vfnmaVs m b a d) s = execVfnmaVs m b a d s := rfl
theorem exec_vfnmaRay {c m b a d s} : exec (.vfnmaRay c m b a d) s = execVfnmaRay c m b a d s := rfl
theorem exec_vsaddVv {c m b a d s} : exec (.vsaddVv c m b a d) s = execVsaddVv c m b a d s := rfl
theorem exec_vsaddVx {c m b a d s} : exec (.vsaddVx c m b a d) s = execVsaddVx c m b a d s := rfl
theorem exec_vsaddVi {c m b i d s} : exec (.vsaddVi c m b i d) s = execVsaddVi c m b i d s := rfl
theorem exec_vsaddVs {m b a d s} : exec (.vsaddVs m b a d) s = execVsaddVs m b a d s := rfl
theorem exec_vsaddRay {c m b a d s} : exec (.vsaddRay c m b a d) s = execVsaddRay c m b a d s := rfl
theorem exec_vssubVv {c m b a d s} : exec (.vssubVv c m b a d) s = execVssubVv c m b a d s := rfl
theorem exec_vssubVx {c m b a d s} : exec (.vssubVx c m b a d) s = execVssubVx c m b a d s := rfl
theorem exec_vssubVi {c m b i d s} : exec (.vssubVi c m b i d) s = execVssubVi c m b i d s := rfl
theorem exec_vssubVs {m b a d s} : exec (.vssubVs m b a d) s = execVssubVs m b a d s := rfl
theorem exec_vssubRay {c m b a d s} : exec (.vssubRay c m b a d) s = execVssubRay c m b a d s := rfl
theorem exec_vceq {c m b a p s} : exec (.vceq c m b a p) s = execVceq c m b a p s := rfl
theorem exec_vcne {c m b a p s} : exec (.vcne c m b a p) s = execVcne c m b a p s := rfl
theorem exec_vcequ {c m b a p s} : exec (.vcequ c m b a p) s = execVcequ c m b a p s := rfl
theorem exec_vcneu {c m b a p s} : exec (.vcneu c m b a p) s = execVcneu c m b a p s := rfl
theorem exec_vclt {c m b a p s} : exec (.vclt c m b a p) s = execVclt c m b a p s := rfl
theorem exec_vcnlt {c m b a p s} : exec (.vcnlt c m b a p) s = execVcnlt c m b a p s := rfl
theorem exec_vcltu {c m b a p s} : exec (.vcltu c m b a p) s = execVcltu c m b a p s := rfl
theorem exec_vcnltu {c m b a p s} : exec (.vcnltu c m b a p) s = execVcnltu c m b a p s := rfl
theorem exec_vcle {c m b a p s} : exec (.vcle c m b a p) s = execVcle c m b a p s := rfl
theorem exec_vcnle {c m b a p s} : exec (.vcnle c m b a p) s = execVcnle c m b a p s := rfl
theorem exec_vcleu {c m b a p s} : exec (.vcleu c m b a p) s = execVcleu c m b a p s := rfl
theorem exec_vcnleu {c m b a p s} : exec (.vcnleu c m b a p) s = execVcnleu c m b a p s := rfl
theorem exec_vcun {c m b a p s} : exec (.vcun c m b a p) s = execVcun c m b a p s := rfl
theorem exec_vcord {c m b a p s} : exec (.vcord c m b a p) s = execVcord c m b a p s := rfl
theorem exec_vcsn {c m a p s} : exec (.vcsn c m a p) s = execVcsn c m a p s := rfl
theorem exec_vcnsn {c m a p s} : exec (.vcnsn c m a p) s = execVcnsn c m a p s := rfl
theorem exec_vsel {c b a d s} : exec (.vsel c b a d) s = execVsel c b a d s := rfl
theorem exec_vmvVx {c m a d s} : exec (.vmvVx c m a d) s = execVmvVx c m a d s := rfl
theorem exec_vmvVi {c m i d s} : exec (.vmvVi c m i d) s = execVmvVi c m i d s := rfl
theorem exec_vmvX {a d s} : exec (.vmvX a d) s = execVmvX a d s := rfl
theorem exec_vmvVv {c m a d s} : exec (.vmvVv c m a d) s = execVmvVv c m a d s := rfl
theorem exec_vcvt {c m t a d s} : exec (.vcvt c m t a d) s = execVcvt c m t a d s := rfl
theorem exec_vcvts {c m t a d s} : exec (.vcvts c m t a d) s = execVcvts c m t a d s := rfl
theorem exec_vneg {c m a d s} : exec (.vneg c m a d) s = execVneg c m a d s := rfl
theorem exec_vabs {c m a d s} : exec (.vabs c m a d) s = execVabs c m a d s := rfl
theorem exec_vsqrt {c m a d s} : exec (.vsqrt c m a d) s = execVsqrt c m a d s := rfl
theorem exec_vrcpe {c m a d s} : exec (.vrcpe c m a d) s = execVrcpe c m a d s := rfl
theorem exec_vrsqe {c m a d s} : exec (.vrsqe c m a d) s = execVrsqe c m a d s := rfl
theorem exec_vexp2 {c m a d s} : exec (.vexp2 c m a d) s = execVexp2 c m a d s := rfl
theorem exec_vlog2 {c m a d s} : exec (.vlog2 c m a d) s = execVlog2 c m a d s := rfl
theorem exec_vclz {c m a d s} : exec (.vclz c m a d) s = execVclz c m a d s := rfl
theorem exec_vpopc {c m a d s} : exec (.vpopc c m a d) s = execVpopc c m a d s := rfl
theorem exec_vbrev {c m a d s} : exec (.vbrev c m a d) s = execVbrev c m a d s := rfl
theorem exec_vclass {c m a d s} : exec (.vclass c m a d) s = execVclass c m a d s := rfl
theorem exec_vredsum {m b a d s} : exec (.vredsum m b a d) s = execVredsum m b a d s := rfl
theorem exec_vredosum {m b a d s} : exec (.vredosum m b a d) s = execVredosum m b a d s := rfl
theorem exec_vredmin {m b a d s} : exec (.vredmin m b a d) s = execVredmin m b a d s := rfl
theorem exec_vredmax {m b a d s} : exec (.vredmax m b a d) s = execVredmax m b a d s := rfl
theorem exec_vredand {m b a d s} : exec (.vredand m b a d) s = execVredand m b a d s := rfl
theorem exec_vredor {m b a d s} : exec (.vredor m b a d) s = execVredor m b a d s := rfl
theorem exec_vredxor {m b a d s} : exec (.vredxor m b a d) s = execVredxor m b a d s := rfl
theorem exec_vargmax {m b d s} : exec (.vargmax m b d) s = execVargmax m b d s := rfl
theorem exec_vcompress {b d s} : exec (.vcompress b d) s = execVcompress b d s := rfl
theorem exec_vexpand {b d s} : exec (.vexpand b d) s = execVexpand b d s := rfl
theorem exec_vpcnt {m a d s} : exec (.vpcnt m a d) s = execVpcnt m a d s := rfl
theorem exec_vconfl {m a d s} : exec (.vconfl m a d) s = execVconfl m a d s := rfl
theorem exec_vslideup {m b a d s} : exec (.vslideup m b a d) s = execVslideup m b a d s := rfl
theorem exec_vslidedn {m b a d s} : exec (.vslidedn m b a d) s = execVslidedn m b a d s := rfl
theorem exec_vperm {m b a d s} : exec (.vperm m b a d) s = execVperm m b a d s := rfl
theorem exec_viota {m a d s} : exec (.viota m a d) s = execViota m a d s := rfl
theorem exec_vsscanAdd {b d s} : exec (.vsscanAdd b d) s = execVsscanAdd b d s := rfl
theorem exec_vsscanMin {b d s} : exec (.vsscanMin b d) s = execVsscanMin b d s := rfl
theorem exec_vsscanMax {b d s} : exec (.vsscanMax b d) s = execVsscanMax b d s := rfl
theorem exec_vsscanOr {b d s} : exec (.vsscanOr b d) s = execVsscanOr b d s := rfl
theorem exec_vtopk {m b a d s} : exec (.vtopk m b a d) s = execVtopk m b a d s := rfl
theorem exec_vinter {m b a d s} : exec (.vinter m b a d) s = execVinter m b a d s := rfl
theorem exec_vsortk {m a d s} : exec (.vsortk m a d) s = execVsortk m a d s := rfl
theorem exec_pand {c b a d s} : exec (.pand c b a d) s = execPand c b a d s := rfl
theorem exec_por {c b a d s} : exec (.por c b a d) s = execPor c b a d s := rfl
theorem exec_pxor {c b a d s} : exec (.pxor c b a d) s = execPxor c b a d s := rfl
theorem exec_pnot {c a d s} : exec (.pnot c a d) s = execPnot c a d s := rfl
theorem exec_pmov {c a d s} : exec (.pmov c a d) s = execPmov c a d s := rfl
theorem exec_pcnt {c a d s} : exec (.pcnt c a d) s = execPcnt c a d s := rfl
theorem exec_pfirst {c a d s} : exec (.pfirst c a d) s = execPfirst c a d s := rfl
theorem exec_vldUnit {c m a d s} : exec (.vldUnit c m a d) s = execVldUnit c m a d s := rfl
theorem exec_vldStrided {c m b a d s} : exec (.vldStrided c m b a d) s = execVldStrided c m b a d s := rfl
theorem exec_vldIndexed {m b a d s} : exec (.vldIndexed m b a d) s = execVldIndexed m b a d s := rfl
theorem exec_vldffUnit {c m a d s} : exec (.vldffUnit c m a d) s = execVldffUnit c m a d s := rfl
theorem exec_vldffStrided {c m b a d s} : exec (.vldffStrided c m b a d) s = execVldffStrided c m b a d s := rfl
theorem exec_vldffIndexed {m b a d s} : exec (.vldffIndexed m b a d) s = execVldffIndexed m b a d s := rfl
theorem exec_vstUnit {c m a sc s} : exec (.vstUnit c m a sc) s = execVstUnit c m a sc s := rfl
theorem exec_vstStrided {c m b a sc s} : exec (.vstStrided c m b a sc) s = execVstStrided c m b a sc s := rfl
theorem exec_vstIndexed {m b a sc s} : exec (.vstIndexed m b a sc) s = execVstIndexed m b a sc s := rfl
theorem exec_vstn {c m b a sc s} : exec (.vstn c m b a sc) s = execVstn c m b a sc s := rfl
theorem exec_vrsAddUnit {c m a sc s} : exec (.vrsAddUnit c m a sc) s = execVrsAddUnit c m a sc s := rfl
theorem exec_vrsAddIndexed {c m b a sc s} : exec (.vrsAddIndexed c m b a sc) s = execVrsAddIndexed c m b a sc s := rfl
theorem exec_vrsMinUnit {c m a sc s} : exec (.vrsMinUnit c m a sc) s = execVrsMinUnit c m a sc s := rfl
theorem exec_vrsMinIndexed {c m b a sc s} : exec (.vrsMinIndexed c m b a sc) s = execVrsMinIndexed c m b a sc s := rfl
theorem exec_vrsMaxUnit {c m a sc s} : exec (.vrsMaxUnit c m a sc) s = execVrsMaxUnit c m a sc s := rfl
theorem exec_vrsMaxIndexed {c m b a sc s} : exec (.vrsMaxIndexed c m b a sc) s = execVrsMaxIndexed c m b a sc s := rfl
theorem exec_vrsOrUnit {c m a sc s} : exec (.vrsOrUnit c m a sc) s = execVrsOrUnit c m a sc s := rfl
theorem exec_vrsOrIndexed {c m b a sc s} : exec (.vrsOrIndexed c m b a sc) s = execVrsOrIndexed c m b a sc s := rfl
theorem exec_vspill {a sc s} : exec (.vspill a sc) s = execVspill a sc s := rfl
theorem exec_vfill {a d s} : exec (.vfill a d) s = execVfill a d s := rfl
theorem exec_vprep {b a d s} : exec (.vprep b a d) s = execVprep b a d s := rfl
theorem exec_vtrimh {b a d s} : exec (.vtrimh b a d) s = execVtrimh b a d s := rfl
theorem exec_vtrimt {b a d s} : exec (.vtrimt b a d) s = execVtrimt b a d s := rfl
theorem exec_vsplit {b a d s} : exec (.vsplit b a d) s = execVsplit b a d s := rfl
theorem exec_vjoin {b a d s} : exec (.vjoin b a d) s = execVjoin b a d s := rfl
theorem exec_vshare {a d s} : exec (.vshare a d) s = execVshare a d s := rfl
theorem exec_vretype {t a d s} : exec (.vretype t a d) s = execVretype t a d s := rfl
theorem exec_vlen {a d s} : exec (.vlen a d) s = execVlen a d s := rfl
theorem exec_vfree {d s} : exec (.vfree d) s = execVfree d s := rfl
theorem exec_vnorm {a d s} : exec (.vnorm a d) s = execVnorm a d s := rfl
theorem exec_fclaim {b a d s} : exec (.fclaim b a d) s = execFclaim b a d s := rfl
theorem exec_frel {s} : exec (.frel) s = execFrel s := rfl
theorem exec_fins {m b a p s} : exec (.fins m b a p) s = execFins m b a p s := rfl
theorem exec_fprobe {m b a p d s} : exec (.fprobe m b a p d) s = execFprobe m b a p d s := rfl
theorem exec_fdel {m a p s} : exec (.fdel m a p) s = execFdel m a p s := rfl
theorem exec_faccAdd {m p a d s} : exec (.faccAdd m p a d) s = execFaccAdd m p a d s := rfl
theorem exec_faccMin {m p a d s} : exec (.faccMin m p a d) s = execFaccMin m p a d s := rfl
theorem exec_faccMax {m p a d s} : exec (.faccMax m p a d) s = execFaccMax m p a d s := rfl
theorem exec_faccOr {m p a d s} : exec (.faccOr m p a d) s = execFaccOr m p a d s := rfl
theorem exec_faccCount {m p a d s} : exec (.faccCount m p a d) s = execFaccCount m p a d s := rfl
theorem exec_fdrain {b d s} : exec (.fdrain b d) s = execFdrain b d s := rfl
theorem exec_mset {b a f d s} : exec (.mset b a f d) s = execMset b a f d s := rfl
theorem exec_mld {b a d s} : exec (.mld b a d) s = execMld b a d s := rfl
theorem exec_mldff {b a d s} : exec (.mldff b a d) s = execMldff b a d s := rfl
theorem exec_mst {b a d s} : exec (.mst b a d) s = execMst b a d s := rfl
theorem exec_mzero {t s} : exec (.mzero t) s = execMzero t s := rfl
theorem exec_mop {c b a f s} : exec (.mop c b a f) s = execMop c b a f s := rfl
theorem exec_msca {c b a s} : exec (.msca c b a) s = execMsca c b a s := rfl
theorem exec_mrowIn {b a f d s} : exec (.mrowIn b a f d) s = execMrowIn b a f d s := rfl
theorem exec_mrowOut {b a f d s} : exec (.mrowOut b a f d) s = execMrowOut b a f d s := rfl
theorem exec_maccOut {c b a f d s} : exec (.maccOut c b a f d) s = execMaccOut c b a f d s := rfl
theorem exec_mgang {a d s} : exec (.mgang a d) s = execMgang a d s := rfl
theorem exec_mbcast {b a s} : exec (.mbcast b a) s = execMbcast b a s := rfl
theorem exec_vsmine {o k n s} : exec (.vsmine o k n) s = execVsmine o k n s := rfl
theorem exec_vsetl {t a d s} : exec (.vsetl t a d) s = execVsetl t a d s := rfl
theorem exec_vcollapse {a d s} : exec (.vcollapse a d) s = execVcollapse a d s := rfl
theorem exec_fenceSv {sc s} : exec (.fenceSv sc) s = execFenceSv sc s := rfl
theorem exec_fenceVs {sc s} : exec (.fenceVs sc) s = execFenceVs sc s := rfl
theorem exec_fenceVv {sc s} : exec (.fenceVv sc) s = execFenceVv sc s := rfl
theorem exec_rel {sc s} : exec (.rel sc) s = execRel sc s := rfl
theorem exec_acq {sc s} : exec (.acq sc) s = execAcq sc s := rfl
theorem exec_ccopy {b a d s} : exec (.ccopy b a d) s = execCcopy b a d s := rfl
theorem exec_cwait {b a d s} : exec (.cwait b a d) s = execCwait b a d s := rfl
theorem exec_ctest {b a d s} : exec (.ctest b a d) s = execCtest b a d s := rfl
theorem exec_rayOpen {b a d s} : exec (.rayOpen b a d) s = execRayOpen b a d s := rfl
theorem exec_rayClose {a s} : exec (.rayClose a) s = execRayClose a s := rfl
theorem exec_rayGrant {b a s} : exec (.rayGrant b a) s = execRayGrant b a s := rfl
theorem exec_vsend {b a s} : exec (.vsend b a) s = execVsend b a s := rfl
theorem exec_rayRecv {a d s} : exec (.rayRecv a d) s = execRayRecv a d s := rfl
theorem exec_vroute {b a d s} : exec (.vroute b a d) s = execVroute b a d s := rfl
theorem exec_barInit {b a d s} : exec (.barInit b a d) s = execBarInit b a d s := rfl
theorem exec_barArrive {a s} : exec (.barArrive a) s = execBarArrive a s := rfl
theorem exec_barWait {a d s} : exec (.barWait a d) s = execBarWait a d s := rfl
theorem exec_collAdd {b a d s} : exec (.collAdd b a d) s = execCollAdd b a d s := rfl
theorem exec_collMin {b a d s} : exec (.collMin b a d) s = execCollMin b a d s := rfl
theorem exec_collMax {b a d s} : exec (.collMax b a d) s = execCollMax b a d s := rfl
theorem exec_collOr {b a d s} : exec (.collOr b a d) s = execCollOr b a d s := rfl
theorem exec_tsub {a d s} : exec (.tsub a d) s = execTsub a d s := rfl
theorem exec_tdone {s} : exec (.tdone) s = execTdone s := rfl
theorem exec_tyield {s} : exec (.tyield) s = execTyield s := rfl
theorem exec_twait {b a d s} : exec (.twait b a d) s = execTwait b a d s := rfl
theorem exec_tkill {a d s} : exec (.tkill a d) s = execTkill a d s := rfl
theorem exec_qseg {a d s} : exec (.qseg a d) s = execQseg a d s := rfl
theorem exec_qctx {a d s} : exec (.qctx a d) s = execQctx a d s := rfl
theorem exec_tlbdrop {b a s} : exec (.tlbdrop b a) s = execTlbdrop b a s := rfl
theorem exec_cflush {b a s} : exec (.cflush b a) s = execCflush b a s := rfl
theorem exec_evfrz {a s} : exec (.evfrz a) s = execEvfrz a s := rfl
theorem exec_syHint {h b a s} : exec (.syHint h b a) s = execSyHint h b a s := rfl
theorem exec_bfx {e b a d s} : exec (.bfx e b a d) s = execBfx e b a d s := rfl
theorem exec_bfxs {e b a d s} : exec (.bfxs e b a d) s = execBfxs e b a d s := rfl
theorem exec_bfi {e b a d s} : exec (.bfi e b a d) s = execBfi e b a d s := rfl
theorem exec_lui {u d s} : exec (.lui u d) s = execLui u d s := rfl
theorem exec_auipc {u d s} : exec (.auipc u d) s = execAuipc u d s := rfl
theorem exec_jal {j d s} : exec (.jal j d) s = execJal j d s := rfl
theorem exec_jalr {i a d s} : exec (.jalr i a d) s = execJalr i a d s := rfl
theorem exec_beq {h b a l s} : exec (.beq h b a l) s = execBeq h b a l s := rfl
theorem exec_bne {h b a l s} : exec (.bne h b a l) s = execBne h b a l s := rfl
theorem exec_blt {h b a l s} : exec (.blt h b a l) s = execBlt h b a l s := rfl
theorem exec_bge {h b a l s} : exec (.bge h b a l) s = execBge h b a l s := rfl
theorem exec_bltu {h b a l s} : exec (.bltu h b a l) s = execBltu h b a l s := rfl
theorem exec_bgeu {h b a l s} : exec (.bgeu h b a l) s = execBgeu h b a l s := rfl
theorem exec_lb {i a d s} : exec (.lb i a d) s = execLb i a d s := rfl
theorem exec_lh {i a d s} : exec (.lh i a d) s = execLh i a d s := rfl
theorem exec_lw {i a d s} : exec (.lw i a d) s = execLw i a d s := rfl
theorem exec_ld {i a d s} : exec (.ld i a d) s = execLd i a d s := rfl
theorem exec_lbu {i a d s} : exec (.lbu i a d) s = execLbu i a d s := rfl
theorem exec_lhu {i a d s} : exec (.lhu i a d) s = execLhu i a d s := rfl
theorem exec_lwu {i a d s} : exec (.lwu i a d) s = execLwu i a d s := rfl
theorem exec_sb {h b a l s} : exec (.sb h b a l) s = execSb h b a l s := rfl
theorem exec_sh {h b a l s} : exec (.sh h b a l) s = execSh h b a l s := rfl
theorem exec_sw {h b a l s} : exec (.sw h b a l) s = execSw h b a l s := rfl
theorem exec_sd {h b a l s} : exec (.sd h b a l) s = execSd h b a l s := rfl
theorem exec_addi {i a d s} : exec (.addi i a d) s = execAddi i a d s := rfl
theorem exec_slti {i a d s} : exec (.slti i a d) s = execSlti i a d s := rfl
theorem exec_sltiu {i a d s} : exec (.sltiu i a d) s = execSltiu i a d s := rfl
theorem exec_xori {i a d s} : exec (.xori i a d) s = execXori i a d s := rfl
theorem exec_ori {i a d s} : exec (.ori i a d) s = execOri i a d s := rfl
theorem exec_andi {i a d s} : exec (.andi i a d) s = execAndi i a d s := rfl
theorem exec_slli {h a d s} : exec (.slli h a d) s = execSlli h a d s := rfl
theorem exec_srli {h a d s} : exec (.srli h a d) s = execSrli h a d s := rfl
theorem exec_srai {h a d s} : exec (.srai h a d) s = execSrai h a d s := rfl
theorem exec_add {b a d s} : exec (.add b a d) s = execAdd b a d s := rfl
theorem exec_sub {b a d s} : exec (.sub b a d) s = execSub b a d s := rfl
theorem exec_sll {b a d s} : exec (.sll b a d) s = execSll b a d s := rfl
theorem exec_slt {b a d s} : exec (.slt b a d) s = execSlt b a d s := rfl
theorem exec_sltu {b a d s} : exec (.sltu b a d) s = execSltu b a d s := rfl
theorem exec_xor {b a d s} : exec (.xor b a d) s = execXor b a d s := rfl
theorem exec_srl {b a d s} : exec (.srl b a d) s = execSrl b a d s := rfl
theorem exec_sra {b a d s} : exec (.sra b a d) s = execSra b a d s := rfl
theorem exec_or {b a d s} : exec (.or b a d) s = execOr b a d s := rfl
theorem exec_and {b a d s} : exec (.and b a d) s = execAnd b a d s := rfl
theorem exec_mul {b a d s} : exec (.mul b a d) s = execMul b a d s := rfl
theorem exec_mulh {b a d s} : exec (.mulh b a d) s = execMulh b a d s := rfl
theorem exec_mulhsu {b a d s} : exec (.mulhsu b a d) s = execMulhsu b a d s := rfl
theorem exec_mulhu {b a d s} : exec (.mulhu b a d) s = execMulhu b a d s := rfl
theorem exec_div {b a d s} : exec (.div b a d) s = execDiv b a d s := rfl
theorem exec_divu {b a d s} : exec (.divu b a d) s = execDivu b a d s := rfl
theorem exec_rem {b a d s} : exec (.rem b a d) s = execRem b a d s := rfl
theorem exec_remu {b a d s} : exec (.remu b a d) s = execRemu b a d s := rfl
theorem exec_addiw {i a d s} : exec (.addiw i a d) s = execAddiw i a d s := rfl
theorem exec_slliw {h a d s} : exec (.slliw h a d) s = execSlliw h a d s := rfl
theorem exec_srliw {h a d s} : exec (.srliw h a d) s = execSrliw h a d s := rfl
theorem exec_sraiw {h a d s} : exec (.sraiw h a d) s = execSraiw h a d s := rfl
theorem exec_addw {b a d s} : exec (.addw b a d) s = execAddw b a d s := rfl
theorem exec_subw {b a d s} : exec (.subw b a d) s = execSubw b a d s := rfl
theorem exec_sllw {b a d s} : exec (.sllw b a d) s = execSllw b a d s := rfl
theorem exec_srlw {b a d s} : exec (.srlw b a d) s = execSrlw b a d s := rfl
theorem exec_sraw {b a d s} : exec (.sraw b a d) s = execSraw b a d s := rfl
theorem exec_mulw {b a d s} : exec (.mulw b a d) s = execMulw b a d s := rfl
theorem exec_divw {b a d s} : exec (.divw b a d) s = execDivw b a d s := rfl
theorem exec_divuw {b a d s} : exec (.divuw b a d) s = execDivuw b a d s := rfl
theorem exec_remw {b a d s} : exec (.remw b a d) s = execRemw b a d s := rfl
theorem exec_remuw {b a d s} : exec (.remuw b a d) s = execRemuw b a d s := rfl
theorem exec_fence {i a d s} : exec (.fence i a d) s = execFence i a d s := rfl
theorem exec_fenceI {i a d s} : exec (.fenceI i a d) s = execFenceI i a d s := rfl
theorem exec_lr {q r a w d s} : exec (.lr q r a w d) s = execLr q r a w d s := rfl
theorem exec_sc {q r b a w d s} : exec (.sc q r b a w d) s = execSc q r b a w d s := rfl
theorem exec_amoswap {q r b a w d s} : exec (.amoswap q r b a w d) s = execAmoswap q r b a w d s := rfl
theorem exec_amoadd {q r b a w d s} : exec (.amoadd q r b a w d) s = execAmoadd q r b a w d s := rfl
theorem exec_amoxor {q r b a w d s} : exec (.amoxor q r b a w d) s = execAmoxor q r b a w d s := rfl
theorem exec_amoand {q r b a w d s} : exec (.amoand q r b a w d) s = execAmoand q r b a w d s := rfl
theorem exec_amoor {q r b a w d s} : exec (.amoor q r b a w d) s = execAmoor q r b a w d s := rfl
theorem exec_amomin {q r b a w d s} : exec (.amomin q r b a w d) s = execAmomin q r b a w d s := rfl
theorem exec_amomax {q r b a w d s} : exec (.amomax q r b a w d) s = execAmomax q r b a w d s := rfl
theorem exec_amominu {q r b a w d s} : exec (.amominu q r b a w d) s = execAmominu q r b a w d s := rfl
theorem exec_amomaxu {q r b a w d s} : exec (.amomaxu q r b a w d) s = execAmomaxu q r b a w d s := rfl
theorem exec_ecall {s} : exec (.ecall) s = execEcall s := rfl
theorem exec_ebreak {s} : exec (.ebreak) s = execEbreak s := rfl
theorem exec_sret {s} : exec (.sret) s = execSret s := rfl
theorem exec_wfi {s} : exec (.wfi) s = execWfi s := rfl
theorem exec_csrrw {c a d s} : exec (.csrrw c a d) s = execCsrrw c a d s := rfl
theorem exec_csrrs {c a d s} : exec (.csrrs c a d) s = execCsrrs c a d s := rfl
theorem exec_csrrc {c a d s} : exec (.csrrc c a d) s = execCsrrc c a d s := rfl
theorem exec_csrrwi {c u d s} : exec (.csrrwi c u d) s = execCsrrwi c u d s := rfl
theorem exec_csrrsi {c u d s} : exec (.csrrsi c u d) s = execCsrrsi c u d s := rfl
theorem exec_csrrci {c u d s} : exec (.csrrci c u d) s = execCsrrci c u d s := rfl

end Sys2Proof.Laws
end

