-- ==== Sys2Proof/Laws/PerInstr.lean ====
section
/-! SUPPORT. One lemma per constructor of `Instr`, for the statements about instructions as syntax. -/

namespace Sys2Proof.Laws

/-- What the encoder makes of the instruction, the decoder reads back: the very instruction if its fields pass their
checks, and a named rejection if they do not. -/
def RoundTrip.Statement (i : Instr) : Prop := ∀ w, encode i = some w → decode w = check i

theorem RoundTrip.powerOnReset  : RoundTrip.Statement (.powerOnReset ) := by
  intro w h; cases h

theorem RoundTrip.bootlenWrite (len : BitVec 64) : RoundTrip.Statement (.bootlenWrite len) := by
  intro w h; cases h

theorem RoundTrip.bootImageFetched (image : List (BitVec 8)) : RoundTrip.Statement (.bootImageFetched image) := by
  intro w h; cases h

theorem RoundTrip.firmwareBringup (runtime : List (BitVec 8)) : RoundTrip.Statement (.firmwareBringup runtime) := by
  intro w h; cases h

theorem RoundTrip.alarmTrip (causes : BitVec 5) : RoundTrip.Statement (.alarmTrip causes) := by
  intro w h; cases h

theorem RoundTrip.keyStoreEraseDone  : RoundTrip.Statement (.keyStoreEraseDone ) := by
  intro w h; cases h

theorem RoundTrip.thermalPolicy (die temp : Nat) : RoundTrip.Statement (.thermalPolicy die temp) := by
  intro w h; cases h

theorem RoundTrip.identity  : RoundTrip.Statement (.identity ) := by
  intro w h; cases h

theorem RoundTrip.attest (nonce : BitVec 256) : RoundTrip.Statement (.attest nonce) := by
  intro w h; cases h

theorem RoundTrip.status  : RoundTrip.Statement (.status ) := by
  intro w h; cases h

theorem RoundTrip.logRead (auth : Auth) (die : Nat) (seq : BitVec 32) : RoundTrip.Statement (.logRead auth die seq) := by
  intro w h; cases h

theorem RoundTrip.counters (auth : Auth) (die idx : Nat) (set : Option (BitVec 64 × BitVec 64)) : RoundTrip.Statement (.counters auth die idx set) := by
  intro w h; cases h

theorem RoundTrip.firmware (auth : Auth) (image : List (BitVec 8)) : RoundTrip.Statement (.firmware auth image) := by
  intro w h; cases h

theorem RoundTrip.partition (auth : Auth) (opc : BitVec 8) (arg0 arg1 : BitVec 64) : RoundTrip.Statement (.partition auth opc arg0 arg1) := by
  intro w h; cases h

theorem RoundTrip.step (auth : Auth) (die clock : Nat) : RoundTrip.Statement (.step auth die clock) := by
  intro w h; cases h

theorem RoundTrip.alarm (auth : Auth) (set : Option (BitVec 10 × Bool)) : RoundTrip.Statement (.alarm auth set) := by
  intro w h; cases h

theorem RoundTrip.provision (auth : Auth) (keys : List (List (BitVec 8))) : RoundTrip.Statement (.provision auth keys) := by
  intro w h; cases h

theorem RoundTrip.supplyRampDone (die : Nat) : RoundTrip.Statement (.supplyRampDone die) := by
  intro w h; cases h

theorem RoundTrip.relockEnd (die : Nat) : RoundTrip.Statement (.relockEnd die) := by
  intro w h; cases h

theorem RoundTrip.flitReceive (die port : Nat) (header : BitVec 64) (payload : BitVec 512) : RoundTrip.Statement (.flitReceive die port header payload) := by
  intro w h; cases h

theorem RoundTrip.linkRetrain (die port : Nat) : RoundTrip.Statement (.linkRetrain die port) := by
  intro w h; cases h

theorem RoundTrip.linkDown (die port : Nat) : RoundTrip.Statement (.linkDown die port) := by
  intro w h; cases h

theorem RoundTrip.fabricFrameReceive (port : Nat) (pkg : BitVec 16) (flits : List (BitVec 64 × BitVec 512)) : RoundTrip.Statement (.fabricFrameReceive port pkg flits) := by
  intro w h; cases h

theorem RoundTrip.fabricReplayTimeout (port : Nat) : RoundTrip.Statement (.fabricReplayTimeout port) := by
  intro w h; cases h

theorem RoundTrip.qctlEnSet (q : Nat) (v : BitVec 64) : RoundTrip.Statement (.qctlEnSet q v) := by
  intro w h; cases h

theorem RoundTrip.qctlEnClear (q : Nat) (v : BitVec 64) : RoundTrip.Statement (.qctlEnClear q v) := by
  intro w h; cases h

theorem RoundTrip.qctlResume (q : Nat) (v : BitVec 64) : RoundTrip.Statement (.qctlResume q v) := by
  intro w h; cases h

theorem RoundTrip.qctlHold (q : Nat) (v : BitVec 64) : RoundTrip.Statement (.qctlHold q v) := by
  intro w h; cases h

theorem RoundTrip.qctlDisc (q : Nat) (v : BitVec 64) : RoundTrip.Statement (.qctlDisc q v) := by
  intro w h; cases h

theorem RoundTrip.qdbellWrite (q : Nat) (v : BitVec 64) : RoundTrip.Statement (.qdbellWrite q v) := by
  intro w h; cases h

theorem RoundTrip.qaconsWrite (q : Nat) (v : BitVec 64) : RoundTrip.Statement (.qaconsWrite q v) := by
  intro w h; cases h

theorem RoundTrip.qwdogWrite (q : Nat) (v : BitVec 64) : RoundTrip.Statement (.qwdogWrite q v) := by
  intro w h; cases h

theorem RoundTrip.queueRegisterWrite (q : Nat) (off : BitVec 12) (size : Nat) (v : BitVec 64) : RoundTrip.Statement (.queueRegisterWrite q off size v) := by
  intro w h; cases h

theorem RoundTrip.slotConsume (q : Nat) : RoundTrip.Statement (.slotConsume q) := by
  intro w h; cases h

theorem RoundTrip.answerEmit (q : Nat) : RoundTrip.Statement (.answerEmit q) := by
  intro w h; cases h

theorem RoundTrip.nop (q : Nat) (hseq : BitVec 32) : RoundTrip.Statement (.nop q hseq) := by
  intro w h; cases h

theorem RoundTrip.pcreate (q : Nat) (hseq : BitVec 32) : RoundTrip.Statement (.pcreate q hseq) := by
  intro w h; cases h

theorem RoundTrip.pdestroy (q : Nat) (hseq : BitVec 32) : RoundTrip.Statement (.pdestroy q hseq) := by
  intro w h; cases h

theorem RoundTrip.qbind (q : Nat) (hseq : BitVec 32) : RoundTrip.Statement (.qbind q hseq) := by
  intro w h; cases h

theorem RoundTrip.pdrain (q : Nat) (hseq : BitVec 32) : RoundTrip.Statement (.pdrain q hseq) := by
  intro w h; cases h

theorem RoundTrip.rcreate (q : Nat) (hseq : BitVec 32) : RoundTrip.Statement (.rcreate q hseq) := by
  intro w h; cases h

theorem RoundTrip.grun (q : Nat) (hseq : BitVec 32) : RoundTrip.Statement (.grun q hseq) := by
  intro w h; cases h

theorem RoundTrip.wdog (q : Nat) (hseq : BitVec 32) : RoundTrip.Statement (.wdog q hseq) := by
  intro w h; cases h

theorem RoundTrip.cksave (q : Nat) (hseq : BitVec 32) : RoundTrip.Statement (.cksave q hseq) := by
  intro w h; cases h

theorem RoundTrip.ckload (q : Nat) (hseq : BitVec 32) : RoundTrip.Statement (.ckload q hseq) := by
  intro w h; cases h

theorem RoundTrip.fstep (q : Nat) (hseq : BitVec 32) : RoundTrip.Statement (.fstep q hseq) := by
  intro w h; cases h

theorem RoundTrip.qfence (q : Nat) (hseq : BitVec 32) : RoundTrip.Statement (.qfence q hseq) := by
  intro w h; cases h

theorem RoundTrip.rretire (q : Nat) (hseq : BitVec 32) : RoundTrip.Statement (.rretire q hseq) := by
  intro w h; cases h

theorem RoundTrip.reservedOpcode (q : Nat) (hseq : BitVec 32) : RoundTrip.Statement (.reservedOpcode q hseq) := by
  intro w h; cases h

theorem RoundTrip.checkpointQuiesced (q : Nat) (hseq : BitVec 32) : RoundTrip.Statement (.checkpointQuiesced q hseq) := by
  intro w h; cases h

theorem RoundTrip.checkpointCopyComplete (q : Nat) (hseq : BitVec 32) : RoundTrip.Statement (.checkpointCopyComplete q hseq) := by
  intro w h; cases h

theorem RoundTrip.checkpointCxlError (q : Nat) (hseq : BitVec 32) (reached : Nat) : RoundTrip.Statement (.checkpointCxlError q hseq reached) := by
  intro w h; cases h

theorem RoundTrip.watchdogExpiry (q : Nat) : RoundTrip.Statement (.watchdogExpiry q) := by
  intro w h; cases h

theorem RoundTrip.drainOperationsSettled (part : Nat) : RoundTrip.Statement (.drainOperationsSettled part) := by
  intro w h; cases h

theorem RoundTrip.regionRetire (part region : Nat) : RoundTrip.Statement (.regionRetire part region) := by
  intro w h; cases h

theorem RoundTrip.locusWaitingSubmissionEnter (locus : Nat) : RoundTrip.Statement (.locusWaitingSubmissionEnter locus) := by
  intro w h; cases h

theorem RoundTrip.tenderPriorityRise (locus entry : Nat) : RoundTrip.Statement (.tenderPriorityRise locus entry) := by
  intro w h; cases h

theorem RoundTrip.tenderStart (locus : Nat) : RoundTrip.Statement (.tenderStart locus) := by
  intro w h; cases h

theorem RoundTrip.tenderArrival (locus entry round core : Nat) : RoundTrip.Statement (.tenderArrival locus entry round core) := by
  intro w h; cases h

theorem RoundTrip.bidReceive (locus entry round core : Nat) (bid : Option Int) : RoundTrip.Statement (.bidReceive locus entry round core bid) := by
  intro w h; cases h

theorem RoundTrip.bidWindowExpiry (locus entry round : Nat) : RoundTrip.Statement (.bidWindowExpiry locus entry round) := by
  intro w h; cases h

theorem RoundTrip.escalatedTenderReceive (die entry : Nat) : RoundTrip.Statement (.escalatedTenderReceive die entry) := by
  intro w h; cases h

theorem RoundTrip.hubTenderResult (die entry : Nat) (committed : Bool) : RoundTrip.Statement (.hubTenderResult die entry committed) := by
  intro w h; cases h

theorem RoundTrip.awardArrival (locus entry round core : Nat) : RoundTrip.Statement (.awardArrival locus entry round core) := by
  intro w h; cases h

theorem RoundTrip.withdrawalReceive (locus entry round core : Nat) : RoundTrip.Statement (.withdrawalReceive locus entry round core) := by
  intro w h; cases h

theorem RoundTrip.commitTimeout (locus entry round : Nat) : RoundTrip.Statement (.commitTimeout locus entry round) := by
  intro w h; cases h

theorem RoundTrip.commitReceive (locus entry round core : Nat) : RoundTrip.Statement (.commitReceive locus entry round core) := by
  intro w h; cases h

theorem RoundTrip.preemptionStopTimeout (ctx : Nat) : RoundTrip.Statement (.preemptionStopTimeout ctx) := by
  intro w h; cases h

theorem RoundTrip.convoyBoundaryStop (ctx : Nat) : RoundTrip.Statement (.convoyBoundaryStop ctx) := by
  intro w h; cases h

theorem RoundTrip.saveOwedWritesDelivered (ctx : Nat) : RoundTrip.Statement (.saveOwedWritesDelivered ctx) := by
  intro w h; cases h

theorem RoundTrip.saveImageWritten (ctx : Nat) : RoundTrip.Statement (.saveImageWritten ctx) := by
  intro w h; cases h

theorem RoundTrip.protectionExpiry (ctx : Nat) : RoundTrip.Statement (.protectionExpiry ctx) := by
  intro w h; cases h

theorem RoundTrip.retireComplete (ctx : Nat) : RoundTrip.Statement (.retireComplete ctx) := by
  intro w h; cases h

theorem RoundTrip.completionObjectUpdate (part region : Nat) (object : BitVec 64) (estat : BitVec 8) : RoundTrip.Statement (.completionObjectUpdate part region object estat) := by
  intro w h; cases h

theorem RoundTrip.predDecrement (part region : Nat) (node : BitVec 64) (core : Nat) : RoundTrip.Statement (.predDecrement part region node core) := by
  intro w h; cases h

theorem RoundTrip.cancellingDecrement (part region : Nat) (node : BitVec 64) (core : Nat) : RoundTrip.Statement (.cancellingDecrement part region node core) := by
  intro w h; cases h

theorem RoundTrip.killEnd (part region : Nat) : RoundTrip.Statement (.killEnd part region) := by
  intro w h; cases h

theorem RoundTrip.regionWatchdogExpiry (ctx : Nat) : RoundTrip.Statement (.regionWatchdogExpiry ctx) := by
  intro w h; cases h

theorem RoundTrip.poolEmptyRestart (ctx : Nat) : RoundTrip.Statement (.poolEmptyRestart ctx) := by
  intro w h; cases h

theorem RoundTrip.poolEmptyWaitExpiry (ctx : Nat) : RoundTrip.Statement (.poolEmptyWaitExpiry ctx) := by
  intro w h; cases h

theorem RoundTrip.rayPermitResume (ctx : Nat) : RoundTrip.Statement (.rayPermitResume ctx) := by
  intro w h; cases h

theorem RoundTrip.rayPermitWaitExpiry (ctx : Nat) : RoundTrip.Statement (.rayPermitWaitExpiry ctx) := by
  intro w h; cases h

theorem RoundTrip.pageFetchComplete (part page : Nat) (ok : Bool) : RoundTrip.Statement (.pageFetchComplete part page ok) := by
  intro w h; cases h

theorem RoundTrip.rangedInvalidationComplete (req : Nat) : RoundTrip.Statement (.rangedInvalidationComplete req) := by
  intro w h; cases h

theorem RoundTrip.planeAllocate (ctx : Nat) (units : BitVec 64) : RoundTrip.Statement (.planeAllocate ctx units) := by
  intro w h; cases h

theorem RoundTrip.planeFree (ctx : Nat) (offset units : BitVec 64) : RoundTrip.Statement (.planeFree ctx offset units) := by
  intro w h; cases h

theorem RoundTrip.pin (ctx : Nat) (base len : BitVec 64) : RoundTrip.Statement (.pin ctx base len) := by
  intro w h; cases h

theorem RoundTrip.unpin (ctx : Nat) (base len : BitVec 64) : RoundTrip.Statement (.unpin ctx base len) := by
  intro w h; cases h

theorem RoundTrip.invalidate (ctx : Nat) (base len mode : BitVec 64) : RoundTrip.Statement (.invalidate ctx base len mode) := by
  intro w h; cases h

theorem RoundTrip.engineOperationComplete (op : Nat) : RoundTrip.Statement (.engineOperationComplete op) := by
  intro w h; cases h

theorem RoundTrip.writeQueueApply (entry : Nat) : RoundTrip.Statement (.writeQueueApply entry) := by
  intro w h; cases h

theorem RoundTrip.releaseComplete (ctx : Nat) : RoundTrip.Statement (.releaseComplete ctx) := by
  intro w h; cases h

theorem RoundTrip.lrReservationExpiry (ctx : Nat) : RoundTrip.Statement (.lrReservationExpiry ctx) := by
  intro w h; cases h

theorem RoundTrip.barrierResume (ctx : Nat) : RoundTrip.Statement (.barrierResume ctx) := by
  intro w h; cases h

theorem RoundTrip.tokenArrival (token : Nat) : RoundTrip.Statement (.tokenArrival token) := by
  intro w h; cases h

theorem RoundTrip.illegalEncoding (word : BitVec 32) : RoundTrip.Statement (.illegalEncoding word) := by
  intro w h; cases h

theorem RoundTrip.linkTrainingComplete (die port : Nat) (ok : Bool) : RoundTrip.Statement (.linkTrainingComplete die port ok) := by
  intro w h; cases h

theorem RoundTrip.dieTlbHoldEnd (req : Nat) : RoundTrip.Statement (.dieTlbHoldEnd req) := by
  intro w h; cases h

theorem RoundTrip.phaseCountersCleared (ctx : Nat) (phase : BitVec 2) : RoundTrip.Statement (.phaseCountersCleared ctx phase) := by
  intro w h; cases h

theorem RoundTrip.debuggerResume (ctx : Nat) (single : Bool) : RoundTrip.Statement (.debuggerResume ctx single) := by
  intro w h; cases h

theorem RoundTrip.bootSourceNoAnswer  : RoundTrip.Statement (.bootSourceNoAnswer ) := by
  intro w h; cases h

theorem RoundTrip.powerFail  : RoundTrip.Statement (.powerFail ) := by
  intro w h; cases h

theorem RoundTrip.hostMemoryWrite (addr : Nat) (bytes : List (BitVec 8)) : RoundTrip.Statement (.hostMemoryWrite addr bytes) := by
  intro w h; cases h

theorem RoundTrip.memoryError (unit addr : Nat) (corrected : Bool) : RoundTrip.Statement (.memoryError unit addr corrected) := by
  intro w h; cases h

theorem RoundTrip.vaddVv (c m : BitVec 1) (b a d : BitVec 5) : RoundTrip.Statement (.vaddVv c m b a d) := by
  intro w h; cases h
  rw [decode_pack]
  simp [decodeParts, decodeVx, cat511_2, cat511_1, cat511_0]

theorem RoundTrip.vaddVx (c m : BitVec 1) (b a d : BitVec 5) : RoundTrip.Statement (.vaddVx c m b a d) := by
  intro w h; cases h
  rw [decode_pack]
  simp [decodeParts, decodeVx, cat511_2, cat511_1, cat511_0]

theorem RoundTrip.vaddVi (c m : BitVec 1) (b i d : BitVec 5) : RoundTrip.Statement (.vaddVi c m b i d) := by
  intro w h; cases h
  rw [decode_pack]
  simp [decodeParts, decodeVx, cat511_2, cat511_1, cat511_0]

theorem RoundTrip.vaddVs (m : BitVec 1) (b a d : BitVec 5) : RoundTrip.Statement (.vaddVs m b a d) := by
  intro w h; cases h
  rw [decode_pack]
  simp [decodeParts, decodeVx, cat511_2, cat511_1, cat511_0]

theorem RoundTrip.vaddRay (c m : BitVec 1) (b a d : BitVec 5) : RoundTrip.Statement (.vaddRay c m b a d) := by
  intro w h; cases h
  rw [decode_pack]
  simp [decodeParts, decodeVx, cat511_2, cat511_1, cat511_0]

theorem RoundTrip.vsubVv (c m : BitVec 1) (b a d : BitVec 5) : RoundTrip.Statement (.vsubVv c m b a d) := by
  intro w h; cases h
  rw [decode_pack]
  simp [decodeParts, decodeVx, cat511_2, cat511_1, cat511_0]

theorem RoundTrip.vsubVx (c m : BitVec 1) (b a d : BitVec 5) : RoundTrip.Statement (.vsubVx c m b a d) := by
  intro w h; cases h
  rw [decode_pack]
  simp [decodeParts, decodeVx, cat511_2, cat511_1, cat511_0]

theorem RoundTrip.vsubVi (c m : BitVec 1) (b i d : BitVec 5) : RoundTrip.Statement (.vsubVi c m b i d) := by
  intro w h; cases h
  rw [decode_pack]
  simp [decodeParts, decodeVx, cat511_2, cat511_1, cat511_0]

theorem RoundTrip.vsubVs (m : BitVec 1) (b a d : BitVec 5) : RoundTrip.Statement (.vsubVs m b a d) := by
  intro w h; cases h
  rw [decode_pack]
  simp [decodeParts, decodeVx, cat511_2, cat511_1, cat511_0]

theorem RoundTrip.vsubRay (c m : BitVec 1) (b a d : BitVec 5) : RoundTrip.Statement (.vsubRay c m b a d) := by
  intro w h; cases h
  rw [decode_pack]
  simp [decodeParts, decodeVx, cat511_2, cat511_1, cat511_0]

theorem RoundTrip.vrsubVx (c m : BitVec 1) (b a d : BitVec 5) : RoundTrip.Statement (.vrsubVx c m b a d) := by
  intro w h; cases h
  rw [decode_pack]
  simp [decodeParts, decodeVx, cat511_2, cat511_1, cat511_0]

theorem RoundTrip.vrsubVi (c m : BitVec 1) (b i d : BitVec 5) : RoundTrip.Statement (.vrsubVi c m b i d) := by
  intro w h; cases h
  rw [decode_pack]
  simp [decodeParts, decodeVx, cat511_2, cat511_1, cat511_0]

theorem RoundTrip.vrsubVs (m : BitVec 1) (b a d : BitVec 5) : RoundTrip.Statement (.vrsubVs m b a d) := by
  intro w h; cases h
  rw [decode_pack]
  simp [decodeParts, decodeVx, cat511_2, cat511_1, cat511_0]

theorem RoundTrip.vrsubRay (c m : BitVec 1) (b a d : BitVec 5) : RoundTrip.Statement (.vrsubRay c m b a d) := by
  intro w h; cases h
  rw [decode_pack]
  simp [decodeParts, decodeVx, cat511_2, cat511_1, cat511_0]

theorem RoundTrip.vmulVv (c m : BitVec 1) (b a d : BitVec 5) : RoundTrip.Statement (.vmulVv c m b a d) := by
  intro w h; cases h
  rw [decode_pack]
  simp [decodeParts, decodeVx, cat511_2, cat511_1, cat511_0]

theorem RoundTrip.vmulVx (c m : BitVec 1) (b a d : BitVec 5) : RoundTrip.Statement (.vmulVx c m b a d) := by
  intro w h; cases h
  rw [decode_pack]
  simp [decodeParts, decodeVx, cat511_2, cat511_1, cat511_0]

theorem RoundTrip.vmulVs (m : BitVec 1) (b a d : BitVec 5) : RoundTrip.Statement (.vmulVs m b a d) := by
  intro w h; cases h
  rw [decode_pack]
  simp [decodeParts, decodeVx, cat511_2, cat511_1, cat511_0]

theorem RoundTrip.vmulRay (c m : BitVec 1) (b a d : BitVec 5) : RoundTrip.Statement (.vmulRay c m b a d) := by
  intro w h; cases h
  rw [decode_pack]
  simp [decodeParts, decodeVx, cat511_2, cat511_1, cat511_0]

theorem RoundTrip.vmulhVv (c m : BitVec 1) (b a d : BitVec 5) : RoundTrip.Statement (.vmulhVv c m b a d) := by
  intro w h; cases h
  rw [decode_pack]
  simp [decodeParts, decodeVx, cat511_2, cat511_1, cat511_0]

theorem RoundTrip.vmulhVx (c m : BitVec 1) (b a d : BitVec 5) : RoundTrip.Statement (.vmulhVx c m b a d) := by
  intro w h; cases h
  rw [decode_pack]
  simp [decodeParts, decodeVx, cat511_2, cat511_1, cat511_0]

theorem RoundTrip.vmulhVs (m : BitVec 1) (b a d : BitVec 5) : RoundTrip.Statement (.vmulhVs m b a d) := by
  intro w h; cases h
  rw [decode_pack]
  simp [decodeParts, decodeVx, cat511_2, cat511_1, cat511_0]

theorem RoundTrip.vmulhRay (c m : BitVec 1) (b a d : BitVec 5) : RoundTrip.Statement (.vmulhRay c m b a d) := by
  intro w h; cases h
  rw [decode_pack]
  simp [decodeParts, decodeVx, cat511_2, cat511_1, cat511_0]

theorem RoundTrip.vdivVv (c m : BitVec 1) (b a d : BitVec 5) : RoundTrip.Statement (.vdivVv c m b a d) := by
  intro w h; cases h
  rw [decode_pack]
  simp [decodeParts, decodeVx, cat511_2, cat511_1, cat511_0]

theorem RoundTrip.vdivVx (c m : BitVec 1) (b a d : BitVec 5) : RoundTrip.Statement (.vdivVx c m b a d) := by
  intro w h; cases h
  rw [decode_pack]
  simp [decodeParts, decodeVx, cat511_2, cat511_1, cat511_0]

theorem RoundTrip.vdivVs (m : BitVec 1) (b a d : BitVec 5) : RoundTrip.Statement (.vdivVs m b a d) := by
  intro w h; cases h
  rw [decode_pack]
  simp [decodeParts, decodeVx, cat511_2, cat511_1, cat511_0]

theorem RoundTrip.vdivRay (c m : BitVec 1) (b a d : BitVec 5) : RoundTrip.Statement (.vdivRay c m b a d) := by
  intro w h; cases h
  rw [decode_pack]
  simp [decodeParts, decodeVx, cat511_2, cat511_1, cat511_0]

theorem RoundTrip.vremVv (c m : BitVec 1) (b a d : BitVec 5) : RoundTrip.Statement (.vremVv c m b a d) := by
  intro w h; cases h
  rw [decode_pack]
  simp [decodeParts, decodeVx, cat511_2, cat511_1, cat511_0]

theorem RoundTrip.vremVx (c m : BitVec 1) (b a d : BitVec 5) : RoundTrip.Statement (.vremVx c m b a d) := by
  intro w h; cases h
  rw [decode_pack]
  simp [decodeParts, decodeVx, cat511_2, cat511_1, cat511_0]

theorem RoundTrip.vremVs (m : BitVec 1) (b a d : BitVec 5) : RoundTrip.Statement (.vremVs m b a d) := by
  intro w h; cases h
  rw [decode_pack]
  simp [decodeParts, decodeVx, cat511_2, cat511_1, cat511_0]

theorem RoundTrip.vremRay (c m : BitVec 1) (b a d : BitVec 5) : RoundTrip.Statement (.vremRay c m b a d) := by
  intro w h; cases h
  rw [decode_pack]
  simp [decodeParts, decodeVx, cat511_2, cat511_1, cat511_0]

theorem RoundTrip.vminVv (c m : BitVec 1) (b a d : BitVec 5) : RoundTrip.Statement (.vminVv c m b a d) := by
  intro w h; cases h
  rw [decode_pack]
  simp [decodeParts, decodeVx, cat511_2, cat511_1, cat511_0]

theorem RoundTrip.vminVx (c m : BitVec 1) (b a d : BitVec 5) : RoundTrip.Statement (.vminVx c m b a d) := by
  intro w h; cases h
  rw [decode_pack]
  simp [decodeParts, decodeVx, cat511_2, cat511_1, cat511_0]

theorem RoundTrip.vminVi (c m : BitVec 1) (b i d : BitVec 5) : RoundTrip.Statement (.vminVi c m b i d) := by
  intro w h; cases h
  rw [decode_pack]
  simp [decodeParts, decodeVx, cat511_2, cat511_1, cat511_0]

theorem RoundTrip.vminVs (m : BitVec 1) (b a d : BitVec 5) : RoundTrip.Statement (.vminVs m b a d) := by
  intro w h; cases h
  rw [decode_pack]
  simp [decodeParts, decodeVx, cat511_2, cat511_1, cat511_0]

theorem RoundTrip.vminRay (c m : BitVec 1) (b a d : BitVec 5) : RoundTrip.Statement (.vminRay c m b a d) := by
  intro w h; cases h
  rw [decode_pack]
  simp [decodeParts, decodeVx, cat511_2, cat511_1, cat511_0]

theorem RoundTrip.vmaxVv (c m : BitVec 1) (b a d : BitVec 5) : RoundTrip.Statement (.vmaxVv c m b a d) := by
  intro w h; cases h
  rw [decode_pack]
  simp [decodeParts, decodeVx, cat511_2, cat511_1, cat511_0]

theorem RoundTrip.vmaxVx (c m : BitVec 1) (b a d : BitVec 5) : RoundTrip.Statement (.vmaxVx c m b a d) := by
  intro w h; cases h
  rw [decode_pack]
  simp [decodeParts, decodeVx, cat511_2, cat511_1, cat511_0]

theorem RoundTrip.vmaxVi (c m : BitVec 1) (b i d : BitVec 5) : RoundTrip.Statement (.vmaxVi c m b i d) := by
  intro w h; cases h
  rw [decode_pack]
  simp [decodeParts, decodeVx, cat511_2, cat511_1, cat511_0]

theorem RoundTrip.vmaxVs (m : BitVec 1) (b a d : BitVec 5) : RoundTrip.Statement (.vmaxVs m b a d) := by
  intro w h; cases h
  rw [decode_pack]
  simp [decodeParts, decodeVx, cat511_2, cat511_1, cat511_0]

theorem RoundTrip.vmaxRay (c m : BitVec 1) (b a d : BitVec 5) : RoundTrip.Statement (.vmaxRay c m b a d) := by
  intro w h; cases h
  rw [decode_pack]
  simp [decodeParts, decodeVx, cat511_2, cat511_1, cat511_0]

theorem RoundTrip.vandVv (c m : BitVec 1) (b a d : BitVec 5) : RoundTrip.Statement (.vandVv c m b a d) := by
  intro w h; cases h
  rw [decode_pack]
  simp [decodeParts, decodeVx, cat511_2, cat511_1, cat511_0]

theorem RoundTrip.vandVx (c m : BitVec 1) (b a d : BitVec 5) : RoundTrip.Statement (.vandVx c m b a d) := by
  intro w h; cases h
  rw [decode_pack]
  simp [decodeParts, decodeVx, cat511_2, cat511_1, cat511_0]

theorem RoundTrip.vandVi (c m : BitVec 1) (b i d : BitVec 5) : RoundTrip.Statement (.vandVi c m b i d) := by
  intro w h; cases h
  rw [decode_pack]
  simp [decodeParts, decodeVx, cat511_2, cat511_1, cat511_0]

theorem RoundTrip.vandVs (m : BitVec 1) (b a d : BitVec 5) : RoundTrip.Statement (.vandVs m b a d) := by
  intro w h; cases h
  rw [decode_pack]
  simp [decodeParts, decodeVx, cat511_2, cat511_1, cat511_0]

theorem RoundTrip.vandRay (c m : BitVec 1) (b a d : BitVec 5) : RoundTrip.Statement (.vandRay c m b a d) := by
  intro w h; cases h
  rw [decode_pack]
  simp [decodeParts, decodeVx, cat511_2, cat511_1, cat511_0]

theorem RoundTrip.vorVv (c m : BitVec 1) (b a d : BitVec 5) : RoundTrip.Statement (.vorVv c m b a d) := by
  intro w h; cases h
  rw [decode_pack]
  simp [decodeParts, decodeVx, cat511_2, cat511_1, cat511_0]

theorem RoundTrip.vorVx (c m : BitVec 1) (b a d : BitVec 5) : RoundTrip.Statement (.vorVx c m b a d) := by
  intro w h; cases h
  rw [decode_pack]
  simp [decodeParts, decodeVx, cat511_2, cat511_1, cat511_0]

theorem RoundTrip.vorVi (c m : BitVec 1) (b i d : BitVec 5) : RoundTrip.Statement (.vorVi c m b i d) := by
  intro w h; cases h
  rw [decode_pack]
  simp [decodeParts, decodeVx, cat511_2, cat511_1, cat511_0]

theorem RoundTrip.vorVs (m : BitVec 1) (b a d : BitVec 5) : RoundTrip.Statement (.vorVs m b a d) := by
  intro w h; cases h
  rw [decode_pack]
  simp [decodeParts, decodeVx, cat511_2, cat511_1, cat511_0]

theorem RoundTrip.vorRay (c m : BitVec 1) (b a d : BitVec 5) : RoundTrip.Statement (.vorRay c m b a d) := by
  intro w h; cases h
  rw [decode_pack]
  simp [decodeParts, decodeVx, cat511_2, cat511_1, cat511_0]

theorem RoundTrip.vxorVv (c m : BitVec 1) (b a d : BitVec 5) : RoundTrip.Statement (.vxorVv c m b a d) := by
  intro w h; cases h
  rw [decode_pack]
  simp [decodeParts, decodeVx, cat511_2, cat511_1, cat511_0]

theorem RoundTrip.vxorVx (c m : BitVec 1) (b a d : BitVec 5) : RoundTrip.Statement (.vxorVx c m b a d) := by
  intro w h; cases h
  rw [decode_pack]
  simp [decodeParts, decodeVx, cat511_2, cat511_1, cat511_0]

theorem RoundTrip.vxorVi (c m : BitVec 1) (b i d : BitVec 5) : RoundTrip.Statement (.vxorVi c m b i d) := by
  intro w h; cases h
  rw [decode_pack]
  simp [decodeParts, decodeVx, cat511_2, cat511_1, cat511_0]

theorem RoundTrip.vxorVs (m : BitVec 1) (b a d : BitVec 5) : RoundTrip.Statement (.vxorVs m b a d) := by
  intro w h; cases h
  rw [decode_pack]
  simp [decodeParts, decodeVx, cat511_2, cat511_1, cat511_0]

theorem RoundTrip.vxorRay (c m : BitVec 1) (b a d : BitVec 5) : RoundTrip.Statement (.vxorRay c m b a d) := by
  intro w h; cases h
  rw [decode_pack]
  simp [decodeParts, decodeVx, cat511_2, cat511_1, cat511_0]

theorem RoundTrip.vsllVv (c m : BitVec 1) (b a d : BitVec 5) : RoundTrip.Statement (.vsllVv c m b a d) := by
  intro w h; cases h
  rw [decode_pack]
  simp [decodeParts, decodeVx, cat511_2, cat511_1, cat511_0]

theorem RoundTrip.vsllVx (c m : BitVec 1) (b a d : BitVec 5) : RoundTrip.Statement (.vsllVx c m b a d) := by
  intro w h; cases h
  rw [decode_pack]
  simp [decodeParts, decodeVx, cat511_2, cat511_1, cat511_0]

theorem RoundTrip.vsllVi (c m : BitVec 1) (b i d : BitVec 5) : RoundTrip.Statement (.vsllVi c m b i d) := by
  intro w h; cases h
  rw [decode_pack]
  simp [decodeParts, decodeVx, cat511_2, cat511_1, cat511_0]

theorem RoundTrip.vsllVs (m : BitVec 1) (b a d : BitVec 5) : RoundTrip.Statement (.vsllVs m b a d) := by
  intro w h; cases h
  rw [decode_pack]
  simp [decodeParts, decodeVx, cat511_2, cat511_1, cat511_0]

theorem RoundTrip.vsllRay (c m : BitVec 1) (b a d : BitVec 5) : RoundTrip.Statement (.vsllRay c m b a d) := by
  intro w h; cases h
  rw [decode_pack]
  simp [decodeParts, decodeVx, cat511_2, cat511_1, cat511_0]

theorem RoundTrip.vsrlVv (c m : BitVec 1) (b a d : BitVec 5) : RoundTrip.Statement (.vsrlVv c m b a d) := by
  intro w h; cases h
  rw [decode_pack]
  simp [decodeParts, decodeVx, cat511_2, cat511_1, cat511_0]

theorem RoundTrip.vsrlVx (c m : BitVec 1) (b a d : BitVec 5) : RoundTrip.Statement (.vsrlVx c m b a d) := by
  intro w h; cases h
  rw [decode_pack]
  simp [decodeParts, decodeVx, cat511_2, cat511_1, cat511_0]

theorem RoundTrip.vsrlVi (c m : BitVec 1) (b i d : BitVec 5) : RoundTrip.Statement (.vsrlVi c m b i d) := by
  intro w h; cases h
  rw [decode_pack]
  simp [decodeParts, decodeVx, cat511_2, cat511_1, cat511_0]

theorem RoundTrip.vsrlVs (m : BitVec 1) (b a d : BitVec 5) : RoundTrip.Statement (.vsrlVs m b a d) := by
  intro w h; cases h
  rw [decode_pack]
  simp [decodeParts, decodeVx, cat511_2, cat511_1, cat511_0]

theorem RoundTrip.vsrlRay (c m : BitVec 1) (b a d : BitVec 5) : RoundTrip.Statement (.vsrlRay c m b a d) := by
  intro w h; cases h
  rw [decode_pack]
  simp [decodeParts, decodeVx, cat511_2, cat511_1, cat511_0]

theorem RoundTrip.vsraVv (c m : BitVec 1) (b a d : BitVec 5) : RoundTrip.Statement (.vsraVv c m b a d) := by
  intro w h; cases h
  rw [decode_pack]
  simp [decodeParts, decodeVx, cat511_2, cat511_1, cat511_0]

theorem RoundTrip.vsraVx (c m : BitVec 1) (b a d : BitVec 5) : RoundTrip.Statement (.vsraVx c m b a d) := by
  intro w h; cases h
  rw [decode_pack]
  simp [decodeParts, decodeVx, cat511_2, cat511_1, cat511_0]

theorem RoundTrip.vsraVi (c m : BitVec 1) (b i d : BitVec 5) : RoundTrip.Statement (.vsraVi c m b i d) := by
  intro w h; cases h
  rw [decode_pack]
  simp [decodeParts, decodeVx, cat511_2, cat511_1, cat511_0]

theorem RoundTrip.vsraVs (m : BitVec 1) (b a d : BitVec 5) : RoundTrip.Statement (.vsraVs m b a d) := by
  intro w h; cases h
  rw [decode_pack]
  simp [decodeParts, decodeVx, cat511_2, cat511_1, cat511_0]

theorem RoundTrip.vsraRay (c m : BitVec 1) (b a d : BitVec 5) : RoundTrip.Statement (.vsraRay c m b a d) := by
  intro w h; cases h
  rw [decode_pack]
  simp [decodeParts, decodeVx, cat511_2, cat511_1, cat511_0]

theorem RoundTrip.vfmaVv (c m : BitVec 1) (b a d : BitVec 5) : RoundTrip.Statement (.vfmaVv c m b a d) := by
  intro w h; cases h
  rw [decode_pack]
  simp [decodeParts, decodeVx, cat511_2, cat511_1, cat511_0]

theorem RoundTrip.vfmaVx (c m : BitVec 1) (b a d : BitVec 5) : RoundTrip.Statement (.vfmaVx c m b a d) := by
  intro w h; cases h
  rw [decode_pack]
  simp [decodeParts, decodeVx, cat511_2, cat511_1, cat511_0]

theorem RoundTrip.vfmaVs (m : BitVec 1) (b a d : BitVec 5) : RoundTrip.Statement (.vfmaVs m b a d) := by
  intro w h; cases h
  rw [decode_pack]
  simp [decodeParts, decodeVx, cat511_2, cat511_1, cat511_0]

theorem RoundTrip.vfmaRay (c m : BitVec 1) (b a d : BitVec 5) : RoundTrip.Statement (.vfmaRay c m b a d) := by
  intro w h; cases h
  rw [decode_pack]
  simp [decodeParts, decodeVx, cat511_2, cat511_1, cat511_0]

theorem RoundTrip.vfmsVv (c m : BitVec 1) (b a d : BitVec 5) : RoundTrip.Statement (.vfmsVv c m b a d) := by
  intro w h; cases h
  rw [decode_pack]
  simp [decodeParts, decodeVx, cat511_2, cat511_1, cat511_0]

theorem RoundTrip.vfmsVx (c m : BitVec 1) (b a d : BitVec 5) : RoundTrip.Statement (.vfmsVx c m b a d) := by
  intro w h; cases h
  rw [decode_pack]
  simp [decodeParts, decodeVx, cat511_2, cat511_1, cat511_0]

theorem RoundTrip.vfmsVs (m : BitVec 1) (b a d : BitVec 5) : RoundTrip.Statement (.vfmsVs m b a d) := by
  intro w h; cases h
  rw [decode_pack]
  simp [decodeParts, decodeVx, cat511_2, cat511_1, cat511_0]

theorem RoundTrip.vfmsRay (c m : BitVec 1) (b a d : BitVec 5) : RoundTrip.Statement (.vfmsRay c m b a d) := by
  intro w h; cases h
  rw [decode_pack]
  simp [decodeParts, decodeVx, cat511_2, cat511_1, cat511_0]

theorem RoundTrip.vfnmaVv (c m : BitVec 1) (b a d : BitVec 5) : RoundTrip.Statement (.vfnmaVv c m b a d) := by
  intro w h; cases h
  rw [decode_pack]
  simp [decodeParts, decodeVx, cat511_2, cat511_1, cat511_0]

theorem RoundTrip.vfnmaVx (c m : BitVec 1) (b a d : BitVec 5) : RoundTrip.Statement (.vfnmaVx c m b a d) := by
  intro w h; cases h
  rw [decode_pack]
  simp [decodeParts, decodeVx, cat511_2, cat511_1, cat511_0]

theorem RoundTrip.vfnmaVs (m : BitVec 1) (b a d : BitVec 5) : RoundTrip.Statement (.vfnmaVs m b a d) := by
  intro w h; cases h
  rw [decode_pack]
  simp [decodeParts, decodeVx, cat511_2, cat511_1, cat511_0]

theorem RoundTrip.vfnmaRay (c m : BitVec 1) (b a d : BitVec 5) : RoundTrip.Statement (.vfnmaRay c m b a d) := by
  intro w h; cases h
  rw [decode_pack]
  simp [decodeParts, decodeVx, cat511_2, cat511_1, cat511_0]

theorem RoundTrip.vsaddVv (c m : BitVec 1) (b a d : BitVec 5) : RoundTrip.Statement (.vsaddVv c m b a d) := by
  intro w h; cases h
  rw [decode_pack]
  simp [decodeParts, decodeVx, cat511_2, cat511_1, cat511_0]

theorem RoundTrip.vsaddVx (c m : BitVec 1) (b a d : BitVec 5) : RoundTrip.Statement (.vsaddVx c m b a d) := by
  intro w h; cases h
  rw [decode_pack]
  simp [decodeParts, decodeVx, cat511_2, cat511_1, cat511_0]

theorem RoundTrip.vsaddVi (c m : BitVec 1) (b i d : BitVec 5) : RoundTrip.Statement (.vsaddVi c m b i d) := by
  intro w h; cases h
  rw [decode_pack]
  simp [decodeParts, decodeVx, cat511_2, cat511_1, cat511_0]

theorem RoundTrip.vsaddVs (m : BitVec 1) (b a d : BitVec 5) : RoundTrip.Statement (.vsaddVs m b a d) := by
  intro w h; cases h
  rw [decode_pack]
  simp [decodeParts, decodeVx, cat511_2, cat511_1, cat511_0]

theorem RoundTrip.vsaddRay (c m : BitVec 1) (b a d : BitVec 5) : RoundTrip.Statement (.vsaddRay c m b a d) := by
  intro w h; cases h
  rw [decode_pack]
  simp [decodeParts, decodeVx, cat511_2, cat511_1, cat511_0]

theorem RoundTrip.vssubVv (c m : BitVec 1) (b a d : BitVec 5) : RoundTrip.Statement (.vssubVv c m b a d) := by
  intro w h; cases h
  rw [decode_pack]
  simp [decodeParts, decodeVx, cat511_2, cat511_1, cat511_0]

theorem RoundTrip.vssubVx (c m : BitVec 1) (b a d : BitVec 5) : RoundTrip.Statement (.vssubVx c m b a d) := by
  intro w h; cases h
  rw [decode_pack]
  simp [decodeParts, decodeVx, cat511_2, cat511_1, cat511_0]

theorem RoundTrip.vssubVi (c m : BitVec 1) (b i d : BitVec 5) : RoundTrip.Statement (.vssubVi c m b i d) := by
  intro w h; cases h
  rw [decode_pack]
  simp [decodeParts, decodeVx, cat511_2, cat511_1, cat511_0]

theorem RoundTrip.vssubVs (m : BitVec 1) (b a d : BitVec 5) : RoundTrip.Statement (.vssubVs m b a d) := by
  intro w h; cases h
  rw [decode_pack]
  simp [decodeParts, decodeVx, cat511_2, cat511_1, cat511_0]

theorem RoundTrip.vssubRay (c m : BitVec 1) (b a d : BitVec 5) : RoundTrip.Statement (.vssubRay c m b a d) := by
  intro w h; cases h
  rw [decode_pack]
  simp [decodeParts, decodeVx, cat511_2, cat511_1, cat511_0]

theorem RoundTrip.vceq (c m : BitVec 1) (b a : BitVec 5) (p : BitVec 3) : RoundTrip.Statement (.vceq c m b a p) := by
  intro w h; cases h
  rw [decode_pack]
  simp [decodeParts, decodeVx, cat23_3, cat23_0, cat511_2, cat511_1, cat511_0]

theorem RoundTrip.vcne (c m : BitVec 1) (b a : BitVec 5) (p : BitVec 3) : RoundTrip.Statement (.vcne c m b a p) := by
  intro w h; cases h
  rw [decode_pack]
  simp [decodeParts, decodeVx, cat23_3, cat23_0, cat511_2, cat511_1, cat511_0]

theorem RoundTrip.vcequ (c m : BitVec 1) (b a : BitVec 5) (p : BitVec 3) : RoundTrip.Statement (.vcequ c m b a p) := by
  intro w h; cases h
  rw [decode_pack]
  simp [decodeParts, decodeVx, cat23_3, cat23_0, cat511_2, cat511_1, cat511_0]

theorem RoundTrip.vcneu (c m : BitVec 1) (b a : BitVec 5) (p : BitVec 3) : RoundTrip.Statement (.vcneu c m b a p) := by
  intro w h; cases h
  rw [decode_pack]
  simp [decodeParts, decodeVx, cat23_3, cat23_0, cat511_2, cat511_1, cat511_0]

theorem RoundTrip.vclt (c m : BitVec 1) (b a : BitVec 5) (p : BitVec 3) : RoundTrip.Statement (.vclt c m b a p) := by
  intro w h; cases h
  rw [decode_pack]
  simp [decodeParts, decodeVx, cat23_3, cat23_0, cat511_2, cat511_1, cat511_0]

theorem RoundTrip.vcnlt (c m : BitVec 1) (b a : BitVec 5) (p : BitVec 3) : RoundTrip.Statement (.vcnlt c m b a p) := by
  intro w h; cases h
  rw [decode_pack]
  simp [decodeParts, decodeVx, cat23_3, cat23_0, cat511_2, cat511_1, cat511_0]

theorem RoundTrip.vcltu (c m : BitVec 1) (b a : BitVec 5) (p : BitVec 3) : RoundTrip.Statement (.vcltu c m b a p) := by
  intro w h; cases h
  rw [decode_pack]
  simp [decodeParts, decodeVx, cat23_3, cat23_0, cat511_2, cat511_1, cat511_0]

theorem RoundTrip.vcnltu (c m : BitVec 1) (b a : BitVec 5) (p : BitVec 3) : RoundTrip.Statement (.vcnltu c m b a p) := by
  intro w h; cases h
  rw [decode_pack]
  simp [decodeParts, decodeVx, cat23_3, cat23_0, cat511_2, cat511_1, cat511_0]

theorem RoundTrip.vcle (c m : BitVec 1) (b a : BitVec 5) (p : BitVec 3) : RoundTrip.Statement (.vcle c m b a p) := by
  intro w h; cases h
  rw [decode_pack]
  simp [decodeParts, decodeVx, cat23_3, cat23_0, cat511_2, cat511_1, cat511_0]

theorem RoundTrip.vcnle (c m : BitVec 1) (b a : BitVec 5) (p : BitVec 3) : RoundTrip.Statement (.vcnle c m b a p) := by
  intro w h; cases h
  rw [decode_pack]
  simp [decodeParts, decodeVx, cat23_3, cat23_0, cat511_2, cat511_1, cat511_0]

theorem RoundTrip.vcleu (c m : BitVec 1) (b a : BitVec 5) (p : BitVec 3) : RoundTrip.Statement (.vcleu c m b a p) := by
  intro w h; cases h
  rw [decode_pack]
  simp [decodeParts, decodeVx, cat23_3, cat23_0, cat511_2, cat511_1, cat511_0]

theorem RoundTrip.vcnleu (c m : BitVec 1) (b a : BitVec 5) (p : BitVec 3) : RoundTrip.Statement (.vcnleu c m b a p) := by
  intro w h; cases h
  rw [decode_pack]
  simp [decodeParts, decodeVx, cat23_3, cat23_0, cat511_2, cat511_1, cat511_0]

theorem RoundTrip.vcun (c m : BitVec 1) (b a : BitVec 5) (p : BitVec 3) : RoundTrip.Statement (.vcun c m b a p) := by
  intro w h; cases h
  rw [decode_pack]
  simp [decodeParts, decodeVx, cat23_3, cat23_0, cat511_2, cat511_1, cat511_0]

theorem RoundTrip.vcord (c m : BitVec 1) (b a : BitVec 5) (p : BitVec 3) : RoundTrip.Statement (.vcord c m b a p) := by
  intro w h; cases h
  rw [decode_pack]
  simp [decodeParts, decodeVx, cat23_3, cat23_0, cat511_2, cat511_1, cat511_0]

theorem RoundTrip.vcsn (c m : BitVec 1) (a : BitVec 5) (p : BitVec 3) : RoundTrip.Statement (.vcsn c m a p) := by
  intro w h; cases h
  rw [decode_pack]
  simp [decodeParts, decodeVx, cat23_3, cat23_0, cat511_2, cat511_1, cat511_0]

theorem RoundTrip.vcnsn (c m : BitVec 1) (a : BitVec 5) (p : BitVec 3) : RoundTrip.Statement (.vcnsn c m a p) := by
  intro w h; cases h
  rw [decode_pack]
  simp [decodeParts, decodeVx, cat23_3, cat23_0, cat511_2, cat511_1, cat511_0]

theorem RoundTrip.vsel (c : BitVec 1) (b a d : BitVec 5) : RoundTrip.Statement (.vsel c b a d) := by
  intro w h; cases h
  rw [decode_pack]
  simp [decodeParts, decodeVx, cat511_2, cat511_1, cat511_0]

theorem RoundTrip.vmvVx (c m : BitVec 1) (a d : BitVec 5) : RoundTrip.Statement (.vmvVx c m a d) := by
  intro w h; cases h
  rw [decode_pack]
  simp [decodeParts, decodeVx, cat511_2, cat511_1, cat511_0]

theorem RoundTrip.vmvVi (c m : BitVec 1) (i d : BitVec 5) : RoundTrip.Statement (.vmvVi c m i d) := by
  intro w h; cases h
  rw [decode_pack]
  simp [decodeParts, decodeVx, cat511_2, cat511_1, cat511_0]

theorem RoundTrip.vmvX (a d : BitVec 5) : RoundTrip.Statement (.vmvX a d) := by
  intro w h; cases h
  rw [decode_pack]
  simp [decodeParts, decodeVx, cat511_2, cat511_1, cat511_0]

theorem RoundTrip.vmvVv (c m : BitVec 1) (a d : BitVec 5) : RoundTrip.Statement (.vmvVv c m a d) := by
  intro w h; cases h
  rw [decode_pack]
  simp [decodeParts, decodeVx, cat511_2, cat511_1, cat511_0]

theorem RoundTrip.vcvt (c m : BitVec 1) (t : BitVec 4) (a d : BitVec 5) : RoundTrip.Statement (.vcvt c m t a d) := by
  intro w h; cases h
  rw [decode_pack]
  simp [decodeParts, decodeVx, cat14_4, cat14_0, cat511_2, cat511_1, cat511_0]

theorem RoundTrip.vcvts (c m : BitVec 1) (t : BitVec 4) (a d : BitVec 5) : RoundTrip.Statement (.vcvts c m t a d) := by
  intro w h; cases h
  rw [decode_pack]
  simp [decodeParts, decodeVx, cat14_4, cat14_0, cat511_2, cat511_1, cat511_0]

theorem RoundTrip.vneg (c m : BitVec 1) (a d : BitVec 5) : RoundTrip.Statement (.vneg c m a d) := by
  intro w h; cases h
  rw [decode_pack]
  simp [decodeParts, decodeVx, cat511_2, cat511_1, cat511_0]

theorem RoundTrip.vabs (c m : BitVec 1) (a d : BitVec 5) : RoundTrip.Statement (.vabs c m a d) := by
  intro w h; cases h
  rw [decode_pack]
  simp [decodeParts, decodeVx, cat511_2, cat511_1, cat511_0]

theorem RoundTrip.vsqrt (c m : BitVec 1) (a d : BitVec 5) : RoundTrip.Statement (.vsqrt c m a d) := by
  intro w h; cases h
  rw [decode_pack]
  simp [decodeParts, decodeVx, cat511_2, cat511_1, cat511_0]

theorem RoundTrip.vrcpe (c m : BitVec 1) (a d : BitVec 5) : RoundTrip.Statement (.vrcpe c m a d) := by
  intro w h; cases h
  rw [decode_pack]
  simp [decodeParts, decodeVx, cat511_2, cat511_1, cat511_0]

theorem RoundTrip.vrsqe (c m : BitVec 1) (a d : BitVec 5) : RoundTrip.Statement (.vrsqe c m a d) := by
  intro w h; cases h
  rw [decode_pack]
  simp [decodeParts, decodeVx, cat511_2, cat511_1, cat511_0]

theorem RoundTrip.vexp2 (c m : BitVec 1) (a d : BitVec 5) : RoundTrip.Statement (.vexp2 c m a d) := by
  intro w h; cases h
  rw [decode_pack]
  simp [decodeParts, decodeVx, cat511_2, cat511_1, cat511_0]

theorem RoundTrip.vlog2 (c m : BitVec 1) (a d : BitVec 5) : RoundTrip.Statement (.vlog2 c m a d) := by
  intro w h; cases h
  rw [decode_pack]
  simp [decodeParts, decodeVx, cat511_2, cat511_1, cat511_0]

theorem RoundTrip.vclz (c m : BitVec 1) (a d : BitVec 5) : RoundTrip.Statement (.vclz c m a d) := by
  intro w h; cases h
  rw [decode_pack]
  simp [decodeParts, decodeVx, cat511_2, cat511_1, cat511_0]

theorem RoundTrip.vpopc (c m : BitVec 1) (a d : BitVec 5) : RoundTrip.Statement (.vpopc c m a d) := by
  intro w h; cases h
  rw [decode_pack]
  simp [decodeParts, decodeVx, cat511_2, cat511_1, cat511_0]

theorem RoundTrip.vbrev (c m : BitVec 1) (a d : BitVec 5) : RoundTrip.Statement (.vbrev c m a d) := by
  intro w h; cases h
  rw [decode_pack]
  simp [decodeParts, decodeVx, cat511_2, cat511_1, cat511_0]

theorem RoundTrip.vclass (c m : BitVec 1) (a d : BitVec 5) : RoundTrip.Statement (.vclass c m a d) := by
  intro w h; cases h
  rw [decode_pack]
  simp [decodeParts, decodeVx, cat511_2, cat511_1, cat511_0]

theorem RoundTrip.vredsum (m : BitVec 1) (b a d : BitVec 5) : RoundTrip.Statement (.vredsum m b a d) := by
  intro w h; cases h
  rw [decode_pack]
  simp [decodeParts, decodeVx, cat511_2, cat511_1, cat511_0]

theorem RoundTrip.vredosum (m : BitVec 1) (b a d : BitVec 5) : RoundTrip.Statement (.vredosum m b a d) := by
  intro w h; cases h
  rw [decode_pack]
  simp [decodeParts, decodeVx, cat511_2, cat511_1, cat511_0]

theorem RoundTrip.vredmin (m : BitVec 1) (b a d : BitVec 5) : RoundTrip.Statement (.vredmin m b a d) := by
  intro w h; cases h
  rw [decode_pack]
  simp [decodeParts, decodeVx, cat511_2, cat511_1, cat511_0]

theorem RoundTrip.vredmax (m : BitVec 1) (b a d : BitVec 5) : RoundTrip.Statement (.vredmax m b a d) := by
  intro w h; cases h
  rw [decode_pack]
  simp [decodeParts, decodeVx, cat511_2, cat511_1, cat511_0]

theorem RoundTrip.vredand (m : BitVec 1) (b a d : BitVec 5) : RoundTrip.Statement (.vredand m b a d) := by
  intro w h; cases h
  rw [decode_pack]
  simp [decodeParts, decodeVx, cat511_2, cat511_1, cat511_0]

theorem RoundTrip.vredor (m : BitVec 1) (b a d : BitVec 5) : RoundTrip.Statement (.vredor m b a d) := by
  intro w h; cases h
  rw [decode_pack]
  simp [decodeParts, decodeVx, cat511_2, cat511_1, cat511_0]

theorem RoundTrip.vredxor (m : BitVec 1) (b a d : BitVec 5) : RoundTrip.Statement (.vredxor m b a d) := by
  intro w h; cases h
  rw [decode_pack]
  simp [decodeParts, decodeVx, cat511_2, cat511_1, cat511_0]

theorem RoundTrip.vargmax (m : BitVec 1) (b d : BitVec 5) : RoundTrip.Statement (.vargmax m b d) := by
  intro w h; cases h
  rw [decode_pack]
  simp [decodeParts, decodeVx, cat511_2, cat511_1, cat511_0]

theorem RoundTrip.vcompress (b d : BitVec 5) : RoundTrip.Statement (.vcompress b d) := by
  intro w h; cases h
  rw [decode_pack]
  simp [decodeParts, decodeVx, cat511_2, cat511_1, cat511_0]

theorem RoundTrip.vexpand (b d : BitVec 5) : RoundTrip.Statement (.vexpand b d) := by
  intro w h; cases h
  rw [decode_pack]
  simp [decodeParts, decodeVx, cat511_2, cat511_1, cat511_0]

theorem RoundTrip.vpcnt (m : BitVec 1) (a : BitVec 3) (d : BitVec 5) : RoundTrip.Statement (.vpcnt m a d) := by
  intro w h; cases h
  rw [decode_pack]
  simp [decodeParts, decodeVx, cat23_3, cat23_0, cat511_2, cat511_1, cat511_0]

theorem RoundTrip.vconfl (m : BitVec 1) (a d : BitVec 5) : RoundTrip.Statement (.vconfl m a d) := by
  intro w h; cases h
  rw [decode_pack]
  simp [decodeParts, decodeVx, cat511_2, cat511_1, cat511_0]

theorem RoundTrip.vslideup (m : BitVec 1) (b a d : BitVec 5) : RoundTrip.Statement (.vslideup m b a d) := by
  intro w h; cases h
  rw [decode_pack]
  simp [decodeParts, decodeVx, cat511_2, cat511_1, cat511_0]

theorem RoundTrip.vslidedn (m : BitVec 1) (b a d : BitVec 5) : RoundTrip.Statement (.vslidedn m b a d) := by
  intro w h; cases h
  rw [decode_pack]
  simp [decodeParts, decodeVx, cat511_2, cat511_1, cat511_0]

theorem RoundTrip.vperm (m : BitVec 1) (b a d : BitVec 5) : RoundTrip.Statement (.vperm m b a d) := by
  intro w h; cases h
  rw [decode_pack]
  simp [decodeParts, decodeVx, cat511_2, cat511_1, cat511_0]

theorem RoundTrip.viota (m : BitVec 1) (a d : BitVec 5) : RoundTrip.Statement (.viota m a d) := by
  intro w h; cases h
  rw [decode_pack]
  simp [decodeParts, decodeVx, cat511_2, cat511_1, cat511_0]

theorem RoundTrip.vsscanAdd (b d : BitVec 5) : RoundTrip.Statement (.vsscanAdd b d) := by
  intro w h; cases h
  rw [decode_pack]
  simp [decodeParts, decodeVx, cat511_2, cat511_1, cat511_0]

theorem RoundTrip.vsscanMin (b d : BitVec 5) : RoundTrip.Statement (.vsscanMin b d) := by
  intro w h; cases h
  rw [decode_pack]
  simp [decodeParts, decodeVx, cat511_2, cat511_1, cat511_0]

theorem RoundTrip.vsscanMax (b d : BitVec 5) : RoundTrip.Statement (.vsscanMax b d) := by
  intro w h; cases h
  rw [decode_pack]
  simp [decodeParts, decodeVx, cat511_2, cat511_1, cat511_0]

theorem RoundTrip.vsscanOr (b d : BitVec 5) : RoundTrip.Statement (.vsscanOr b d) := by
  intro w h; cases h
  rw [decode_pack]
  simp [decodeParts, decodeVx, cat511_2, cat511_1, cat511_0]

theorem RoundTrip.vtopk (m : BitVec 1) (b a d : BitVec 5) : RoundTrip.Statement (.vtopk m b a d) := by
  intro w h; cases h
  rw [decode_pack]
  simp [decodeParts, decodeVx, cat511_2, cat511_1, cat511_0]

theorem RoundTrip.vinter (m : BitVec 1) (b a d : BitVec 5) : RoundTrip.Statement (.vinter m b a d) := by
  intro w h; cases h
  rw [decode_pack]
  simp [decodeParts, decodeVx, cat511_2, cat511_1, cat511_0]

theorem RoundTrip.vsortk (m : BitVec 1) (a d : BitVec 5) : RoundTrip.Statement (.vsortk m a d) := by
  intro w h; cases h
  rw [decode_pack]
  simp [decodeParts, decodeVx, cat511_2, cat511_1, cat511_0]

theorem RoundTrip.pand (c : BitVec 1) (b a d : BitVec 3) : RoundTrip.Statement (.pand c b a d) := by
  intro w h; cases h
  rw [decode_pack]
  simp [decodeParts, decodeVx, cat23_3, cat23_0, cat511_2, cat511_1, cat511_0]

theorem RoundTrip.por (c : BitVec 1) (b a d : BitVec 3) : RoundTrip.Statement (.por c b a d) := by
  intro w h; cases h
  rw [decode_pack]
  simp [decodeParts, decodeVx, cat23_3, cat23_0, cat511_2, cat511_1, cat511_0]

theorem RoundTrip.pxor (c : BitVec 1) (b a d : BitVec 3) : RoundTrip.Statement (.pxor c b a d) := by
  intro w h; cases h
  rw [decode_pack]
  simp [decodeParts, decodeVx, cat23_3, cat23_0, cat511_2, cat511_1, cat511_0]

theorem RoundTrip.pnot (c : BitVec 1) (a d : BitVec 3) : RoundTrip.Statement (.pnot c a d) := by
  intro w h; cases h
  rw [decode_pack]
  simp [decodeParts, decodeVx, cat23_3, cat23_0, cat511_2, cat511_1, cat511_0]

theorem RoundTrip.pmov (c : BitVec 1) (a d : BitVec 3) : RoundTrip.Statement (.pmov c a d) := by
  intro w h; cases h
  rw [decode_pack]
  simp [decodeParts, decodeVx, cat23_3, cat23_0, cat511_2, cat511_1, cat511_0]

theorem RoundTrip.pcnt (c : BitVec 1) (a : BitVec 3) (d : BitVec 5) : RoundTrip.Statement (.pcnt c a d) := by
  intro w h; cases h
  rw [decode_pack]
  simp [decodeParts, decodeVx, cat23_3, cat23_0, cat511_2, cat511_1, cat511_0]

theorem RoundTrip.pfirst (c : BitVec 1) (a : BitVec 3) (d : BitVec 5) : RoundTrip.Statement (.pfirst c a d) := by
  intro w h; cases h
  rw [decode_pack]
  simp [decodeParts, decodeVx, cat23_3, cat23_0, cat511_2, cat511_1, cat511_0]

theorem RoundTrip.vldUnit (c m : BitVec 1) (a d : BitVec 5) : RoundTrip.Statement (.vldUnit c m a d) := by
  intro w h; cases h
  rw [decode_pack]
  simp [decodeParts, decodeVm, cat511_2, cat511_1, cat511_0]

theorem RoundTrip.vldStrided (c m : BitVec 1) (b a d : BitVec 5) : RoundTrip.Statement (.vldStrided c m b a d) := by
  intro w h; cases h
  rw [decode_pack]
  simp [decodeParts, decodeVm, cat511_2, cat511_1, cat511_0]

theorem RoundTrip.vldIndexed (m : BitVec 1) (b a d : BitVec 5) : RoundTrip.Statement (.vldIndexed m b a d) := by
  intro w h; cases h
  rw [decode_pack]
  simp [decodeParts, decodeVm, cat511_2, cat511_1, cat511_0]

theorem RoundTrip.vldffUnit (c m : BitVec 1) (a d : BitVec 5) : RoundTrip.Statement (.vldffUnit c m a d) := by
  intro w h; cases h
  rw [decode_pack]
  simp [decodeParts, decodeVm, cat511_2, cat511_1, cat511_0]

theorem RoundTrip.vldffStrided (c m : BitVec 1) (b a d : BitVec 5) : RoundTrip.Statement (.vldffStrided c m b a d) := by
  intro w h; cases h
  rw [decode_pack]
  simp [decodeParts, decodeVm, cat511_2, cat511_1, cat511_0]

theorem RoundTrip.vldffIndexed (m : BitVec 1) (b a d : BitVec 5) : RoundTrip.Statement (.vldffIndexed m b a d) := by
  intro w h; cases h
  rw [decode_pack]
  simp [decodeParts, decodeVm, cat511_2, cat511_1, cat511_0]

theorem RoundTrip.vstUnit (c m : BitVec 1) (a s : BitVec 5) : RoundTrip.Statement (.vstUnit c m a s) := by
  intro w h; cases h
  rw [decode_pack]
  simp [decodeParts, decodeVm, cat511_2, cat511_1, cat511_0]

theorem RoundTrip.vstStrided (c m : BitVec 1) (b a s : BitVec 5) : RoundTrip.Statement (.vstStrided c m b a s) := by
  intro w h; cases h
  rw [decode_pack]
  simp [decodeParts, decodeVm, cat511_2, cat511_1, cat511_0]

theorem RoundTrip.vstIndexed (m : BitVec 1) (b a s : BitVec 5) : RoundTrip.Statement (.vstIndexed m b a s) := by
  intro w h; cases h
  rw [decode_pack]
  simp [decodeParts, decodeVm, cat511_2, cat511_1, cat511_0]

theorem RoundTrip.vstn (c m : BitVec 1) (b a s : BitVec 5) : RoundTrip.Statement (.vstn c m b a s) := by
  intro w h; cases h
  rw [decode_pack]
  simp [decodeParts, decodeVm, cat511_2, cat511_1, cat511_0]

theorem RoundTrip.vrsAddUnit (c m : BitVec 1) (a s : BitVec 5) : RoundTrip.Statement (.vrsAddUnit c m a s) := by
  intro w h; cases h
  rw [decode_pack]
  simp [decodeParts, decodeVm, cat511_2, cat511_1, cat511_0]

theorem RoundTrip.vrsAddIndexed (c m : BitVec 1) (b a s : BitVec 5) : RoundTrip.Statement (.vrsAddIndexed c m b a s) := by
  intro w h; cases h
  rw [decode_pack]
  simp [decodeParts, decodeVm, cat511_2, cat511_1, cat511_0]

theorem RoundTrip.vrsMinUnit (c m : BitVec 1) (a s : BitVec 5) : RoundTrip.Statement (.vrsMinUnit c m a s) := by
  intro w h; cases h
  rw [decode_pack]
  simp [decodeParts, decodeVm, cat511_2, cat511_1, cat511_0]

theorem RoundTrip.vrsMinIndexed (c m : BitVec 1) (b a s : BitVec 5) : RoundTrip.Statement (.vrsMinIndexed c m b a s) := by
  intro w h; cases h
  rw [decode_pack]
  simp [decodeParts, decodeVm, cat511_2, cat511_1, cat511_0]

theorem RoundTrip.vrsMaxUnit (c m : BitVec 1) (a s : BitVec 5) : RoundTrip.Statement (.vrsMaxUnit c m a s) := by
  intro w h; cases h
  rw [decode_pack]
  simp [decodeParts, decodeVm, cat511_2, cat511_1, cat511_0]

theorem RoundTrip.vrsMaxIndexed (c m : BitVec 1) (b a s : BitVec 5) : RoundTrip.Statement (.vrsMaxIndexed c m b a s) := by
  intro w h; cases h
  rw [decode_pack]
  simp [decodeParts, decodeVm, cat511_2, cat511_1, cat511_0]

theorem RoundTrip.vrsOrUnit (c m : BitVec 1) (a s : BitVec 5) : RoundTrip.Statement (.vrsOrUnit c m a s) := by
  intro w h; cases h
  rw [decode_pack]
  simp [decodeParts, decodeVm, cat511_2, cat511_1, cat511_0]

theorem RoundTrip.vrsOrIndexed (c m : BitVec 1) (b a s : BitVec 5) : RoundTrip.Statement (.vrsOrIndexed c m b a s) := by
  intro w h; cases h
  rw [decode_pack]
  simp [decodeParts, decodeVm, cat511_2, cat511_1, cat511_0]

theorem RoundTrip.vspill (a s : BitVec 5) : RoundTrip.Statement (.vspill a s) := by
  intro w h; cases h
  rw [decode_pack]
  simp [decodeParts, decodeVm, cat511_2, cat511_1, cat511_0]

theorem RoundTrip.vfill (a d : BitVec 5) : RoundTrip.Statement (.vfill a d) := by
  intro w h; cases h
  rw [decode_pack]
  simp [decodeParts, decodeVm, cat511_2, cat511_1, cat511_0]

theorem RoundTrip.vprep (b a d : BitVec 5) : RoundTrip.Statement (.vprep b a d) := by
  intro w h; cases h
  rw [decode_pack]
  simp [decodeParts, decodeVm, cat511_2, cat511_1, cat511_0]

theorem RoundTrip.vtrimh (b a d : BitVec 5) : RoundTrip.Statement (.vtrimh b a d) := by
  intro w h; cases h
  rw [decode_pack]
  simp [decodeParts, decodeVm, cat511_2, cat511_1, cat511_0]

theorem RoundTrip.vtrimt (b a d : BitVec 5) : RoundTrip.Statement (.vtrimt b a d) := by
  intro w h; cases h
  rw [decode_pack]
  simp [decodeParts, decodeVm, cat511_2, cat511_1, cat511_0]

theorem RoundTrip.vsplit (b a d : BitVec 5) : RoundTrip.Statement (.vsplit b a d) := by
  intro w h; cases h
  rw [decode_pack]
  simp [decodeParts, decodeVm, cat511_2, cat511_1, cat511_0]

theorem RoundTrip.vjoin (b a d : BitVec 5) : RoundTrip.Statement (.vjoin b a d) := by
  intro w h; cases h
  rw [decode_pack]
  simp [decodeParts, decodeVm, cat511_2, cat511_1, cat511_0]

theorem RoundTrip.vshare (a d : BitVec 5) : RoundTrip.Statement (.vshare a d) := by
  intro w h; cases h
  rw [decode_pack]
  simp [decodeParts, decodeVm, cat511_2, cat511_1, cat511_0]

theorem RoundTrip.vretype (t a d : BitVec 5) : RoundTrip.Statement (.vretype t a d) := by
  intro w h; cases h
  rw [decode_pack]
  simp [decodeParts, decodeVm, cat511_2, cat511_1, cat511_0]

theorem RoundTrip.vlen (a d : BitVec 5) : RoundTrip.Statement (.vlen a d) := by
  intro w h; cases h
  rw [decode_pack]
  simp [decodeParts, decodeVm, cat511_2, cat511_1, cat511_0]

theorem RoundTrip.vfree (d : BitVec 5) : RoundTrip.Statement (.vfree d) := by
  intro w h; cases h
  rw [decode_pack]
  simp [decodeParts, decodeVm, cat511_2, cat511_1, cat511_0]

theorem RoundTrip.vnorm (a d : BitVec 5) : RoundTrip.Statement (.vnorm a d) := by
  intro w h; cases h
  rw [decode_pack]
  simp [decodeParts, decodeVm, cat511_2, cat511_1, cat511_0]

theorem RoundTrip.fclaim (b a d : BitVec 5) : RoundTrip.Statement (.fclaim b a d) := by
  intro w h; cases h
  rw [decode_pack]
  simp [decodeParts, decodeVm, cat511_2, cat511_1, cat511_0]

theorem RoundTrip.frel  : RoundTrip.Statement (.frel ) := by
  intro w h; cases h
  rw [decode_pack]
  simp [decodeParts, decodeVm, cat511_2, cat511_1, cat511_0]

theorem RoundTrip.fins (m : BitVec 1) (b a : BitVec 5) (p : BitVec 2) : RoundTrip.Statement (.fins m b a p) := by
  intro w h; cases h
  rw [decode_pack]
  simp [decodeParts, decodeVm, cat221_3, cat221_1, cat221_0, cat511_2, cat511_1, cat511_0]

theorem RoundTrip.fprobe (m : BitVec 1) (b a : BitVec 5) (p : BitVec 2) (d : BitVec 5) : RoundTrip.Statement (.fprobe m b a p d) := by
  intro w h; cases h
  rw [decode_pack]
  simp [decodeParts, decodeVm, cat12_2, cat12_0, cat511_2, cat511_1, cat511_0]

theorem RoundTrip.fdel (m : BitVec 1) (a : BitVec 5) (p : BitVec 2) : RoundTrip.Statement (.fdel m a p) := by
  intro w h; cases h
  rw [decode_pack]
  simp [decodeParts, decodeVm, cat221_3, cat221_1, cat221_0, cat511_2, cat511_1, cat511_0]

theorem RoundTrip.faccAdd (m : BitVec 1) (p : BitVec 2) (a d : BitVec 5) : RoundTrip.Statement (.faccAdd m p a d) := by
  intro w h; cases h
  rw [decode_pack]
  simp [decodeParts, decodeVm, cat221_3, cat221_1, cat221_0, cat511_2, cat511_1, cat511_0]

theorem RoundTrip.faccMin (m : BitVec 1) (p : BitVec 2) (a d : BitVec 5) : RoundTrip.Statement (.faccMin m p a d) := by
  intro w h; cases h
  rw [decode_pack]
  simp [decodeParts, decodeVm, cat221_3, cat221_1, cat221_0, cat511_2, cat511_1, cat511_0]

theorem RoundTrip.faccMax (m : BitVec 1) (p : BitVec 2) (a d : BitVec 5) : RoundTrip.Statement (.faccMax m p a d) := by
  intro w h; cases h
  rw [decode_pack]
  simp [decodeParts, decodeVm, cat221_3, cat221_1, cat221_0, cat511_2, cat511_1, cat511_0]

theorem RoundTrip.faccOr (m : BitVec 1) (p : BitVec 2) (a d : BitVec 5) : RoundTrip.Statement (.faccOr m p a d) := by
  intro w h; cases h
  rw [decode_pack]
  simp [decodeParts, decodeVm, cat221_3, cat221_1, cat221_0, cat511_2, cat511_1, cat511_0]

theorem RoundTrip.faccCount (m : BitVec 1) (p : BitVec 2) (a d : BitVec 5) : RoundTrip.Statement (.faccCount m p a d) := by
  intro w h; cases h
  rw [decode_pack]
  simp [decodeParts, decodeVm, cat221_3, cat221_1, cat221_0, cat511_2, cat511_1, cat511_0]

theorem RoundTrip.fdrain (b d : BitVec 5) : RoundTrip.Statement (.fdrain b d) := by
  intro w h; cases h
  rw [decode_pack]
  simp [decodeParts, decodeVm, cat511_2, cat511_1, cat511_0]

theorem RoundTrip.mset (b a : BitVec 5) (f d : BitVec 3) : RoundTrip.Statement (.mset b a f d) := by
  intro w h; cases h
  rw [decode_pack]
  simp [decodeParts, decodeMt, cat23_3, cat23_0, cat43_3, cat43_0]

theorem RoundTrip.mld (b a : BitVec 5) (d : BitVec 3) : RoundTrip.Statement (.mld b a d) := by
  intro w h; cases h
  rw [decode_pack]
  simp [decodeParts, decodeMt, cat23_3, cat23_0, cat43_3, cat43_0]

theorem RoundTrip.mldff (b a : BitVec 5) (d : BitVec 3) : RoundTrip.Statement (.mldff b a d) := by
  intro w h; cases h
  rw [decode_pack]
  simp [decodeParts, decodeMt, cat23_3, cat23_0, cat43_3, cat43_0]

theorem RoundTrip.mst (b a : BitVec 5) (d : BitVec 3) : RoundTrip.Statement (.mst b a d) := by
  intro w h; cases h
  rw [decode_pack]
  simp [decodeParts, decodeMt, cat23_3, cat23_0, cat43_3, cat43_0]

theorem RoundTrip.mzero (t : BitVec 5) : RoundTrip.Statement (.mzero t) := by
  intro w h; cases h
  rw [decode_pack]
  simp [decodeParts, decodeMt, cat43_3, cat43_0]

theorem RoundTrip.mop (c b a f : BitVec 3) : RoundTrip.Statement (.mop c b a f) := by
  intro w h; cases h
  rw [decode_pack]
  simp [decodeParts, decodeMt, cat23_3, cat23_0, cat43_3, cat43_0]

theorem RoundTrip.msca (c : BitVec 3) (b a : BitVec 5) : RoundTrip.Statement (.msca c b a) := by
  intro w h; cases h
  rw [decode_pack]
  simp [decodeParts, decodeMt, cat43_3, cat43_0]

theorem RoundTrip.mrowIn (b a : BitVec 5) (f d : BitVec 3) : RoundTrip.Statement (.mrowIn b a f d) := by
  intro w h; cases h
  rw [decode_pack]
  simp [decodeParts, decodeMt, cat23_3, cat23_0, cat43_3, cat43_0]

theorem RoundTrip.mrowOut (b : BitVec 5) (a f : BitVec 3) (d : BitVec 5) : RoundTrip.Statement (.mrowOut b a f d) := by
  intro w h; cases h
  rw [decode_pack]
  simp [decodeParts, decodeMt, cat23_3, cat23_0, cat43_3, cat43_0]

theorem RoundTrip.maccOut (c : BitVec 1) (b a : BitVec 5) (f : BitVec 3) (d : BitVec 5) : RoundTrip.Statement (.maccOut c b a f d) := by
  intro w h; cases h
  rw [decode_pack]
  simp [decodeParts, decodeMt, cat21_1, cat21_0, cat43_3, cat43_0]

theorem RoundTrip.mgang (a d : BitVec 5) : RoundTrip.Statement (.mgang a d) := by
  intro w h; cases h
  rw [decode_pack]
  simp [decodeParts, decodeMt, cat43_3, cat43_0]

theorem RoundTrip.mbcast (b : BitVec 5) (a : BitVec 3) : RoundTrip.Statement (.mbcast b a) := by
  intro w h; cases h
  rw [decode_pack]
  simp [decodeParts, decodeMt, cat23_3, cat23_0, cat43_3, cat43_0]

theorem RoundTrip.vsmine (o : BitVec 12) (k : BitVec 4) (n : BitVec 5) : RoundTrip.Statement (.vsmine o k n) := by
  intro w h; cases h
  rw [decode_pack]
  simp [decodeParts, decodeSy, cat14_4, cat14_0, join_12]

theorem RoundTrip.vsetl (t a d : BitVec 5) : RoundTrip.Statement (.vsetl t a d) := by
  intro w h; cases h
  rw [decode_pack]
  simp [decodeParts, decodeSy]

theorem RoundTrip.vcollapse (a d : BitVec 5) : RoundTrip.Statement (.vcollapse a d) := by
  intro w h; cases h
  rw [decode_pack]
  simp [decodeParts, decodeSy]

theorem RoundTrip.fenceSv (s : BitVec 2) : RoundTrip.Statement (.fenceSv s) := by
  intro w h; cases h
  rw [decode_pack]
  simp [decodeParts, decodeSy, cat32_2, cat32_0]

theorem RoundTrip.fenceVs (s : BitVec 2) : RoundTrip.Statement (.fenceVs s) := by
  intro w h; cases h
  rw [decode_pack]
  simp [decodeParts, decodeSy, cat32_2, cat32_0]

theorem RoundTrip.fenceVv (s : BitVec 2) : RoundTrip.Statement (.fenceVv s) := by
  intro w h; cases h
  rw [decode_pack]
  simp [decodeParts, decodeSy, cat32_2, cat32_0]

theorem RoundTrip.rel (s : BitVec 2) : RoundTrip.Statement (.rel s) := by
  intro w h; cases h
  rw [decode_pack]
  simp [decodeParts, decodeSy, cat32_2, cat32_0]

theorem RoundTrip.acq (s : BitVec 2) : RoundTrip.Statement (.acq s) := by
  intro w h; cases h
  rw [decode_pack]
  simp [decodeParts, decodeSy, cat32_2, cat32_0]

theorem RoundTrip.ccopy (b a d : BitVec 5) : RoundTrip.Statement (.ccopy b a d) := by
  intro w h; cases h
  rw [decode_pack]
  simp [decodeParts, decodeSy]

theorem RoundTrip.cwait (b a d : BitVec 5) : RoundTrip.Statement (.cwait b a d) := by
  intro w h; cases h
  rw [decode_pack]
  simp [decodeParts, decodeSy]

theorem RoundTrip.ctest (b a d : BitVec 5) : RoundTrip.Statement (.ctest b a d) := by
  intro w h; cases h
  rw [decode_pack]
  simp [decodeParts, decodeSy]

theorem RoundTrip.rayOpen (b a d : BitVec 5) : RoundTrip.Statement (.rayOpen b a d) := by
  intro w h; cases h
  rw [decode_pack]
  simp [decodeParts, decodeSy]

theorem RoundTrip.rayClose (a : BitVec 5) : RoundTrip.Statement (.rayClose a) := by
  intro w h; cases h
  rw [decode_pack]
  simp [decodeParts, decodeSy]

theorem RoundTrip.rayGrant (b a : BitVec 5) : RoundTrip.Statement (.rayGrant b a) := by
  intro w h; cases h
  rw [decode_pack]
  simp [decodeParts, decodeSy]

theorem RoundTrip.vsend (b a : BitVec 5) : RoundTrip.Statement (.vsend b a) := by
  intro w h; cases h
  rw [decode_pack]
  simp [decodeParts, decodeSy]

theorem RoundTrip.rayRecv (a d : BitVec 5) : RoundTrip.Statement (.rayRecv a d) := by
  intro w h; cases h
  rw [decode_pack]
  simp [decodeParts, decodeSy]

theorem RoundTrip.vroute (b a d : BitVec 5) : RoundTrip.Statement (.vroute b a d) := by
  intro w h; cases h
  rw [decode_pack]
  simp [decodeParts, decodeSy]

theorem RoundTrip.barInit (b a d : BitVec 5) : RoundTrip.Statement (.barInit b a d) := by
  intro w h; cases h
  rw [decode_pack]
  simp [decodeParts, decodeSy]

theorem RoundTrip.barArrive (a : BitVec 5) : RoundTrip.Statement (.barArrive a) := by
  intro w h; cases h
  rw [decode_pack]
  simp [decodeParts, decodeSy]

theorem RoundTrip.barWait (a d : BitVec 5) : RoundTrip.Statement (.barWait a d) := by
  intro w h; cases h
  rw [decode_pack]
  simp [decodeParts, decodeSy]

theorem RoundTrip.collAdd (b a d : BitVec 5) : RoundTrip.Statement (.collAdd b a d) := by
  intro w h; cases h
  rw [decode_pack]
  simp [decodeParts, decodeSy]

theorem RoundTrip.collMin (b a d : BitVec 5) : RoundTrip.Statement (.collMin b a d) := by
  intro w h; cases h
  rw [decode_pack]
  simp [decodeParts, decodeSy]

theorem RoundTrip.collMax (b a d : BitVec 5) : RoundTrip.Statement (.collMax b a d) := by
  intro w h; cases h
  rw [decode_pack]
  simp [decodeParts, decodeSy]

theorem RoundTrip.collOr (b a d : BitVec 5) : RoundTrip.Statement (.collOr b a d) := by
  intro w h; cases h
  rw [decode_pack]
  simp [decodeParts, decodeSy]

theorem RoundTrip.tsub (a d : BitVec 5) : RoundTrip.Statement (.tsub a d) := by
  intro w h; cases h
  rw [decode_pack]
  simp [decodeParts, decodeSy]

theorem RoundTrip.tdone  : RoundTrip.Statement (.tdone ) := by
  intro w h; cases h
  rw [decode_pack]
  simp [decodeParts, decodeSy]

theorem RoundTrip.tyield  : RoundTrip.Statement (.tyield ) := by
  intro w h; cases h
  rw [decode_pack]
  simp [decodeParts, decodeSy]

theorem RoundTrip.twait (b a d : BitVec 5) : RoundTrip.Statement (.twait b a d) := by
  intro w h; cases h
  rw [decode_pack]
  simp [decodeParts, decodeSy]

theorem RoundTrip.tkill (a d : BitVec 5) : RoundTrip.Statement (.tkill a d) := by
  intro w h; cases h
  rw [decode_pack]
  simp [decodeParts, decodeSy]

theorem RoundTrip.qseg (a d : BitVec 5) : RoundTrip.Statement (.qseg a d) := by
  intro w h; cases h
  rw [decode_pack]
  simp [decodeParts, decodeSy]

theorem RoundTrip.qctx (a d : BitVec 5) : RoundTrip.Statement (.qctx a d) := by
  intro w h; cases h
  rw [decode_pack]
  simp [decodeParts, decodeSy]

theorem RoundTrip.tlbdrop (b a : BitVec 5) : RoundTrip.Statement (.tlbdrop b a) := by
  intro w h; cases h
  rw [decode_pack]
  simp [decodeParts, decodeSy]

theorem RoundTrip.cflush (b a : BitVec 5) : RoundTrip.Statement (.cflush b a) := by
  intro w h; cases h
  rw [decode_pack]
  simp [decodeParts, decodeSy]

theorem RoundTrip.evfrz (a : BitVec 5) : RoundTrip.Statement (.evfrz a) := by
  intro w h; cases h
  rw [decode_pack]
  simp [decodeParts, decodeSy]

theorem RoundTrip.syHint (h : BitVec 6) (b a : BitVec 5) : RoundTrip.Statement (.syHint h b a) := by
  intro w h; cases h
  rw [decode_pack]
  simp [decodeParts, decodeSy, hint_apart]

theorem RoundTrip.bfx (e b a d : BitVec 5) : RoundTrip.Statement (.bfx e b a d) := by
  intro w h; cases h
  rw [decode_pack]
  simp [decodeParts, decodeSy, cat52_2, cat52_0]

theorem RoundTrip.bfxs (e b a d : BitVec 5) : RoundTrip.Statement (.bfxs e b a d) := by
  intro w h; cases h
  rw [decode_pack]
  simp [decodeParts, decodeSy, cat52_2, cat52_0]

theorem RoundTrip.bfi (e b a d : BitVec 5) : RoundTrip.Statement (.bfi e b a d) := by
  intro w h; cases h
  rw [decode_pack]
  simp [decodeParts, decodeSy, cat52_2, cat52_0]

theorem RoundTrip.lui (u : BitVec 20) (d : BitVec 5) : RoundTrip.Statement (.lui u d) := by
  intro w h; cases h
  rw [decode_pack]
  simp [decodeParts, decodeLui, join_20]

theorem RoundTrip.auipc (u : BitVec 20) (d : BitVec 5) : RoundTrip.Statement (.auipc u d) := by
  intro w h; cases h
  rw [decode_pack]
  simp [decodeParts, decodeAuipc, join_20]

theorem RoundTrip.jal (j : BitVec 20) (d : BitVec 5) : RoundTrip.Statement (.jal j d) := by
  intro w h; cases h
  rw [decode_pack]
  simp [decodeParts, decodeJal, join_20]

theorem RoundTrip.jalr (i : BitVec 12) (a d : BitVec 5) : RoundTrip.Statement (.jalr i a d) := by
  intro w h; cases h
  rw [decode_pack]
  simp [decodeParts, decodeJalr, join_12]

theorem RoundTrip.beq (h : BitVec 7) (b a l : BitVec 5) : RoundTrip.Statement (.beq h b a l) := by
  intro w h; cases h
  rw [decode_pack]
  simp [decodeParts, decodeBranch]

theorem RoundTrip.bne (h : BitVec 7) (b a l : BitVec 5) : RoundTrip.Statement (.bne h b a l) := by
  intro w h; cases h
  rw [decode_pack]
  simp [decodeParts, decodeBranch]

theorem RoundTrip.blt (h : BitVec 7) (b a l : BitVec 5) : RoundTrip.Statement (.blt h b a l) := by
  intro w h; cases h
  rw [decode_pack]
  simp [decodeParts, decodeBranch]

theorem RoundTrip.bge (h : BitVec 7) (b a l : BitVec 5) : RoundTrip.Statement (.bge h b a l) := by
  intro w h; cases h
  rw [decode_pack]
  simp [decodeParts, decodeBranch]

theorem RoundTrip.bltu (h : BitVec 7) (b a l : BitVec 5) : RoundTrip.Statement (.bltu h b a l) := by
  intro w h; cases h
  rw [decode_pack]
  simp [decodeParts, decodeBranch]

theorem RoundTrip.bgeu (h : BitVec 7) (b a l : BitVec 5) : RoundTrip.Statement (.bgeu h b a l) := by
  intro w h; cases h
  rw [decode_pack]
  simp [decodeParts, decodeBranch]

theorem RoundTrip.lb (i : BitVec 12) (a d : BitVec 5) : RoundTrip.Statement (.lb i a d) := by
  intro w h; cases h
  rw [decode_pack]
  simp [decodeParts, decodeLoad, join_12]

theorem RoundTrip.lh (i : BitVec 12) (a d : BitVec 5) : RoundTrip.Statement (.lh i a d) := by
  intro w h; cases h
  rw [decode_pack]
  simp [decodeParts, decodeLoad, join_12]

theorem RoundTrip.lw (i : BitVec 12) (a d : BitVec 5) : RoundTrip.Statement (.lw i a d) := by
  intro w h; cases h
  rw [decode_pack]
  simp [decodeParts, decodeLoad, join_12]

theorem RoundTrip.ld (i : BitVec 12) (a d : BitVec 5) : RoundTrip.Statement (.ld i a d) := by
  intro w h; cases h
  rw [decode_pack]
  simp [decodeParts, decodeLoad, join_12]

theorem RoundTrip.lbu (i : BitVec 12) (a d : BitVec 5) : RoundTrip.Statement (.lbu i a d) := by
  intro w h; cases h
  rw [decode_pack]
  simp [decodeParts, decodeLoad, join_12]

theorem RoundTrip.lhu (i : BitVec 12) (a d : BitVec 5) : RoundTrip.Statement (.lhu i a d) := by
  intro w h; cases h
  rw [decode_pack]
  simp [decodeParts, decodeLoad, join_12]

theorem RoundTrip.lwu (i : BitVec 12) (a d : BitVec 5) : RoundTrip.Statement (.lwu i a d) := by
  intro w h; cases h
  rw [decode_pack]
  simp [decodeParts, decodeLoad, join_12]

theorem RoundTrip.sb (h : BitVec 7) (b a l : BitVec 5) : RoundTrip.Statement (.sb h b a l) := by
  intro w h; cases h
  rw [decode_pack]
  simp [decodeParts, decodeStore]

theorem RoundTrip.sh (h : BitVec 7) (b a l : BitVec 5) : RoundTrip.Statement (.sh h b a l) := by
  intro w h; cases h
  rw [decode_pack]
  simp [decodeParts, decodeStore]

theorem RoundTrip.sw (h : BitVec 7) (b a l : BitVec 5) : RoundTrip.Statement (.sw h b a l) := by
  intro w h; cases h
  rw [decode_pack]
  simp [decodeParts, decodeStore]

theorem RoundTrip.sd (h : BitVec 7) (b a l : BitVec 5) : RoundTrip.Statement (.sd h b a l) := by
  intro w h; cases h
  rw [decode_pack]
  simp [decodeParts, decodeStore]

theorem RoundTrip.addi (i : BitVec 12) (a d : BitVec 5) : RoundTrip.Statement (.addi i a d) := by
  intro w h; cases h
  rw [decode_pack]
  simp [decodeParts, decodeOpImm, join_12]

theorem RoundTrip.slti (i : BitVec 12) (a d : BitVec 5) : RoundTrip.Statement (.slti i a d) := by
  intro w h; cases h
  rw [decode_pack]
  simp [decodeParts, decodeOpImm, join_12]

theorem RoundTrip.sltiu (i : BitVec 12) (a d : BitVec 5) : RoundTrip.Statement (.sltiu i a d) := by
  intro w h; cases h
  rw [decode_pack]
  simp [decodeParts, decodeOpImm, join_12]

theorem RoundTrip.xori (i : BitVec 12) (a d : BitVec 5) : RoundTrip.Statement (.xori i a d) := by
  intro w h; cases h
  rw [decode_pack]
  simp [decodeParts, decodeOpImm, join_12]

theorem RoundTrip.ori (i : BitVec 12) (a d : BitVec 5) : RoundTrip.Statement (.ori i a d) := by
  intro w h; cases h
  rw [decode_pack]
  simp [decodeParts, decodeOpImm, join_12]

theorem RoundTrip.andi (i : BitVec 12) (a d : BitVec 5) : RoundTrip.Statement (.andi i a d) := by
  intro w h; cases h
  rw [decode_pack]
  simp [decodeParts, decodeOpImm, join_12]

theorem RoundTrip.slli (h : BitVec 6) (a d : BitVec 5) : RoundTrip.Statement (.slli h a d) := by
  intro w h; cases h
  rw [decode_pack]
  simp [decodeParts, decodeOpImm, cat61_1, cat61_0, join_6]

theorem RoundTrip.srli (h : BitVec 6) (a d : BitVec 5) : RoundTrip.Statement (.srli h a d) := by
  intro w h; cases h
  rw [decode_pack]
  simp [decodeParts, decodeOpImm, cat61_1, cat61_0, join_6]

theorem RoundTrip.srai (h : BitVec 6) (a d : BitVec 5) : RoundTrip.Statement (.srai h a d) := by
  intro w h; cases h
  rw [decode_pack]
  simp [decodeParts, decodeOpImm, cat61_1, cat61_0, join_6]

theorem RoundTrip.add (b a d : BitVec 5) : RoundTrip.Statement (.add b a d) := by
  intro w h; cases h
  rw [decode_pack]
  simp [decodeParts, decodeOp]

theorem RoundTrip.sub (b a d : BitVec 5) : RoundTrip.Statement (.sub b a d) := by
  intro w h; cases h
  rw [decode_pack]
  simp [decodeParts, decodeOp]

theorem RoundTrip.sll (b a d : BitVec 5) : RoundTrip.Statement (.sll b a d) := by
  intro w h; cases h
  rw [decode_pack]
  simp [decodeParts, decodeOp]

theorem RoundTrip.slt (b a d : BitVec 5) : RoundTrip.Statement (.slt b a d) := by
  intro w h; cases h
  rw [decode_pack]
  simp [decodeParts, decodeOp]

theorem RoundTrip.sltu (b a d : BitVec 5) : RoundTrip.Statement (.sltu b a d) := by
  intro w h; cases h
  rw [decode_pack]
  simp [decodeParts, decodeOp]

theorem RoundTrip.xor (b a d : BitVec 5) : RoundTrip.Statement (.xor b a d) := by
  intro w h; cases h
  rw [decode_pack]
  simp [decodeParts, decodeOp]

theorem RoundTrip.srl (b a d : BitVec 5) : RoundTrip.Statement (.srl b a d) := by
  intro w h; cases h
  rw [decode_pack]
  simp [decodeParts, decodeOp]

theorem RoundTrip.sra (b a d : BitVec 5) : RoundTrip.Statement (.sra b a d) := by
  intro w h; cases h
  rw [decode_pack]
  simp [decodeParts, decodeOp]

theorem RoundTrip.or (b a d : BitVec 5) : RoundTrip.Statement (.or b a d) := by
  intro w h; cases h
  rw [decode_pack]
  simp [decodeParts, decodeOp]

theorem RoundTrip.and (b a d : BitVec 5) : RoundTrip.Statement (.and b a d) := by
  intro w h; cases h
  rw [decode_pack]
  simp [decodeParts, decodeOp]

theorem RoundTrip.mul (b a d : BitVec 5) : RoundTrip.Statement (.mul b a d) := by
  intro w h; cases h
  rw [decode_pack]
  simp [decodeParts, decodeOp]

theorem RoundTrip.mulh (b a d : BitVec 5) : RoundTrip.Statement (.mulh b a d) := by
  intro w h; cases h
  rw [decode_pack]
  simp [decodeParts, decodeOp]

theorem RoundTrip.mulhsu (b a d : BitVec 5) : RoundTrip.Statement (.mulhsu b a d) := by
  intro w h; cases h
  rw [decode_pack]
  simp [decodeParts, decodeOp]

theorem RoundTrip.mulhu (b a d : BitVec 5) : RoundTrip.Statement (.mulhu b a d) := by
  intro w h; cases h
  rw [decode_pack]
  simp [decodeParts, decodeOp]

theorem RoundTrip.div (b a d : BitVec 5) : RoundTrip.Statement (.div b a d) := by
  intro w h; cases h
  rw [decode_pack]
  simp [decodeParts, decodeOp]

theorem RoundTrip.divu (b a d : BitVec 5) : RoundTrip.Statement (.divu b a d) := by
  intro w h; cases h
  rw [decode_pack]
  simp [decodeParts, decodeOp]

theorem RoundTrip.rem (b a d : BitVec 5) : RoundTrip.Statement (.rem b a d) := by
  intro w h; cases h
  rw [decode_pack]
  simp [decodeParts, decodeOp]

theorem RoundTrip.remu (b a d : BitVec 5) : RoundTrip.Statement (.remu b a d) := by
  intro w h; cases h
  rw [decode_pack]
  simp [decodeParts, decodeOp]

theorem RoundTrip.addiw (i : BitVec 12) (a d : BitVec 5) : RoundTrip.Statement (.addiw i a d) := by
  intro w h; cases h
  rw [decode_pack]
  simp [decodeParts, decodeOpImm32, join_12]

theorem RoundTrip.slliw (h a d : BitVec 5) : RoundTrip.Statement (.slliw h a d) := by
  intro w h; cases h
  rw [decode_pack]
  simp [decodeParts, decodeOpImm32]

theorem RoundTrip.srliw (h a d : BitVec 5) : RoundTrip.Statement (.srliw h a d) := by
  intro w h; cases h
  rw [decode_pack]
  simp [decodeParts, decodeOpImm32]

theorem RoundTrip.sraiw (h a d : BitVec 5) : RoundTrip.Statement (.sraiw h a d) := by
  intro w h; cases h
  rw [decode_pack]
  simp [decodeParts, decodeOpImm32]

theorem RoundTrip.addw (b a d : BitVec 5) : RoundTrip.Statement (.addw b a d) := by
  intro w h; cases h
  rw [decode_pack]
  simp [decodeParts, decodeOp32]

theorem RoundTrip.subw (b a d : BitVec 5) : RoundTrip.Statement (.subw b a d) := by
  intro w h; cases h
  rw [decode_pack]
  simp [decodeParts, decodeOp32]

theorem RoundTrip.sllw (b a d : BitVec 5) : RoundTrip.Statement (.sllw b a d) := by
  intro w h; cases h
  rw [decode_pack]
  simp [decodeParts, decodeOp32]

theorem RoundTrip.srlw (b a d : BitVec 5) : RoundTrip.Statement (.srlw b a d) := by
  intro w h; cases h
  rw [decode_pack]
  simp [decodeParts, decodeOp32]

theorem RoundTrip.sraw (b a d : BitVec 5) : RoundTrip.Statement (.sraw b a d) := by
  intro w h; cases h
  rw [decode_pack]
  simp [decodeParts, decodeOp32]

theorem RoundTrip.mulw (b a d : BitVec 5) : RoundTrip.Statement (.mulw b a d) := by
  intro w h; cases h
  rw [decode_pack]
  simp [decodeParts, decodeOp32]

theorem RoundTrip.divw (b a d : BitVec 5) : RoundTrip.Statement (.divw b a d) := by
  intro w h; cases h
  rw [decode_pack]
  simp [decodeParts, decodeOp32]

theorem RoundTrip.divuw (b a d : BitVec 5) : RoundTrip.Statement (.divuw b a d) := by
  intro w h; cases h
  rw [decode_pack]
  simp [decodeParts, decodeOp32]

theorem RoundTrip.remw (b a d : BitVec 5) : RoundTrip.Statement (.remw b a d) := by
  intro w h; cases h
  rw [decode_pack]
  simp [decodeParts, decodeOp32]

theorem RoundTrip.remuw (b a d : BitVec 5) : RoundTrip.Statement (.remuw b a d) := by
  intro w h; cases h
  rw [decode_pack]
  simp [decodeParts, decodeOp32]

theorem RoundTrip.fence (i : BitVec 12) (a d : BitVec 5) : RoundTrip.Statement (.fence i a d) := by
  intro w h; cases h
  rw [decode_pack]
  simp [decodeParts, decodeMiscMem, join_12]

theorem RoundTrip.fenceI (i : BitVec 12) (a d : BitVec 5) : RoundTrip.Statement (.fenceI i a d) := by
  intro w h; cases h
  rw [decode_pack]
  simp [decodeParts, decodeMiscMem, join_12]

theorem RoundTrip.lr (q r : BitVec 1) (a : BitVec 5) (w : BitVec 1) (d : BitVec 5) : RoundTrip.Statement (.lr q r a w d) := by
  intro w h; cases h
  rw [decode_pack]
  simp [decodeParts, decodeAmo, cat21_1, cat21_0, cat511_2, cat511_1, cat511_0]

theorem RoundTrip.sc (q r : BitVec 1) (b a : BitVec 5) (w : BitVec 1) (d : BitVec 5) : RoundTrip.Statement (.sc q r b a w d) := by
  intro w h; cases h
  rw [decode_pack]
  simp [decodeParts, decodeAmo, cat21_1, cat21_0, cat511_2, cat511_1, cat511_0]

theorem RoundTrip.amoswap (q r : BitVec 1) (b a : BitVec 5) (w : BitVec 1) (d : BitVec 5) : RoundTrip.Statement (.amoswap q r b a w d) := by
  intro w h; cases h
  rw [decode_pack]
  simp [decodeParts, decodeAmo, cat21_1, cat21_0, cat511_2, cat511_1, cat511_0]

theorem RoundTrip.amoadd (q r : BitVec 1) (b a : BitVec 5) (w : BitVec 1) (d : BitVec 5) : RoundTrip.Statement (.amoadd q r b a w d) := by
  intro w h; cases h
  rw [decode_pack]
  simp [decodeParts, decodeAmo, cat21_1, cat21_0, cat511_2, cat511_1, cat511_0]

theorem RoundTrip.amoxor (q r : BitVec 1) (b a : BitVec 5) (w : BitVec 1) (d : BitVec 5) : RoundTrip.Statement (.amoxor q r b a w d) := by
  intro w h; cases h
  rw [decode_pack]
  simp [decodeParts, decodeAmo, cat21_1, cat21_0, cat511_2, cat511_1, cat511_0]

theorem RoundTrip.amoand (q r : BitVec 1) (b a : BitVec 5) (w : BitVec 1) (d : BitVec 5) : RoundTrip.Statement (.amoand q r b a w d) := by
  intro w h; cases h
  rw [decode_pack]
  simp [decodeParts, decodeAmo, cat21_1, cat21_0, cat511_2, cat511_1, cat511_0]

theorem RoundTrip.amoor (q r : BitVec 1) (b a : BitVec 5) (w : BitVec 1) (d : BitVec 5) : RoundTrip.Statement (.amoor q r b a w d) := by
  intro w h; cases h
  rw [decode_pack]
  simp [decodeParts, decodeAmo, cat21_1, cat21_0, cat511_2, cat511_1, cat511_0]

theorem RoundTrip.amomin (q r : BitVec 1) (b a : BitVec 5) (w : BitVec 1) (d : BitVec 5) : RoundTrip.Statement (.amomin q r b a w d) := by
  intro w h; cases h
  rw [decode_pack]
  simp [decodeParts, decodeAmo, cat21_1, cat21_0, cat511_2, cat511_1, cat511_0]

theorem RoundTrip.amomax (q r : BitVec 1) (b a : BitVec 5) (w : BitVec 1) (d : BitVec 5) : RoundTrip.Statement (.amomax q r b a w d) := by
  intro w h; cases h
  rw [decode_pack]
  simp [decodeParts, decodeAmo, cat21_1, cat21_0, cat511_2, cat511_1, cat511_0]

theorem RoundTrip.amominu (q r : BitVec 1) (b a : BitVec 5) (w : BitVec 1) (d : BitVec 5) : RoundTrip.Statement (.amominu q r b a w d) := by
  intro w h; cases h
  rw [decode_pack]
  simp [decodeParts, decodeAmo, cat21_1, cat21_0, cat511_2, cat511_1, cat511_0]

theorem RoundTrip.amomaxu (q r : BitVec 1) (b a : BitVec 5) (w : BitVec 1) (d : BitVec 5) : RoundTrip.Statement (.amomaxu q r b a w d) := by
  intro w h; cases h
  rw [decode_pack]
  simp [decodeParts, decodeAmo, cat21_1, cat21_0, cat511_2, cat511_1, cat511_0]

theorem RoundTrip.ecall  : RoundTrip.Statement (.ecall ) := by
  intro w h; cases h
  rw [decode_pack]
  simp [decodeParts, decodeSystem]

theorem RoundTrip.ebreak  : RoundTrip.Statement (.ebreak ) := by
  intro w h; cases h
  rw [decode_pack]
  simp [decodeParts, decodeSystem]

theorem RoundTrip.sret  : RoundTrip.Statement (.sret ) := by
  intro w h; cases h
  rw [decode_pack]
  simp [decodeParts, decodeSystem]

theorem RoundTrip.wfi  : RoundTrip.Statement (.wfi ) := by
  intro w h; cases h
  rw [decode_pack]
  simp [decodeParts, decodeSystem]

theorem RoundTrip.csrrw (c : BitVec 12) (a d : BitVec 5) : RoundTrip.Statement (.csrrw c a d) := by
  intro w h; cases h
  rw [decode_pack]
  simp [decodeParts, decodeSystem, join_12]

theorem RoundTrip.csrrs (c : BitVec 12) (a d : BitVec 5) : RoundTrip.Statement (.csrrs c a d) := by
  intro w h; cases h
  rw [decode_pack]
  simp [decodeParts, decodeSystem, join_12]

theorem RoundTrip.csrrc (c : BitVec 12) (a d : BitVec 5) : RoundTrip.Statement (.csrrc c a d) := by
  intro w h; cases h
  rw [decode_pack]
  simp [decodeParts, decodeSystem, join_12]

theorem RoundTrip.csrrwi (c : BitVec 12) (u d : BitVec 5) : RoundTrip.Statement (.csrrwi c u d) := by
  intro w h; cases h
  rw [decode_pack]
  simp [decodeParts, decodeSystem, join_12]

theorem RoundTrip.csrrsi (c : BitVec 12) (u d : BitVec 5) : RoundTrip.Statement (.csrrsi c u d) := by
  intro w h; cases h
  rw [decode_pack]
  simp [decodeParts, decodeSystem, join_12]

theorem RoundTrip.csrrci (c : BitVec 12) (u d : BitVec 5) : RoundTrip.Statement (.csrrci c u d) := by
  intro w h; cases h
  rw [decode_pack]
  simp [decodeParts, decodeSystem, join_12]

end Sys2Proof.Laws
end

