-- ==== Sys2Proof/Laws/Vector.lean ====
section
/-! SUPPORT. Every VX and VM word enters its convoy as the member that its word describes. -/

namespace Sys2Proof.Laws

open Machine

/-- Bit 25 of a packed word: the mask bit where the high field is laid out as f5, c and vm. -/
theorem pack_vm (f5 : BitVec 5) (c m : BitVec 1) (b a : BitVec 5) (f3 : BitVec 3) (d : BitVec 5) (op : BitVec 7) :
    (!(pack (cat511 f5 c m) b a f3 d op).getLsbD 25) = (m == 0) := by
  have h : (pack (cat511 f5 c m) b a f3 d op).getLsbD 25 = (cat511 f5 c m).getLsbD 0 := by
    have := congrArg (fun x => x.getLsbD 0) (pack_f7 (cat511 f5 c m) b a f3 d op)
    simpa using this
  have h2 : (cat511 f5 c m).getLsbD 0 = m.getLsbD 0 := by
    have := congrArg (fun x => x.getLsbD 0) (extract_append_low (f5 ++ c) m)
    simpa [cat511] using this
  rw [h, h2]
  have : ∀ x : BitVec 1, (!x.getLsbD 0) = (x == 0) := by decide
  exact this m

/-- A VX word enters as its word says. -/
theorem vx_enters (f5 : BitVec 5) (c m : BitVec 1) (b a : BitVec 5) (f3 : BitVec 3) (d : BitVec 5) (op : VOp) (s : State) :
    vx f5 c m b a f3 d op s = enterWord (pack (cat511 f5 c m) b a f3 d 11#7) op (vectorDest (pack (cat511 f5 c m) b a f3 d 11#7) op)
      (!(pack (cat511 f5 c m) b a f3 d 11#7).getLsbD 25) s := by
  rw [pack_vm]
  unfold vectorDest
  rw [pack_d]
  cases op <;> rfl

/-- A VM word enters as its word says. -/
theorem vm_enters (f5 : BitVec 5) (c m : BitVec 1) (b a : BitVec 5) (f3 : BitVec 3) (d : BitVec 5) (op : VOp) (s : State)
    (h : vectorDest (pack (cat511 f5 c m) b a f3 d 43#7) op = d.toNat) :
    vm f5 c m b a f3 d op s = enterWord (pack (cat511 f5 c m) b a f3 d 43#7) op (vectorDest (pack (cat511 f5 c m) b a f3 d 43#7) op)
      (!(pack (cat511 f5 c m) b a f3 d 43#7).getLsbD 25) s := by
  rw [pack_vm, h]
  rfl

/-- What `vector_enters` says of one instruction. -/
def Enters (i : Instr) : Prop :=
  ∀ (w : Word32) (op : VOp) (s : State), encode i = some w → vectorOp i = some op →
    exec i s = enterWord w op (vectorDest w op) (!w.getLsbD 25) s

theorem enters_of_none {i : Instr} (h : vectorOp i = none) : Enters i := by
  intro w op s _ ho
  rw [h] at ho
  cases ho

theorem enters_of_some {i : Instr} {w : Word32} {op : VOp} (hw : encode i = some w) (ho : vectorOp i = some op)
    (h : ∀ s, exec i s = enterWord w op (vectorDest w op) (!w.getLsbD 25) s) : Enters i := by
  intro w' op' s hw' ho'
  rw [hw] at hw'
  rw [ho] at ho'
  cases hw'
  cases ho'
  exact h s

theorem enters_vaddVv (c m : BitVec 1) (b a d : BitVec 5) : Enters (.vaddVv c m b a d) :=
  enters_of_some rfl rfl (fun st => by rw [exec_vaddVv]; exact vx_enters _ _ _ _ _ _ _ _ st)
theorem enters_vaddVx (c m : BitVec 1) (b a d : BitVec 5) : Enters (.vaddVx c m b a d) :=
  enters_of_some rfl rfl (fun st => by rw [exec_vaddVx]; exact vx_enters _ _ _ _ _ _ _ _ st)
theorem enters_vaddVi (c m : BitVec 1) (b i d : BitVec 5) : Enters (.vaddVi c m b i d) :=
  enters_of_some rfl rfl (fun st => by rw [exec_vaddVi]; exact vx_enters _ _ _ _ _ _ _ _ st)
theorem enters_vaddVs (m : BitVec 1) (b a d : BitVec 5) : Enters (.vaddVs m b a d) :=
  enters_of_some rfl rfl (fun st => by rw [exec_vaddVs]; exact vx_enters _ _ _ _ _ _ _ _ st)
theorem enters_vaddRay (c m : BitVec 1) (b a d : BitVec 5) : Enters (.vaddRay c m b a d) :=
  enters_of_some rfl rfl (fun st => by rw [exec_vaddRay]; exact vx_enters _ _ _ _ _ _ _ _ st)
theorem enters_vsubVv (c m : BitVec 1) (b a d : BitVec 5) : Enters (.vsubVv c m b a d) :=
  enters_of_some rfl rfl (fun st => by rw [exec_vsubVv]; exact vx_enters _ _ _ _ _ _ _ _ st)
theorem enters_vsubVx (c m : BitVec 1) (b a d : BitVec 5) : Enters (.vsubVx c m b a d) :=
  enters_of_some rfl rfl (fun st => by rw [exec_vsubVx]; exact vx_enters _ _ _ _ _ _ _ _ st)
theorem enters_vsubVi (c m : BitVec 1) (b i d : BitVec 5) : Enters (.vsubVi c m b i d) :=
  enters_of_some rfl rfl (fun st => by rw [exec_vsubVi]; exact vx_enters _ _ _ _ _ _ _ _ st)
theorem enters_vsubVs (m : BitVec 1) (b a d : BitVec 5) : Enters (.vsubVs m b a d) :=
  enters_of_some rfl rfl (fun st => by rw [exec_vsubVs]; exact vx_enters _ _ _ _ _ _ _ _ st)
theorem enters_vsubRay (c m : BitVec 1) (b a d : BitVec 5) : Enters (.vsubRay c m b a d) :=
  enters_of_some rfl rfl (fun st => by rw [exec_vsubRay]; exact vx_enters _ _ _ _ _ _ _ _ st)
theorem enters_vrsubVx (c m : BitVec 1) (b a d : BitVec 5) : Enters (.vrsubVx c m b a d) :=
  enters_of_some rfl rfl (fun st => by rw [exec_vrsubVx]; exact vx_enters _ _ _ _ _ _ _ _ st)
theorem enters_vrsubVi (c m : BitVec 1) (b i d : BitVec 5) : Enters (.vrsubVi c m b i d) :=
  enters_of_some rfl rfl (fun st => by rw [exec_vrsubVi]; exact vx_enters _ _ _ _ _ _ _ _ st)
theorem enters_vrsubVs (m : BitVec 1) (b a d : BitVec 5) : Enters (.vrsubVs m b a d) :=
  enters_of_some rfl rfl (fun st => by rw [exec_vrsubVs]; exact vx_enters _ _ _ _ _ _ _ _ st)
theorem enters_vrsubRay (c m : BitVec 1) (b a d : BitVec 5) : Enters (.vrsubRay c m b a d) :=
  enters_of_some rfl rfl (fun st => by rw [exec_vrsubRay]; exact vx_enters _ _ _ _ _ _ _ _ st)
theorem enters_vmulVv (c m : BitVec 1) (b a d : BitVec 5) : Enters (.vmulVv c m b a d) :=
  enters_of_some rfl rfl (fun st => by rw [exec_vmulVv]; exact vx_enters _ _ _ _ _ _ _ _ st)
theorem enters_vmulVx (c m : BitVec 1) (b a d : BitVec 5) : Enters (.vmulVx c m b a d) :=
  enters_of_some rfl rfl (fun st => by rw [exec_vmulVx]; exact vx_enters _ _ _ _ _ _ _ _ st)
theorem enters_vmulVs (m : BitVec 1) (b a d : BitVec 5) : Enters (.vmulVs m b a d) :=
  enters_of_some rfl rfl (fun st => by rw [exec_vmulVs]; exact vx_enters _ _ _ _ _ _ _ _ st)
theorem enters_vmulRay (c m : BitVec 1) (b a d : BitVec 5) : Enters (.vmulRay c m b a d) :=
  enters_of_some rfl rfl (fun st => by rw [exec_vmulRay]; exact vx_enters _ _ _ _ _ _ _ _ st)
theorem enters_vmulhVv (c m : BitVec 1) (b a d : BitVec 5) : Enters (.vmulhVv c m b a d) :=
  enters_of_some rfl rfl (fun st => by rw [exec_vmulhVv]; exact vx_enters _ _ _ _ _ _ _ _ st)
theorem enters_vmulhVx (c m : BitVec 1) (b a d : BitVec 5) : Enters (.vmulhVx c m b a d) :=
  enters_of_some rfl rfl (fun st => by rw [exec_vmulhVx]; exact vx_enters _ _ _ _ _ _ _ _ st)
theorem enters_vmulhVs (m : BitVec 1) (b a d : BitVec 5) : Enters (.vmulhVs m b a d) :=
  enters_of_some rfl rfl (fun st => by rw [exec_vmulhVs]; exact vx_enters _ _ _ _ _ _ _ _ st)
theorem enters_vmulhRay (c m : BitVec 1) (b a d : BitVec 5) : Enters (.vmulhRay c m b a d) :=
  enters_of_some rfl rfl (fun st => by rw [exec_vmulhRay]; exact vx_enters _ _ _ _ _ _ _ _ st)
theorem enters_vdivVv (c m : BitVec 1) (b a d : BitVec 5) : Enters (.vdivVv c m b a d) :=
  enters_of_some rfl rfl (fun st => by rw [exec_vdivVv]; exact vx_enters _ _ _ _ _ _ _ _ st)
theorem enters_vdivVx (c m : BitVec 1) (b a d : BitVec 5) : Enters (.vdivVx c m b a d) :=
  enters_of_some rfl rfl (fun st => by rw [exec_vdivVx]; exact vx_enters _ _ _ _ _ _ _ _ st)
theorem enters_vdivVs (m : BitVec 1) (b a d : BitVec 5) : Enters (.vdivVs m b a d) :=
  enters_of_some rfl rfl (fun st => by rw [exec_vdivVs]; exact vx_enters _ _ _ _ _ _ _ _ st)
theorem enters_vdivRay (c m : BitVec 1) (b a d : BitVec 5) : Enters (.vdivRay c m b a d) :=
  enters_of_some rfl rfl (fun st => by rw [exec_vdivRay]; exact vx_enters _ _ _ _ _ _ _ _ st)
theorem enters_vremVv (c m : BitVec 1) (b a d : BitVec 5) : Enters (.vremVv c m b a d) :=
  enters_of_some rfl rfl (fun st => by rw [exec_vremVv]; exact vx_enters _ _ _ _ _ _ _ _ st)
theorem enters_vremVx (c m : BitVec 1) (b a d : BitVec 5) : Enters (.vremVx c m b a d) :=
  enters_of_some rfl rfl (fun st => by rw [exec_vremVx]; exact vx_enters _ _ _ _ _ _ _ _ st)
theorem enters_vremVs (m : BitVec 1) (b a d : BitVec 5) : Enters (.vremVs m b a d) :=
  enters_of_some rfl rfl (fun st => by rw [exec_vremVs]; exact vx_enters _ _ _ _ _ _ _ _ st)
theorem enters_vremRay (c m : BitVec 1) (b a d : BitVec 5) : Enters (.vremRay c m b a d) :=
  enters_of_some rfl rfl (fun st => by rw [exec_vremRay]; exact vx_enters _ _ _ _ _ _ _ _ st)
theorem enters_vminVv (c m : BitVec 1) (b a d : BitVec 5) : Enters (.vminVv c m b a d) :=
  enters_of_some rfl rfl (fun st => by rw [exec_vminVv]; exact vx_enters _ _ _ _ _ _ _ _ st)
theorem enters_vminVx (c m : BitVec 1) (b a d : BitVec 5) : Enters (.vminVx c m b a d) :=
  enters_of_some rfl rfl (fun st => by rw [exec_vminVx]; exact vx_enters _ _ _ _ _ _ _ _ st)
theorem enters_vminVi (c m : BitVec 1) (b i d : BitVec 5) : Enters (.vminVi c m b i d) :=
  enters_of_some rfl rfl (fun st => by rw [exec_vminVi]; exact vx_enters _ _ _ _ _ _ _ _ st)
theorem enters_vminVs (m : BitVec 1) (b a d : BitVec 5) : Enters (.vminVs m b a d) :=
  enters_of_some rfl rfl (fun st => by rw [exec_vminVs]; exact vx_enters _ _ _ _ _ _ _ _ st)
theorem enters_vminRay (c m : BitVec 1) (b a d : BitVec 5) : Enters (.vminRay c m b a d) :=
  enters_of_some rfl rfl (fun st => by rw [exec_vminRay]; exact vx_enters _ _ _ _ _ _ _ _ st)
theorem enters_vmaxVv (c m : BitVec 1) (b a d : BitVec 5) : Enters (.vmaxVv c m b a d) :=
  enters_of_some rfl rfl (fun st => by rw [exec_vmaxVv]; exact vx_enters _ _ _ _ _ _ _ _ st)
theorem enters_vmaxVx (c m : BitVec 1) (b a d : BitVec 5) : Enters (.vmaxVx c m b a d) :=
  enters_of_some rfl rfl (fun st => by rw [exec_vmaxVx]; exact vx_enters _ _ _ _ _ _ _ _ st)
theorem enters_vmaxVi (c m : BitVec 1) (b i d : BitVec 5) : Enters (.vmaxVi c m b i d) :=
  enters_of_some rfl rfl (fun st => by rw [exec_vmaxVi]; exact vx_enters _ _ _ _ _ _ _ _ st)
theorem enters_vmaxVs (m : BitVec 1) (b a d : BitVec 5) : Enters (.vmaxVs m b a d) :=
  enters_of_some rfl rfl (fun st => by rw [exec_vmaxVs]; exact vx_enters _ _ _ _ _ _ _ _ st)
theorem enters_vmaxRay (c m : BitVec 1) (b a d : BitVec 5) : Enters (.vmaxRay c m b a d) :=
  enters_of_some rfl rfl (fun st => by rw [exec_vmaxRay]; exact vx_enters _ _ _ _ _ _ _ _ st)
theorem enters_vandVv (c m : BitVec 1) (b a d : BitVec 5) : Enters (.vandVv c m b a d) :=
  enters_of_some rfl rfl (fun st => by rw [exec_vandVv]; exact vx_enters _ _ _ _ _ _ _ _ st)
theorem enters_vandVx (c m : BitVec 1) (b a d : BitVec 5) : Enters (.vandVx c m b a d) :=
  enters_of_some rfl rfl (fun st => by rw [exec_vandVx]; exact vx_enters _ _ _ _ _ _ _ _ st)
theorem enters_vandVi (c m : BitVec 1) (b i d : BitVec 5) : Enters (.vandVi c m b i d) :=
  enters_of_some rfl rfl (fun st => by rw [exec_vandVi]; exact vx_enters _ _ _ _ _ _ _ _ st)
theorem enters_vandVs (m : BitVec 1) (b a d : BitVec 5) : Enters (.vandVs m b a d) :=
  enters_of_some rfl rfl (fun st => by rw [exec_vandVs]; exact vx_enters _ _ _ _ _ _ _ _ st)
theorem enters_vandRay (c m : BitVec 1) (b a d : BitVec 5) : Enters (.vandRay c m b a d) :=
  enters_of_some rfl rfl (fun st => by rw [exec_vandRay]; exact vx_enters _ _ _ _ _ _ _ _ st)
theorem enters_vorVv (c m : BitVec 1) (b a d : BitVec 5) : Enters (.vorVv c m b a d) :=
  enters_of_some rfl rfl (fun st => by rw [exec_vorVv]; exact vx_enters _ _ _ _ _ _ _ _ st)
theorem enters_vorVx (c m : BitVec 1) (b a d : BitVec 5) : Enters (.vorVx c m b a d) :=
  enters_of_some rfl rfl (fun st => by rw [exec_vorVx]; exact vx_enters _ _ _ _ _ _ _ _ st)
theorem enters_vorVi (c m : BitVec 1) (b i d : BitVec 5) : Enters (.vorVi c m b i d) :=
  enters_of_some rfl rfl (fun st => by rw [exec_vorVi]; exact vx_enters _ _ _ _ _ _ _ _ st)
theorem enters_vorVs (m : BitVec 1) (b a d : BitVec 5) : Enters (.vorVs m b a d) :=
  enters_of_some rfl rfl (fun st => by rw [exec_vorVs]; exact vx_enters _ _ _ _ _ _ _ _ st)
theorem enters_vorRay (c m : BitVec 1) (b a d : BitVec 5) : Enters (.vorRay c m b a d) :=
  enters_of_some rfl rfl (fun st => by rw [exec_vorRay]; exact vx_enters _ _ _ _ _ _ _ _ st)
theorem enters_vxorVv (c m : BitVec 1) (b a d : BitVec 5) : Enters (.vxorVv c m b a d) :=
  enters_of_some rfl rfl (fun st => by rw [exec_vxorVv]; exact vx_enters _ _ _ _ _ _ _ _ st)
theorem enters_vxorVx (c m : BitVec 1) (b a d : BitVec 5) : Enters (.vxorVx c m b a d) :=
  enters_of_some rfl rfl (fun st => by rw [exec_vxorVx]; exact vx_enters _ _ _ _ _ _ _ _ st)
theorem enters_vxorVi (c m : BitVec 1) (b i d : BitVec 5) : Enters (.vxorVi c m b i d) :=
  enters_of_some rfl rfl (fun st => by rw [exec_vxorVi]; exact vx_enters _ _ _ _ _ _ _ _ st)
theorem enters_vxorVs (m : BitVec 1) (b a d : BitVec 5) : Enters (.vxorVs m b a d) :=
  enters_of_some rfl rfl (fun st => by rw [exec_vxorVs]; exact vx_enters _ _ _ _ _ _ _ _ st)
theorem enters_vxorRay (c m : BitVec 1) (b a d : BitVec 5) : Enters (.vxorRay c m b a d) :=
  enters_of_some rfl rfl (fun st => by rw [exec_vxorRay]; exact vx_enters _ _ _ _ _ _ _ _ st)
theorem enters_vsllVv (c m : BitVec 1) (b a d : BitVec 5) : Enters (.vsllVv c m b a d) :=
  enters_of_some rfl rfl (fun st => by rw [exec_vsllVv]; exact vx_enters _ _ _ _ _ _ _ _ st)
theorem enters_vsllVx (c m : BitVec 1) (b a d : BitVec 5) : Enters (.vsllVx c m b a d) :=
  enters_of_some rfl rfl (fun st => by rw [exec_vsllVx]; exact vx_enters _ _ _ _ _ _ _ _ st)
theorem enters_vsllVi (c m : BitVec 1) (b i d : BitVec 5) : Enters (.vsllVi c m b i d) :=
  enters_of_some rfl rfl (fun st => by rw [exec_vsllVi]; exact vx_enters _ _ _ _ _ _ _ _ st)
theorem enters_vsllVs (m : BitVec 1) (b a d : BitVec 5) : Enters (.vsllVs m b a d) :=
  enters_of_some rfl rfl (fun st => by rw [exec_vsllVs]; exact vx_enters _ _ _ _ _ _ _ _ st)
theorem enters_vsllRay (c m : BitVec 1) (b a d : BitVec 5) : Enters (.vsllRay c m b a d) :=
  enters_of_some rfl rfl (fun st => by rw [exec_vsllRay]; exact vx_enters _ _ _ _ _ _ _ _ st)
theorem enters_vsrlVv (c m : BitVec 1) (b a d : BitVec 5) : Enters (.vsrlVv c m b a d) :=
  enters_of_some rfl rfl (fun st => by rw [exec_vsrlVv]; exact vx_enters _ _ _ _ _ _ _ _ st)
theorem enters_vsrlVx (c m : BitVec 1) (b a d : BitVec 5) : Enters (.vsrlVx c m b a d) :=
  enters_of_some rfl rfl (fun st => by rw [exec_vsrlVx]; exact vx_enters _ _ _ _ _ _ _ _ st)
theorem enters_vsrlVi (c m : BitVec 1) (b i d : BitVec 5) : Enters (.vsrlVi c m b i d) :=
  enters_of_some rfl rfl (fun st => by rw [exec_vsrlVi]; exact vx_enters _ _ _ _ _ _ _ _ st)
theorem enters_vsrlVs (m : BitVec 1) (b a d : BitVec 5) : Enters (.vsrlVs m b a d) :=
  enters_of_some rfl rfl (fun st => by rw [exec_vsrlVs]; exact vx_enters _ _ _ _ _ _ _ _ st)
theorem enters_vsrlRay (c m : BitVec 1) (b a d : BitVec 5) : Enters (.vsrlRay c m b a d) :=
  enters_of_some rfl rfl (fun st => by rw [exec_vsrlRay]; exact vx_enters _ _ _ _ _ _ _ _ st)
theorem enters_vsraVv (c m : BitVec 1) (b a d : BitVec 5) : Enters (.vsraVv c m b a d) :=
  enters_of_some rfl rfl (fun st => by rw [exec_vsraVv]; exact vx_enters _ _ _ _ _ _ _ _ st)
theorem enters_vsraVx (c m : BitVec 1) (b a d : BitVec 5) : Enters (.vsraVx c m b a d) :=
  enters_of_some rfl rfl (fun st => by rw [exec_vsraVx]; exact vx_enters _ _ _ _ _ _ _ _ st)
theorem enters_vsraVi (c m : BitVec 1) (b i d : BitVec 5) : Enters (.vsraVi c m b i d) :=
  enters_of_some rfl rfl (fun st => by rw [exec_vsraVi]; exact vx_enters _ _ _ _ _ _ _ _ st)
theorem enters_vsraVs (m : BitVec 1) (b a d : BitVec 5) : Enters (.vsraVs m b a d) :=
  enters_of_some rfl rfl (fun st => by rw [exec_vsraVs]; exact vx_enters _ _ _ _ _ _ _ _ st)
theorem enters_vsraRay (c m : BitVec 1) (b a d : BitVec 5) : Enters (.vsraRay c m b a d) :=
  enters_of_some rfl rfl (fun st => by rw [exec_vsraRay]; exact vx_enters _ _ _ _ _ _ _ _ st)
theorem enters_vfmaVv (c m : BitVec 1) (b a d : BitVec 5) : Enters (.vfmaVv c m b a d) :=
  enters_of_some rfl rfl (fun st => by rw [exec_vfmaVv]; exact vx_enters _ _ _ _ _ _ _ _ st)
theorem enters_vfmaVx (c m : BitVec 1) (b a d : BitVec 5) : Enters (.vfmaVx c m b a d) :=
  enters_of_some rfl rfl (fun st => by rw [exec_vfmaVx]; exact vx_enters _ _ _ _ _ _ _ _ st)
theorem enters_vfmaVs (m : BitVec 1) (b a d : BitVec 5) : Enters (.vfmaVs m b a d) :=
  enters_of_some rfl rfl (fun st => by rw [exec_vfmaVs]; exact vx_enters _ _ _ _ _ _ _ _ st)
theorem enters_vfmaRay (c m : BitVec 1) (b a d : BitVec 5) : Enters (.vfmaRay c m b a d) :=
  enters_of_some rfl rfl (fun st => by rw [exec_vfmaRay]; exact vx_enters _ _ _ _ _ _ _ _ st)
theorem enters_vfmsVv (c m : BitVec 1) (b a d : BitVec 5) : Enters (.vfmsVv c m b a d) :=
  enters_of_some rfl rfl (fun st => by rw [exec_vfmsVv]; exact vx_enters _ _ _ _ _ _ _ _ st)
theorem enters_vfmsVx (c m : BitVec 1) (b a d : BitVec 5) : Enters (.vfmsVx c m b a d) :=
  enters_of_some rfl rfl (fun st => by rw [exec_vfmsVx]; exact vx_enters _ _ _ _ _ _ _ _ st)
theorem enters_vfmsVs (m : BitVec 1) (b a d : BitVec 5) : Enters (.vfmsVs m b a d) :=
  enters_of_some rfl rfl (fun st => by rw [exec_vfmsVs]; exact vx_enters _ _ _ _ _ _ _ _ st)
theorem enters_vfmsRay (c m : BitVec 1) (b a d : BitVec 5) : Enters (.vfmsRay c m b a d) :=
  enters_of_some rfl rfl (fun st => by rw [exec_vfmsRay]; exact vx_enters _ _ _ _ _ _ _ _ st)
theorem enters_vfnmaVv (c m : BitVec 1) (b a d : BitVec 5) : Enters (.vfnmaVv c m b a d) :=
  enters_of_some rfl rfl (fun st => by rw [exec_vfnmaVv]; exact vx_enters _ _ _ _ _ _ _ _ st)
theorem enters_vfnmaVx (c m : BitVec 1) (b a d : BitVec 5) : Enters (.vfnmaVx c m b a d) :=
  enters_of_some rfl rfl (fun st => by rw [exec_vfnmaVx]; exact vx_enters _ _ _ _ _ _ _ _ st)
theorem enters_vfnmaVs (m : BitVec 1) (b a d : BitVec 5) : Enters (.vfnmaVs m b a d) :=
  enters_of_some rfl rfl (fun st => by rw [exec_vfnmaVs]; exact vx_enters _ _ _ _ _ _ _ _ st)
theorem enters_vfnmaRay (c m : BitVec 1) (b a d : BitVec 5) : Enters (.vfnmaRay c m b a d) :=
  enters_of_some rfl rfl (fun st => by rw [exec_vfnmaRay]; exact vx_enters _ _ _ _ _ _ _ _ st)
theorem enters_vsaddVv (c m : BitVec 1) (b a d : BitVec 5) : Enters (.vsaddVv c m b a d) :=
  enters_of_some rfl rfl (fun st => by rw [exec_vsaddVv]; exact vx_enters _ _ _ _ _ _ _ _ st)
theorem enters_vsaddVx (c m : BitVec 1) (b a d : BitVec 5) : Enters (.vsaddVx c m b a d) :=
  enters_of_some rfl rfl (fun st => by rw [exec_vsaddVx]; exact vx_enters _ _ _ _ _ _ _ _ st)
theorem enters_vsaddVi (c m : BitVec 1) (b i d : BitVec 5) : Enters (.vsaddVi c m b i d) :=
  enters_of_some rfl rfl (fun st => by rw [exec_vsaddVi]; exact vx_enters _ _ _ _ _ _ _ _ st)
theorem enters_vsaddVs (m : BitVec 1) (b a d : BitVec 5) : Enters (.vsaddVs m b a d) :=
  enters_of_some rfl rfl (fun st => by rw [exec_vsaddVs]; exact vx_enters _ _ _ _ _ _ _ _ st)
theorem enters_vsaddRay (c m : BitVec 1) (b a d : BitVec 5) : Enters (.vsaddRay c m b a d) :=
  enters_of_some rfl rfl (fun st => by rw [exec_vsaddRay]; exact vx_enters _ _ _ _ _ _ _ _ st)
theorem enters_vssubVv (c m : BitVec 1) (b a d : BitVec 5) : Enters (.vssubVv c m b a d) :=
  enters_of_some rfl rfl (fun st => by rw [exec_vssubVv]; exact vx_enters _ _ _ _ _ _ _ _ st)
theorem enters_vssubVx (c m : BitVec 1) (b a d : BitVec 5) : Enters (.vssubVx c m b a d) :=
  enters_of_some rfl rfl (fun st => by rw [exec_vssubVx]; exact vx_enters _ _ _ _ _ _ _ _ st)
theorem enters_vssubVi (c m : BitVec 1) (b i d : BitVec 5) : Enters (.vssubVi c m b i d) :=
  enters_of_some rfl rfl (fun st => by rw [exec_vssubVi]; exact vx_enters _ _ _ _ _ _ _ _ st)
theorem enters_vssubVs (m : BitVec 1) (b a d : BitVec 5) : Enters (.vssubVs m b a d) :=
  enters_of_some rfl rfl (fun st => by rw [exec_vssubVs]; exact vx_enters _ _ _ _ _ _ _ _ st)
theorem enters_vssubRay (c m : BitVec 1) (b a d : BitVec 5) : Enters (.vssubRay c m b a d) :=
  enters_of_some rfl rfl (fun st => by rw [exec_vssubRay]; exact vx_enters _ _ _ _ _ _ _ _ st)
theorem enters_vceq (c m : BitVec 1) (b a : BitVec 5) (p : BitVec 3) : Enters (.vceq c m b a p) :=
  enters_of_some rfl rfl (fun st => by rw [exec_vceq]; exact vx_enters _ _ _ _ _ _ _ _ st)
theorem enters_vcne (c m : BitVec 1) (b a : BitVec 5) (p : BitVec 3) : Enters (.vcne c m b a p) :=
  enters_of_some rfl rfl (fun st => by rw [exec_vcne]; exact vx_enters _ _ _ _ _ _ _ _ st)
theorem enters_vcequ (c m : BitVec 1) (b a : BitVec 5) (p : BitVec 3) : Enters (.vcequ c m b a p) :=
  enters_of_some rfl rfl (fun st => by rw [exec_vcequ]; exact vx_enters _ _ _ _ _ _ _ _ st)
theorem enters_vcneu (c m : BitVec 1) (b a : BitVec 5) (p : BitVec 3) : Enters (.vcneu c m b a p) :=
  enters_of_some rfl rfl (fun st => by rw [exec_vcneu]; exact vx_enters _ _ _ _ _ _ _ _ st)
theorem enters_vclt (c m : BitVec 1) (b a : BitVec 5) (p : BitVec 3) : Enters (.vclt c m b a p) :=
  enters_of_some rfl rfl (fun st => by rw [exec_vclt]; exact vx_enters _ _ _ _ _ _ _ _ st)
theorem enters_vcnlt (c m : BitVec 1) (b a : BitVec 5) (p : BitVec 3) : Enters (.vcnlt c m b a p) :=
  enters_of_some rfl rfl (fun st => by rw [exec_vcnlt]; exact vx_enters _ _ _ _ _ _ _ _ st)
theorem enters_vcltu (c m : BitVec 1) (b a : BitVec 5) (p : BitVec 3) : Enters (.vcltu c m b a p) :=
  enters_of_some rfl rfl (fun st => by rw [exec_vcltu]; exact vx_enters _ _ _ _ _ _ _ _ st)
theorem enters_vcnltu (c m : BitVec 1) (b a : BitVec 5) (p : BitVec 3) : Enters (.vcnltu c m b a p) :=
  enters_of_some rfl rfl (fun st => by rw [exec_vcnltu]; exact vx_enters _ _ _ _ _ _ _ _ st)
theorem enters_vcle (c m : BitVec 1) (b a : BitVec 5) (p : BitVec 3) : Enters (.vcle c m b a p) :=
  enters_of_some rfl rfl (fun st => by rw [exec_vcle]; exact vx_enters _ _ _ _ _ _ _ _ st)
theorem enters_vcnle (c m : BitVec 1) (b a : BitVec 5) (p : BitVec 3) : Enters (.vcnle c m b a p) :=
  enters_of_some rfl rfl (fun st => by rw [exec_vcnle]; exact vx_enters _ _ _ _ _ _ _ _ st)
theorem enters_vcleu (c m : BitVec 1) (b a : BitVec 5) (p : BitVec 3) : Enters (.vcleu c m b a p) :=
  enters_of_some rfl rfl (fun st => by rw [exec_vcleu]; exact vx_enters _ _ _ _ _ _ _ _ st)
theorem enters_vcnleu (c m : BitVec 1) (b a : BitVec 5) (p : BitVec 3) : Enters (.vcnleu c m b a p) :=
  enters_of_some rfl rfl (fun st => by rw [exec_vcnleu]; exact vx_enters _ _ _ _ _ _ _ _ st)
theorem enters_vcun (c m : BitVec 1) (b a : BitVec 5) (p : BitVec 3) : Enters (.vcun c m b a p) :=
  enters_of_some rfl rfl (fun st => by rw [exec_vcun]; exact vx_enters _ _ _ _ _ _ _ _ st)
theorem enters_vcord (c m : BitVec 1) (b a : BitVec 5) (p : BitVec 3) : Enters (.vcord c m b a p) :=
  enters_of_some rfl rfl (fun st => by rw [exec_vcord]; exact vx_enters _ _ _ _ _ _ _ _ st)
theorem enters_vcsn (c m : BitVec 1) (a : BitVec 5) (p : BitVec 3) : Enters (.vcsn c m a p) :=
  enters_of_some rfl rfl (fun st => by rw [exec_vcsn]; exact vx_enters _ _ _ _ _ _ _ _ st)
theorem enters_vcnsn (c m : BitVec 1) (a : BitVec 5) (p : BitVec 3) : Enters (.vcnsn c m a p) :=
  enters_of_some rfl rfl (fun st => by rw [exec_vcnsn]; exact vx_enters _ _ _ _ _ _ _ _ st)
theorem enters_vsel (c : BitVec 1) (b a d : BitVec 5) : Enters (.vsel c b a d) :=
  enters_of_some rfl rfl (fun st => by rw [exec_vsel]; exact vx_enters _ _ _ _ _ _ _ _ st)
theorem enters_vmvVx (c m : BitVec 1) (a d : BitVec 5) : Enters (.vmvVx c m a d) :=
  enters_of_some rfl rfl (fun st => by rw [exec_vmvVx]; exact vx_enters _ _ _ _ _ _ _ _ st)
theorem enters_vmvVi (c m : BitVec 1) (i d : BitVec 5) : Enters (.vmvVi c m i d) :=
  enters_of_some rfl rfl (fun st => by rw [exec_vmvVi]; exact vx_enters _ _ _ _ _ _ _ _ st)
theorem enters_vmvX (a d : BitVec 5) : Enters (.vmvX a d) :=
  enters_of_some rfl rfl (fun st => by rw [exec_vmvX]; exact vx_enters _ _ _ _ _ _ _ _ st)
theorem enters_vmvVv (c m : BitVec 1) (a d : BitVec 5) : Enters (.vmvVv c m a d) :=
  enters_of_some rfl rfl (fun st => by rw [exec_vmvVv]; exact vx_enters _ _ _ _ _ _ _ _ st)
theorem enters_vcvt (c m : BitVec 1) (t : BitVec 4) (a d : BitVec 5) : Enters (.vcvt c m t a d) :=
  enters_of_some rfl rfl (fun st => by rw [exec_vcvt]; exact vx_enters _ _ _ _ _ _ _ _ st)
theorem enters_vcvts (c m : BitVec 1) (t : BitVec 4) (a d : BitVec 5) : Enters (.vcvts c m t a d) :=
  enters_of_some rfl rfl (fun st => by rw [exec_vcvts]; exact vx_enters _ _ _ _ _ _ _ _ st)
theorem enters_vneg (c m : BitVec 1) (a d : BitVec 5) : Enters (.vneg c m a d) :=
  enters_of_some rfl rfl (fun st => by rw [exec_vneg]; exact vx_enters _ _ _ _ _ _ _ _ st)
theorem enters_vabs (c m : BitVec 1) (a d : BitVec 5) : Enters (.vabs c m a d) :=
  enters_of_some rfl rfl (fun st => by rw [exec_vabs]; exact vx_enters _ _ _ _ _ _ _ _ st)
theorem enters_vsqrt (c m : BitVec 1) (a d : BitVec 5) : Enters (.vsqrt c m a d) :=
  enters_of_some rfl rfl (fun st => by rw [exec_vsqrt]; exact vx_enters _ _ _ _ _ _ _ _ st)
theorem enters_vrcpe (c m : BitVec 1) (a d : BitVec 5) : Enters (.vrcpe c m a d) :=
  enters_of_some rfl rfl (fun st => by rw [exec_vrcpe]; exact vx_enters _ _ _ _ _ _ _ _ st)
theorem enters_vrsqe (c m : BitVec 1) (a d : BitVec 5) : Enters (.vrsqe c m a d) :=
  enters_of_some rfl rfl (fun st => by rw [exec_vrsqe]; exact vx_enters _ _ _ _ _ _ _ _ st)
theorem enters_vexp2 (c m : BitVec 1) (a d : BitVec 5) : Enters (.vexp2 c m a d) :=
  enters_of_some rfl rfl (fun st => by rw [exec_vexp2]; exact vx_enters _ _ _ _ _ _ _ _ st)
theorem enters_vlog2 (c m : BitVec 1) (a d : BitVec 5) : Enters (.vlog2 c m a d) :=
  enters_of_some rfl rfl (fun st => by rw [exec_vlog2]; exact vx_enters _ _ _ _ _ _ _ _ st)
theorem enters_vclz (c m : BitVec 1) (a d : BitVec 5) : Enters (.vclz c m a d) :=
  enters_of_some rfl rfl (fun st => by rw [exec_vclz]; exact vx_enters _ _ _ _ _ _ _ _ st)
theorem enters_vpopc (c m : BitVec 1) (a d : BitVec 5) : Enters (.vpopc c m a d) :=
  enters_of_some rfl rfl (fun st => by rw [exec_vpopc]; exact vx_enters _ _ _ _ _ _ _ _ st)
theorem enters_vbrev (c m : BitVec 1) (a d : BitVec 5) : Enters (.vbrev c m a d) :=
  enters_of_some rfl rfl (fun st => by rw [exec_vbrev]; exact vx_enters _ _ _ _ _ _ _ _ st)
theorem enters_vclass (c m : BitVec 1) (a d : BitVec 5) : Enters (.vclass c m a d) :=
  enters_of_some rfl rfl (fun st => by rw [exec_vclass]; exact vx_enters _ _ _ _ _ _ _ _ st)
theorem enters_vredsum (m : BitVec 1) (b a d : BitVec 5) : Enters (.vredsum m b a d) :=
  enters_of_some rfl rfl (fun st => by rw [exec_vredsum]; exact vx_enters _ _ _ _ _ _ _ _ st)
theorem enters_vredosum (m : BitVec 1) (b a d : BitVec 5) : Enters (.vredosum m b a d) :=
  enters_of_some rfl rfl (fun st => by rw [exec_vredosum]; exact vx_enters _ _ _ _ _ _ _ _ st)
theorem enters_vredmin (m : BitVec 1) (b a d : BitVec 5) : Enters (.vredmin m b a d) :=
  enters_of_some rfl rfl (fun st => by rw [exec_vredmin]; exact vx_enters _ _ _ _ _ _ _ _ st)
theorem enters_vredmax (m : BitVec 1) (b a d : BitVec 5) : Enters (.vredmax m b a d) :=
  enters_of_some rfl rfl (fun st => by rw [exec_vredmax]; exact vx_enters _ _ _ _ _ _ _ _ st)
theorem enters_vredand (m : BitVec 1) (b a d : BitVec 5) : Enters (.vredand m b a d) :=
  enters_of_some rfl rfl (fun st => by rw [exec_vredand]; exact vx_enters _ _ _ _ _ _ _ _ st)
theorem enters_vredor (m : BitVec 1) (b a d : BitVec 5) : Enters (.vredor m b a d) :=
  enters_of_some rfl rfl (fun st => by rw [exec_vredor]; exact vx_enters _ _ _ _ _ _ _ _ st)
theorem enters_vredxor (m : BitVec 1) (b a d : BitVec 5) : Enters (.vredxor m b a d) :=
  enters_of_some rfl rfl (fun st => by rw [exec_vredxor]; exact vx_enters _ _ _ _ _ _ _ _ st)
theorem enters_vargmax (m : BitVec 1) (b d : BitVec 5) : Enters (.vargmax m b d) :=
  enters_of_some rfl rfl (fun st => by rw [exec_vargmax]; exact vx_enters _ _ _ _ _ _ _ _ st)
theorem enters_vcompress (b d : BitVec 5) : Enters (.vcompress b d) :=
  enters_of_some rfl rfl (fun st => by rw [exec_vcompress]; exact vx_enters _ _ _ _ _ _ _ _ st)
theorem enters_vexpand (b d : BitVec 5) : Enters (.vexpand b d) :=
  enters_of_some rfl rfl (fun st => by rw [exec_vexpand]; exact vx_enters _ _ _ _ _ _ _ _ st)
theorem enters_vpcnt (m : BitVec 1) (a : BitVec 3) (d : BitVec 5) : Enters (.vpcnt m a d) :=
  enters_of_some rfl rfl (fun st => by rw [exec_vpcnt]; exact vx_enters _ _ _ _ _ _ _ _ st)
theorem enters_vconfl (m : BitVec 1) (a d : BitVec 5) : Enters (.vconfl m a d) :=
  enters_of_some rfl rfl (fun st => by rw [exec_vconfl]; exact vx_enters _ _ _ _ _ _ _ _ st)
theorem enters_vslideup (m : BitVec 1) (b a d : BitVec 5) : Enters (.vslideup m b a d) :=
  enters_of_some rfl rfl (fun st => by rw [exec_vslideup]; exact vx_enters _ _ _ _ _ _ _ _ st)
theorem enters_vslidedn (m : BitVec 1) (b a d : BitVec 5) : Enters (.vslidedn m b a d) :=
  enters_of_some rfl rfl (fun st => by rw [exec_vslidedn]; exact vx_enters _ _ _ _ _ _ _ _ st)
theorem enters_vperm (m : BitVec 1) (b a d : BitVec 5) : Enters (.vperm m b a d) :=
  enters_of_some rfl rfl (fun st => by rw [exec_vperm]; exact vx_enters _ _ _ _ _ _ _ _ st)
theorem enters_viota (m : BitVec 1) (a d : BitVec 5) : Enters (.viota m a d) :=
  enters_of_some rfl rfl (fun st => by rw [exec_viota]; exact vx_enters _ _ _ _ _ _ _ _ st)
theorem enters_vsscanAdd (b d : BitVec 5) : Enters (.vsscanAdd b d) :=
  enters_of_some rfl rfl (fun st => by rw [exec_vsscanAdd]; exact vx_enters _ _ _ _ _ _ _ _ st)
theorem enters_vsscanMin (b d : BitVec 5) : Enters (.vsscanMin b d) :=
  enters_of_some rfl rfl (fun st => by rw [exec_vsscanMin]; exact vx_enters _ _ _ _ _ _ _ _ st)
theorem enters_vsscanMax (b d : BitVec 5) : Enters (.vsscanMax b d) :=
  enters_of_some rfl rfl (fun st => by rw [exec_vsscanMax]; exact vx_enters _ _ _ _ _ _ _ _ st)
theorem enters_vsscanOr (b d : BitVec 5) : Enters (.vsscanOr b d) :=
  enters_of_some rfl rfl (fun st => by rw [exec_vsscanOr]; exact vx_enters _ _ _ _ _ _ _ _ st)
theorem enters_vtopk (m : BitVec 1) (b a d : BitVec 5) : Enters (.vtopk m b a d) :=
  enters_of_some rfl rfl (fun st => by rw [exec_vtopk]; exact vx_enters _ _ _ _ _ _ _ _ st)
theorem enters_vinter (m : BitVec 1) (b a d : BitVec 5) : Enters (.vinter m b a d) :=
  enters_of_some rfl rfl (fun st => by rw [exec_vinter]; exact vx_enters _ _ _ _ _ _ _ _ st)
theorem enters_vsortk (m : BitVec 1) (a d : BitVec 5) : Enters (.vsortk m a d) :=
  enters_of_some rfl rfl (fun st => by rw [exec_vsortk]; exact vx_enters _ _ _ _ _ _ _ _ st)
theorem enters_pand (c : BitVec 1) (b a d : BitVec 3) : Enters (.pand c b a d) :=
  enters_of_some rfl rfl (fun st => by rw [exec_pand]; exact vx_enters _ _ _ _ _ _ _ _ st)
theorem enters_por (c : BitVec 1) (b a d : BitVec 3) : Enters (.por c b a d) :=
  enters_of_some rfl rfl (fun st => by rw [exec_por]; exact vx_enters _ _ _ _ _ _ _ _ st)
theorem enters_pxor (c : BitVec 1) (b a d : BitVec 3) : Enters (.pxor c b a d) :=
  enters_of_some rfl rfl (fun st => by rw [exec_pxor]; exact vx_enters _ _ _ _ _ _ _ _ st)
theorem enters_pnot (c : BitVec 1) (a d : BitVec 3) : Enters (.pnot c a d) :=
  enters_of_some rfl rfl (fun st => by rw [exec_pnot]; exact vx_enters _ _ _ _ _ _ _ _ st)
theorem enters_pmov (c : BitVec 1) (a d : BitVec 3) : Enters (.pmov c a d) :=
  enters_of_some rfl rfl (fun st => by rw [exec_pmov]; exact vx_enters _ _ _ _ _ _ _ _ st)
theorem enters_pcnt (c : BitVec 1) (a : BitVec 3) (d : BitVec 5) : Enters (.pcnt c a d) :=
  enters_of_some rfl rfl (fun st => by rw [exec_pcnt]; exact vx_enters _ _ _ _ _ _ _ _ st)
theorem enters_pfirst (c : BitVec 1) (a : BitVec 3) (d : BitVec 5) : Enters (.pfirst c a d) :=
  enters_of_some rfl rfl (fun st => by rw [exec_pfirst]; exact vx_enters _ _ _ _ _ _ _ _ st)
theorem enters_vldUnit (c m : BitVec 1) (a d : BitVec 5) : Enters (.vldUnit c m a d) :=
  enters_of_some rfl rfl (fun st => by rw [exec_vldUnit]; exact vm_enters _ _ _ _ _ _ _ _ st (by unfold vectorDest; rw [pack_d]))
theorem enters_vldStrided (c m : BitVec 1) (b a d : BitVec 5) : Enters (.vldStrided c m b a d) :=
  enters_of_some rfl rfl (fun st => by rw [exec_vldStrided]; exact vm_enters _ _ _ _ _ _ _ _ st (by unfold vectorDest; rw [pack_d]))
theorem enters_vldIndexed (m : BitVec 1) (b a d : BitVec 5) : Enters (.vldIndexed m b a d) :=
  enters_of_some rfl rfl (fun st => by rw [exec_vldIndexed]; exact vm_enters _ _ _ _ _ _ _ _ st (by unfold vectorDest; rw [pack_d]))
theorem enters_vldffUnit (c m : BitVec 1) (a d : BitVec 5) : Enters (.vldffUnit c m a d) :=
  enters_of_some rfl rfl (fun st => by rw [exec_vldffUnit]; exact vm_enters _ _ _ _ _ _ _ _ st (by unfold vectorDest; rw [pack_d]))
theorem enters_vldffStrided (c m : BitVec 1) (b a d : BitVec 5) : Enters (.vldffStrided c m b a d) :=
  enters_of_some rfl rfl (fun st => by rw [exec_vldffStrided]; exact vm_enters _ _ _ _ _ _ _ _ st (by unfold vectorDest; rw [pack_d]))
theorem enters_vldffIndexed (m : BitVec 1) (b a d : BitVec 5) : Enters (.vldffIndexed m b a d) :=
  enters_of_some rfl rfl (fun st => by rw [exec_vldffIndexed]; exact vm_enters _ _ _ _ _ _ _ _ st (by unfold vectorDest; rw [pack_d]))
theorem enters_vstUnit (c m : BitVec 1) (a s : BitVec 5) : Enters (.vstUnit c m a s) :=
  enters_of_some rfl rfl (fun st => by rw [exec_vstUnit]; exact vm_enters _ _ _ _ _ _ _ _ st (by unfold vectorDest; rw [pack_d]))
theorem enters_vstStrided (c m : BitVec 1) (b a s : BitVec 5) : Enters (.vstStrided c m b a s) :=
  enters_of_some rfl rfl (fun st => by rw [exec_vstStrided]; exact vm_enters _ _ _ _ _ _ _ _ st (by unfold vectorDest; rw [pack_d]))
theorem enters_vstIndexed (m : BitVec 1) (b a s : BitVec 5) : Enters (.vstIndexed m b a s) :=
  enters_of_some rfl rfl (fun st => by rw [exec_vstIndexed]; exact vm_enters _ _ _ _ _ _ _ _ st (by unfold vectorDest; rw [pack_d]))
theorem enters_vstn (c m : BitVec 1) (b a s : BitVec 5) : Enters (.vstn c m b a s) :=
  enters_of_some rfl rfl (fun st => by rw [exec_vstn]; exact vm_enters _ _ _ _ _ _ _ _ st (by unfold vectorDest; rw [pack_d]))
theorem enters_vrsAddUnit (c m : BitVec 1) (a s : BitVec 5) : Enters (.vrsAddUnit c m a s) :=
  enters_of_some rfl rfl (fun st => by rw [exec_vrsAddUnit]; exact vm_enters _ _ _ _ _ _ _ _ st (by unfold vectorDest; rw [pack_d]))
theorem enters_vrsAddIndexed (c m : BitVec 1) (b a s : BitVec 5) : Enters (.vrsAddIndexed c m b a s) :=
  enters_of_some rfl rfl (fun st => by rw [exec_vrsAddIndexed]; exact vm_enters _ _ _ _ _ _ _ _ st (by unfold vectorDest; rw [pack_d]))
theorem enters_vrsMinUnit (c m : BitVec 1) (a s : BitVec 5) : Enters (.vrsMinUnit c m a s) :=
  enters_of_some rfl rfl (fun st => by rw [exec_vrsMinUnit]; exact vm_enters _ _ _ _ _ _ _ _ st (by unfold vectorDest; rw [pack_d]))
theorem enters_vrsMinIndexed (c m : BitVec 1) (b a s : BitVec 5) : Enters (.vrsMinIndexed c m b a s) :=
  enters_of_some rfl rfl (fun st => by rw [exec_vrsMinIndexed]; exact vm_enters _ _ _ _ _ _ _ _ st (by unfold vectorDest; rw [pack_d]))
theorem enters_vrsMaxUnit (c m : BitVec 1) (a s : BitVec 5) : Enters (.vrsMaxUnit c m a s) :=
  enters_of_some rfl rfl (fun st => by rw [exec_vrsMaxUnit]; exact vm_enters _ _ _ _ _ _ _ _ st (by unfold vectorDest; rw [pack_d]))
theorem enters_vrsMaxIndexed (c m : BitVec 1) (b a s : BitVec 5) : Enters (.vrsMaxIndexed c m b a s) :=
  enters_of_some rfl rfl (fun st => by rw [exec_vrsMaxIndexed]; exact vm_enters _ _ _ _ _ _ _ _ st (by unfold vectorDest; rw [pack_d]))
theorem enters_vrsOrUnit (c m : BitVec 1) (a s : BitVec 5) : Enters (.vrsOrUnit c m a s) :=
  enters_of_some rfl rfl (fun st => by rw [exec_vrsOrUnit]; exact vm_enters _ _ _ _ _ _ _ _ st (by unfold vectorDest; rw [pack_d]))
theorem enters_vrsOrIndexed (c m : BitVec 1) (b a s : BitVec 5) : Enters (.vrsOrIndexed c m b a s) :=
  enters_of_some rfl rfl (fun st => by rw [exec_vrsOrIndexed]; exact vm_enters _ _ _ _ _ _ _ _ st (by unfold vectorDest; rw [pack_d]))
theorem enters_vspill (a s : BitVec 5) : Enters (.vspill a s) :=
  enters_of_some rfl rfl (fun st => by rw [exec_vspill]; exact vm_enters _ _ _ _ _ _ _ _ st (by unfold vectorDest; rw [pack_d]))
theorem enters_vfill (a d : BitVec 5) : Enters (.vfill a d) :=
  enters_of_some rfl rfl (fun st => by rw [exec_vfill]; exact vm_enters _ _ _ _ _ _ _ _ st (by unfold vectorDest; rw [pack_d]))
theorem enters_vprep (b a d : BitVec 5) : Enters (.vprep b a d) :=
  enters_of_some rfl rfl (fun st => by rw [exec_vprep]; exact vm_enters _ _ _ _ _ _ _ _ st (by unfold vectorDest; rw [pack_d]))
theorem enters_vtrimh (b a d : BitVec 5) : Enters (.vtrimh b a d) :=
  enters_of_some rfl rfl (fun st => by rw [exec_vtrimh]; exact vm_enters _ _ _ _ _ _ _ _ st (by unfold vectorDest; rw [pack_d]))
theorem enters_vtrimt (b a d : BitVec 5) : Enters (.vtrimt b a d) :=
  enters_of_some rfl rfl (fun st => by rw [exec_vtrimt]; exact vm_enters _ _ _ _ _ _ _ _ st (by unfold vectorDest; rw [pack_d]))
theorem enters_vsplit (b a d : BitVec 5) : Enters (.vsplit b a d) :=
  enters_of_some rfl rfl (fun st => by rw [exec_vsplit]; exact vm_enters _ _ _ _ _ _ _ _ st (by unfold vectorDest; rw [pack_d]))
theorem enters_vjoin (b a d : BitVec 5) : Enters (.vjoin b a d) :=
  enters_of_some rfl rfl (fun st => by rw [exec_vjoin]; exact vm_enters _ _ _ _ _ _ _ _ st (by unfold vectorDest; rw [pack_d]))
theorem enters_vshare (a d : BitVec 5) : Enters (.vshare a d) :=
  enters_of_some rfl rfl (fun st => by rw [exec_vshare]; exact vm_enters _ _ _ _ _ _ _ _ st (by unfold vectorDest; rw [pack_d]))
theorem enters_vretype (t a d : BitVec 5) : Enters (.vretype t a d) :=
  enters_of_some rfl rfl (fun st => by rw [exec_vretype]; exact vm_enters _ _ _ _ _ _ _ _ st (by unfold vectorDest; rw [pack_d]))
theorem enters_vlen (a d : BitVec 5) : Enters (.vlen a d) :=
  enters_of_some rfl rfl (fun st => by rw [exec_vlen]; exact vm_enters _ _ _ _ _ _ _ _ st (by unfold vectorDest; rw [pack_d]))
theorem enters_vfree (d : BitVec 5) : Enters (.vfree d) :=
  enters_of_some rfl rfl (fun st => by rw [exec_vfree]; exact vm_enters _ _ _ _ _ _ _ _ st (by unfold vectorDest; rw [pack_d]))
theorem enters_vnorm (a d : BitVec 5) : Enters (.vnorm a d) :=
  enters_of_some rfl rfl (fun st => by rw [exec_vnorm]; exact vm_enters _ _ _ _ _ _ _ _ st (by unfold vectorDest; rw [pack_d]))
theorem enters_fclaim (b a d : BitVec 5) : Enters (.fclaim b a d) :=
  enters_of_some rfl rfl (fun st => by rw [exec_fclaim]; exact vm_enters _ _ _ _ _ _ _ _ st (by unfold vectorDest; rw [pack_d]))
theorem enters_frel : Enters (.frel) :=
  enters_of_some rfl rfl (fun st => by rw [exec_frel]; exact vm_enters _ _ _ _ _ _ _ _ st (by unfold vectorDest; rw [pack_d]))
theorem enters_fins (m : BitVec 1) (b a : BitVec 5) (p : BitVec 2) : Enters (.fins m b a p) :=
  enters_of_some rfl rfl (fun st => by rw [exec_fins]; exact vm_enters _ _ _ _ _ _ _ _ st (by unfold vectorDest; rw [pack_d]))
theorem enters_fprobe (m : BitVec 1) (b a : BitVec 5) (p : BitVec 2) (d : BitVec 5) : Enters (.fprobe m b a p d) :=
  enters_of_some rfl rfl (fun st => by rw [exec_fprobe]; exact vm_enters _ _ _ _ _ _ _ _ st (by unfold vectorDest; rw [pack_d]))
theorem enters_fdel (m : BitVec 1) (a : BitVec 5) (p : BitVec 2) : Enters (.fdel m a p) :=
  enters_of_some rfl rfl (fun st => by rw [exec_fdel]; exact vm_enters _ _ _ _ _ _ _ _ st (by unfold vectorDest; rw [pack_d]))
theorem enters_faccAdd (m : BitVec 1) (p : BitVec 2) (a d : BitVec 5) : Enters (.faccAdd m p a d) :=
  enters_of_some rfl rfl (fun st => by rw [exec_faccAdd]; exact vm_enters _ _ _ _ _ _ _ _ st (by unfold vectorDest; rw [pack_d]))
theorem enters_faccMin (m : BitVec 1) (p : BitVec 2) (a d : BitVec 5) : Enters (.faccMin m p a d) :=
  enters_of_some rfl rfl (fun st => by rw [exec_faccMin]; exact vm_enters _ _ _ _ _ _ _ _ st (by unfold vectorDest; rw [pack_d]))
theorem enters_faccMax (m : BitVec 1) (p : BitVec 2) (a d : BitVec 5) : Enters (.faccMax m p a d) :=
  enters_of_some rfl rfl (fun st => by rw [exec_faccMax]; exact vm_enters _ _ _ _ _ _ _ _ st (by unfold vectorDest; rw [pack_d]))
theorem enters_faccOr (m : BitVec 1) (p : BitVec 2) (a d : BitVec 5) : Enters (.faccOr m p a d) :=
  enters_of_some rfl rfl (fun st => by rw [exec_faccOr]; exact vm_enters _ _ _ _ _ _ _ _ st (by unfold vectorDest; rw [pack_d]))
theorem enters_faccCount (m : BitVec 1) (p : BitVec 2) (a d : BitVec 5) : Enters (.faccCount m p a d) :=
  enters_of_some rfl rfl (fun st => by rw [exec_faccCount]; exact vm_enters _ _ _ _ _ _ _ _ st (by unfold vectorDest; rw [pack_d]))
theorem enters_fdrain (b d : BitVec 5) : Enters (.fdrain b d) :=
  enters_of_some rfl rfl (fun st => by rw [exec_fdrain]; exact vm_enters _ _ _ _ _ _ _ _ st (by unfold vectorDest; rw [pack_d]))

/-- Every VX and VM word enters its convoy as the member its word describes. -/
theorem vector_enters (i : Instr) : Enters i := by
  cases i
  · exact enters_of_none rfl
  · exact enters_of_none rfl
  · exact enters_of_none rfl
  · exact enters_of_none rfl
  · exact enters_of_none rfl
  · exact enters_of_none rfl
  · exact enters_of_none rfl
  · exact enters_of_none rfl
  · exact enters_of_none rfl
  · exact enters_of_none rfl
  · exact enters_of_none rfl
  · exact enters_of_none rfl
  · exact enters_of_none rfl
  · exact enters_of_none rfl
  · exact enters_of_none rfl
  · exact enters_of_none rfl
  · exact enters_of_none rfl
  · exact enters_of_none rfl
  · exact enters_of_none rfl
  · exact enters_of_none rfl
  · exact enters_of_none rfl
  · exact enters_of_none rfl
  · exact enters_of_none rfl
  · exact enters_of_none rfl
  · exact enters_of_none rfl
  · exact enters_of_none rfl
  · exact enters_of_none rfl
  · exact enters_of_none rfl
  · exact enters_of_none rfl
  · exact enters_of_none rfl
  · exact enters_of_none rfl
  · exact enters_of_none rfl
  · exact enters_of_none rfl
  · exact enters_of_none rfl
  · exact enters_of_none rfl
  · exact enters_of_none rfl
  · exact enters_of_none rfl
  · exact enters_of_none rfl
  · exact enters_of_none rfl
  · exact enters_of_none rfl
  · exact enters_of_none rfl
  · exact enters_of_none rfl
  · exact enters_of_none rfl
  · exact enters_of_none rfl
  · exact enters_of_none rfl
  · exact enters_of_none rfl
  · exact enters_of_none rfl
  · exact enters_of_none rfl
  · exact enters_of_none rfl
  · exact enters_of_none rfl
  · exact enters_of_none rfl
  · exact enters_of_none rfl
  · exact enters_of_none rfl
  · exact enters_of_none rfl
  · exact enters_of_none rfl
  · exact enters_of_none rfl
  · exact enters_of_none rfl
  · exact enters_of_none rfl
  · exact enters_of_none rfl
  · exact enters_of_none rfl
  · exact enters_of_none rfl
  · exact enters_of_none rfl
  · exact enters_of_none rfl
  · exact enters_of_none rfl
  · exact enters_of_none rfl
  · exact enters_of_none rfl
  · exact enters_of_none rfl
  · exact enters_of_none rfl
  · exact enters_of_none rfl
  · exact enters_of_none rfl
  · exact enters_of_none rfl
  · exact enters_of_none rfl
  · exact enters_of_none rfl
  · exact enters_of_none rfl
  · exact enters_of_none rfl
  · exact enters_of_none rfl
  · exact enters_of_none rfl
  · exact enters_of_none rfl
  · exact enters_of_none rfl
  · exact enters_of_none rfl
  · exact enters_of_none rfl
  · exact enters_of_none rfl
  · exact enters_of_none rfl
  · exact enters_of_none rfl
  · exact enters_of_none rfl
  · exact enters_of_none rfl
  · exact enters_of_none rfl
  · exact enters_of_none rfl
  · exact enters_of_none rfl
  · exact enters_of_none rfl
  · exact enters_of_none rfl
  · exact enters_of_none rfl
  · exact enters_of_none rfl
  · exact enters_of_none rfl
  · exact enters_of_none rfl
  · exact enters_of_none rfl
  · exact enters_of_none rfl
  · exact enters_of_none rfl
  · exact enters_of_none rfl
  · exact enters_of_none rfl
  · exact enters_of_none rfl
  · exact enters_of_none rfl
  · exact enters_of_none rfl
  · exact enters_of_none rfl
  · exact enters_vaddVv _ _ _ _ _
  · exact enters_vaddVx _ _ _ _ _
  · exact enters_vaddVi _ _ _ _ _
  · exact enters_vaddVs _ _ _ _
  · exact enters_vaddRay _ _ _ _ _
  · exact enters_vsubVv _ _ _ _ _
  · exact enters_vsubVx _ _ _ _ _
  · exact enters_vsubVi _ _ _ _ _
  · exact enters_vsubVs _ _ _ _
  · exact enters_vsubRay _ _ _ _ _
  · exact enters_vrsubVx _ _ _ _ _
  · exact enters_vrsubVi _ _ _ _ _
  · exact enters_vrsubVs _ _ _ _
  · exact enters_vrsubRay _ _ _ _ _
  · exact enters_vmulVv _ _ _ _ _
  · exact enters_vmulVx _ _ _ _ _
  · exact enters_vmulVs _ _ _ _
  · exact enters_vmulRay _ _ _ _ _
  · exact enters_vmulhVv _ _ _ _ _
  · exact enters_vmulhVx _ _ _ _ _
  · exact enters_vmulhVs _ _ _ _
  · exact enters_vmulhRay _ _ _ _ _
  · exact enters_vdivVv _ _ _ _ _
  · exact enters_vdivVx _ _ _ _ _
  · exact enters_vdivVs _ _ _ _
  · exact enters_vdivRay _ _ _ _ _
  · exact enters_vremVv _ _ _ _ _
  · exact enters_vremVx _ _ _ _ _
  · exact enters_vremVs _ _ _ _
  · exact enters_vremRay _ _ _ _ _
  · exact enters_vminVv _ _ _ _ _
  · exact enters_vminVx _ _ _ _ _
  · exact enters_vminVi _ _ _ _ _
  · exact enters_vminVs _ _ _ _
  · exact enters_vminRay _ _ _ _ _
  · exact enters_vmaxVv _ _ _ _ _
  · exact enters_vmaxVx _ _ _ _ _
  · exact enters_vmaxVi _ _ _ _ _
  · exact enters_vmaxVs _ _ _ _
  · exact enters_vmaxRay _ _ _ _ _
  · exact enters_vandVv _ _ _ _ _
  · exact enters_vandVx _ _ _ _ _
  · exact enters_vandVi _ _ _ _ _
  · exact enters_vandVs _ _ _ _
  · exact enters_vandRay _ _ _ _ _
  · exact enters_vorVv _ _ _ _ _
  · exact enters_vorVx _ _ _ _ _
  · exact enters_vorVi _ _ _ _ _
  · exact enters_vorVs _ _ _ _
  · exact enters_vorRay _ _ _ _ _
  · exact enters_vxorVv _ _ _ _ _
  · exact enters_vxorVx _ _ _ _ _
  · exact enters_vxorVi _ _ _ _ _
  · exact enters_vxorVs _ _ _ _
  · exact enters_vxorRay _ _ _ _ _
  · exact enters_vsllVv _ _ _ _ _
  · exact enters_vsllVx _ _ _ _ _
  · exact enters_vsllVi _ _ _ _ _
  · exact enters_vsllVs _ _ _ _
  · exact enters_vsllRay _ _ _ _ _
  · exact enters_vsrlVv _ _ _ _ _
  · exact enters_vsrlVx _ _ _ _ _
  · exact enters_vsrlVi _ _ _ _ _
  · exact enters_vsrlVs _ _ _ _
  · exact enters_vsrlRay _ _ _ _ _
  · exact enters_vsraVv _ _ _ _ _
  · exact enters_vsraVx _ _ _ _ _
  · exact enters_vsraVi _ _ _ _ _
  · exact enters_vsraVs _ _ _ _
  · exact enters_vsraRay _ _ _ _ _
  · exact enters_vfmaVv _ _ _ _ _
  · exact enters_vfmaVx _ _ _ _ _
  · exact enters_vfmaVs _ _ _ _
  · exact enters_vfmaRay _ _ _ _ _
  · exact enters_vfmsVv _ _ _ _ _
  · exact enters_vfmsVx _ _ _ _ _
  · exact enters_vfmsVs _ _ _ _
  · exact enters_vfmsRay _ _ _ _ _
  · exact enters_vfnmaVv _ _ _ _ _
  · exact enters_vfnmaVx _ _ _ _ _
  · exact enters_vfnmaVs _ _ _ _
  · exact enters_vfnmaRay _ _ _ _ _
  · exact enters_vsaddVv _ _ _ _ _
  · exact enters_vsaddVx _ _ _ _ _
  · exact enters_vsaddVi _ _ _ _ _
  · exact enters_vsaddVs _ _ _ _
  · exact enters_vsaddRay _ _ _ _ _
  · exact enters_vssubVv _ _ _ _ _
  · exact enters_vssubVx _ _ _ _ _
  · exact enters_vssubVi _ _ _ _ _
  · exact enters_vssubVs _ _ _ _
  · exact enters_vssubRay _ _ _ _ _
  · exact enters_vceq _ _ _ _ _
  · exact enters_vcne _ _ _ _ _
  · exact enters_vcequ _ _ _ _ _
  · exact enters_vcneu _ _ _ _ _
  · exact enters_vclt _ _ _ _ _
  · exact enters_vcnlt _ _ _ _ _
  · exact enters_vcltu _ _ _ _ _
  · exact enters_vcnltu _ _ _ _ _
  · exact enters_vcle _ _ _ _ _
  · exact enters_vcnle _ _ _ _ _
  · exact enters_vcleu _ _ _ _ _
  · exact enters_vcnleu _ _ _ _ _
  · exact enters_vcun _ _ _ _ _
  · exact enters_vcord _ _ _ _ _
  · exact enters_vcsn _ _ _ _
  · exact enters_vcnsn _ _ _ _
  · exact enters_vsel _ _ _ _
  · exact enters_vmvVx _ _ _ _
  · exact enters_vmvVi _ _ _ _
  · exact enters_vmvX _ _
  · exact enters_vmvVv _ _ _ _
  · exact enters_vcvt _ _ _ _ _
  · exact enters_vcvts _ _ _ _ _
  · exact enters_vneg _ _ _ _
  · exact enters_vabs _ _ _ _
  · exact enters_vsqrt _ _ _ _
  · exact enters_vrcpe _ _ _ _
  · exact enters_vrsqe _ _ _ _
  · exact enters_vexp2 _ _ _ _
  · exact enters_vlog2 _ _ _ _
  · exact enters_vclz _ _ _ _
  · exact enters_vpopc _ _ _ _
  · exact enters_vbrev _ _ _ _
  · exact enters_vclass _ _ _ _
  · exact enters_vredsum _ _ _ _
  · exact enters_vredosum _ _ _ _
  · exact enters_vredmin _ _ _ _
  · exact enters_vredmax _ _ _ _
  · exact enters_vredand _ _ _ _
  · exact enters_vredor _ _ _ _
  · exact enters_vredxor _ _ _ _
  · exact enters_vargmax _ _ _
  · exact enters_vcompress _ _
  · exact enters_vexpand _ _
  · exact enters_vpcnt _ _ _
  · exact enters_vconfl _ _ _
  · exact enters_vslideup _ _ _ _
  · exact enters_vslidedn _ _ _ _
  · exact enters_vperm _ _ _ _
  · exact enters_viota _ _ _
  · exact enters_vsscanAdd _ _
  · exact enters_vsscanMin _ _
  · exact enters_vsscanMax _ _
  · exact enters_vsscanOr _ _
  · exact enters_vtopk _ _ _ _
  · exact enters_vinter _ _ _ _
  · exact enters_vsortk _ _ _
  · exact enters_pand _ _ _ _
  · exact enters_por _ _ _ _
  · exact enters_pxor _ _ _ _
  · exact enters_pnot _ _ _
  · exact enters_pmov _ _ _
  · exact enters_pcnt _ _ _
  · exact enters_pfirst _ _ _
  · exact enters_vldUnit _ _ _ _
  · exact enters_vldStrided _ _ _ _ _
  · exact enters_vldIndexed _ _ _ _
  · exact enters_vldffUnit _ _ _ _
  · exact enters_vldffStrided _ _ _ _ _
  · exact enters_vldffIndexed _ _ _ _
  · exact enters_vstUnit _ _ _ _
  · exact enters_vstStrided _ _ _ _ _
  · exact enters_vstIndexed _ _ _ _
  · exact enters_vstn _ _ _ _ _
  · exact enters_vrsAddUnit _ _ _ _
  · exact enters_vrsAddIndexed _ _ _ _ _
  · exact enters_vrsMinUnit _ _ _ _
  · exact enters_vrsMinIndexed _ _ _ _ _
  · exact enters_vrsMaxUnit _ _ _ _
  · exact enters_vrsMaxIndexed _ _ _ _ _
  · exact enters_vrsOrUnit _ _ _ _
  · exact enters_vrsOrIndexed _ _ _ _ _
  · exact enters_vspill _ _
  · exact enters_vfill _ _
  · exact enters_vprep _ _ _
  · exact enters_vtrimh _ _ _
  · exact enters_vtrimt _ _ _
  · exact enters_vsplit _ _ _
  · exact enters_vjoin _ _ _
  · exact enters_vshare _ _
  · exact enters_vretype _ _ _
  · exact enters_vlen _ _
  · exact enters_vfree _
  · exact enters_vnorm _ _
  · exact enters_fclaim _ _ _
  · exact enters_frel
  · exact enters_fins _ _ _ _
  · exact enters_fprobe _ _ _ _ _
  · exact enters_fdel _ _ _
  · exact enters_faccAdd _ _ _ _
  · exact enters_faccMin _ _ _ _
  · exact enters_faccMax _ _ _ _
  · exact enters_faccOr _ _ _ _
  · exact enters_faccCount _ _ _ _
  · exact enters_fdrain _ _
  · exact enters_of_none rfl
  · exact enters_of_none rfl
  · exact enters_of_none rfl
  · exact enters_of_none rfl
  · exact enters_of_none rfl
  · exact enters_of_none rfl
  · exact enters_of_none rfl
  · exact enters_of_none rfl
  · exact enters_of_none rfl
  · exact enters_of_none rfl
  · exact enters_of_none rfl
  · exact enters_of_none rfl
  · exact enters_of_none rfl
  · exact enters_of_none rfl
  · exact enters_of_none rfl
  · exact enters_of_none rfl
  · exact enters_of_none rfl
  · exact enters_of_none rfl
  · exact enters_of_none rfl
  · exact enters_of_none rfl
  · exact enters_of_none rfl
  · exact enters_of_none rfl
  · exact enters_of_none rfl
  · exact enters_of_none rfl
  · exact enters_of_none rfl
  · exact enters_of_none rfl
  · exact enters_of_none rfl
  · exact enters_of_none rfl
  · exact enters_of_none rfl
  · exact enters_of_none rfl
  · exact enters_of_none rfl
  · exact enters_of_none rfl
  · exact enters_of_none rfl
  · exact enters_of_none rfl
  · exact enters_of_none rfl
  · exact enters_of_none rfl
  · exact enters_of_none rfl
  · exact enters_of_none rfl
  · exact enters_of_none rfl
  · exact enters_of_none rfl
  · exact enters_of_none rfl
  · exact enters_of_none rfl
  · exact enters_of_none rfl
  · exact enters_of_none rfl
  · exact enters_of_none rfl
  · exact enters_of_none rfl
  · exact enters_of_none rfl
  · exact enters_of_none rfl
  · exact enters_of_none rfl
  · exact enters_of_none rfl
  · exact enters_of_none rfl
  · exact enters_of_none rfl
  · exact enters_of_none rfl
  · exact enters_of_none rfl
  · exact enters_of_none rfl
  · exact enters_of_none rfl
  · exact enters_of_none rfl
  · exact enters_of_none rfl
  · exact enters_of_none rfl
  · exact enters_of_none rfl
  · exact enters_of_none rfl
  · exact enters_of_none rfl
  · exact enters_of_none rfl
  · exact enters_of_none rfl
  · exact enters_of_none rfl
  · exact enters_of_none rfl
  · exact enters_of_none rfl
  · exact enters_of_none rfl
  · exact enters_of_none rfl
  · exact enters_of_none rfl
  · exact enters_of_none rfl
  · exact enters_of_none rfl
  · exact enters_of_none rfl
  · exact enters_of_none rfl
  · exact enters_of_none rfl
  · exact enters_of_none rfl
  · exact enters_of_none rfl
  · exact enters_of_none rfl
  · exact enters_of_none rfl
  · exact enters_of_none rfl
  · exact enters_of_none rfl
  · exact enters_of_none rfl
  · exact enters_of_none rfl
  · exact enters_of_none rfl
  · exact enters_of_none rfl
  · exact enters_of_none rfl
  · exact enters_of_none rfl
  · exact enters_of_none rfl
  · exact enters_of_none rfl
  · exact enters_of_none rfl
  · exact enters_of_none rfl
  · exact enters_of_none rfl
  · exact enters_of_none rfl
  · exact enters_of_none rfl
  · exact enters_of_none rfl
  · exact enters_of_none rfl
  · exact enters_of_none rfl
  · exact enters_of_none rfl
  · exact enters_of_none rfl
  · exact enters_of_none rfl
  · exact enters_of_none rfl
  · exact enters_of_none rfl
  · exact enters_of_none rfl
  · exact enters_of_none rfl
  · exact enters_of_none rfl
  · exact enters_of_none rfl
  · exact enters_of_none rfl
  · exact enters_of_none rfl
  · exact enters_of_none rfl
  · exact enters_of_none rfl
  · exact enters_of_none rfl
  · exact enters_of_none rfl
  · exact enters_of_none rfl
  · exact enters_of_none rfl
  · exact enters_of_none rfl
  · exact enters_of_none rfl
  · exact enters_of_none rfl
  · exact enters_of_none rfl
  · exact enters_of_none rfl
  · exact enters_of_none rfl
  · exact enters_of_none rfl
  · exact enters_of_none rfl
  · exact enters_of_none rfl
  · exact enters_of_none rfl
  · exact enters_of_none rfl
  · exact enters_of_none rfl
  · exact enters_of_none rfl
  · exact enters_of_none rfl
  · exact enters_of_none rfl
  · exact enters_of_none rfl
  · exact enters_of_none rfl
  · exact enters_of_none rfl
  · exact enters_of_none rfl
  · exact enters_of_none rfl
  · exact enters_of_none rfl

end Sys2Proof.Laws
end

