-- ==== Sys2Proof/Machine/KvPage.lean ====
section
/-! DEFINITION. The header of a KV page, its check, and the score of a page (R223 to R225). No word of the opcode table
makes the Apex unit read a header or score a page, so no step calls these (log 24: DESIGN CHOICE, safe). -/

namespace Sys2Proof.Machine

/-- A number of a KV page's header at byte offset `off`, `n` bytes long (R223). -/
def kvField (h : List Byte) (off n : Nat) : Nat := recNat h off n

/-- Bytes of one row of a KV page's elements: HDIM codes of e2m1 (14) or e4m3 (12), and of its records, which only
e2m1 has (R223). -/
def kvRow (fmt hdim : Nat) : Nat := if fmt = 14 then hdim / 2 else hdim
def kvRecords (fmt hdim : Nat) : Nat := if fmt = 14 then hdim / 16 else 0

/-- The areas of a KV page as (offset, length): its header, keys, values, key records, value records and centroid (R223) (log 24: DESIGN CHOICE, safe). -/
def kvAreas (h : List Byte) : List (Nat × Nat) :=
  let ntok := kvField h 5 1
  let hdim := kvField h 6 1
  let kt := kvField h 7 1 % 16
  let vt := kvField h 7 1 / 16
  [(0, 128), (kvField h 8 4, ntok * kvRow kt hdim), (kvField h 12 4, ntok * kvRow vt hdim),
   (kvField h 16 4, ntok * kvRecords kt hdim), (kvField h 20 4, ntok * kvRecords vt hdim), (kvField h 24 4, 2 * hdim)]
    |>.filter (fun x => x.2 != 0)

/-- Whether two areas share no byte. -/
def apart (a b : Nat × Nat) : Bool := decide (a.1 + a.2 ≤ b.1 ∨ b.1 + b.2 ≤ a.1)

/-- Whether no two areas of a list share a byte. -/
def allApart : List (Nat × Nat) → Bool
  | [] => true
  | a :: t => t.all (apart a) && allApart t

/-- Whether a header passes the checks of R224 (log 24: DESIGN CHOICE, safe). -/
def kvHeaderOk (h : List Byte) : Bool :=
  let ntok := kvField h 5 1
  let hdim := kvField h 6 1
  let kt := kvField h 7 1 % 16
  let vt := kvField h 7 1 / 16
  let radius := kvField h 28 4
  kvField h 0 4 == 0x5A384B50 && kvField h 4 1 == 1 && decide (1 ≤ ntok ∧ ntok ≤ 64) && (hdim == 32 || hdim == 64 || hdim == 128) &&
    (kt == 14 || kt == 12) && (vt == 14 || vt == 12) && kvField h 36 4 == 0 && ((h.drop 48).take 80).all (· == 0) &&
    (kt == 14 || kvField h 16 4 == 0) && (vt == 14 || kvField h 20 4 == 0) &&
    (kvAreas h).all (fun x => x.1 % 64 == 0 && decide (x.1 + x.2 ≤ kvField h 32 4)) && allApart (kvAreas h) &&
    !isNan 9 radius && !isInf 9 radius && !(isNeg 9 radius && magnitude 9 radius != 0)

/-- What the Apex unit takes at a header at an address: where a check fails, the shape fault, class 48, with the header's address in `stval` (R224)
(log 24: DESIGN CHOICE, safe). -/
def kvHeaderTrap (s : State) (addr : Word) (h : List Byte) : Option Trap := if kvHeaderOk h then none else some (checkTrap s 48 addr 1 .data)

/-- An exact sum rounded once toward +∞, and its square root so rounded (R225) (log 24: DESIGN CHOICE, safe). -/
def roundUpSum (x : Sum) : Nat :=
  if x.invalid || (x.pos && x.neg) then canonicalNan 9
  else if x.pos || x.neg then withSign 9 x.neg (maxCode 9 + 1)
  else if x.total = 0 then withSign 9 x.allNegZero 0
  else (roundTo 9 3 false (decide (x.total < 0)) x.total.natAbs x.e).w
def roundUpRoot (x : Sum) : Nat :=
  if x.invalid then canonicalNan 9
  else if x.pos then withSign 9 false (maxCode 9 + 1)
  else if x.total = 0 then 0
  else
    let k := rootOf x.total.natAbs x.e
    (roundTo 9 3 false false k.1 k.2).w

/-- The score of a page for a query of f32 elements: the centroid's bf16 elements taken as f32, each step rounded toward
+∞ (R225) (log 24: DESIGN CHOICE, safe). -/
def pageScore (q centroid : List Nat) (radius : Nat) : Nat :=
  let elems (xs : List Nat) : List Elem := xs.map (fun w => { code := w, special := 0 })
  let qs := elems q
  let d := roundUpSum (sumOf 9 qs (elems (centroid.map (· * 65536))))
  let n := roundUpRoot (sumOf 9 qs qs)
  (fadd 9 3 false false d (fmul 9 3 n radius).w).w

end Sys2Proof.Machine
end

