-- ==== Sys2Proof/Tests/Slice0.lean ====
section
/-! SUPPORT. Tests. Words written out in the spec decode to the instructions they stand for; ill-formed instructions are refused; small executions give values worked by hand
from the rules; and, for every statement with hypotheses, `witness_<name>` shows for each of its clauses a state and operands that meet them all. A statement that joins several claims has the
witnesses of each. -/

namespace Sys2Proof

open Machine

set_option Elab.async false

/-! ## Words of the spec -/

theorem test_decode_vector_arithmetic :
    decode 0x0620820B = .ok (.vaddVv 1 1 2 1 4) ∧
    decode 0x1A32028B = .ok (.vmulVv 0 1 3 4 5) ∧
    decode 0x008F218B = .ok (.vaddVi 0 0 8 30 3) ∧
    decode 0x7233930B = .ok (.vsraVx 0 1 3 7 6) ∧
    decode 0x7A20820B = .ok (.vfmaVv 0 1 2 1 4) ∧
    decode 0x0227F20B = .ok (.vaddRay 0 1 2 15 4) :=
  ⟨rfl, rfl, rfl, rfl, rfl, rfl⟩

theorem test_decode_compares_and_moves :
    decode 0xAA20B10B = .ok (.vclt 0 1 2 1 2) ∧
    decode 0xA252358B = .ok (.vcne 0 1 5 4 3) ∧
    decode 0xC220838B = .ok (.vsel 0 2 1 7) ∧
    decode 0xCAA4D28B = .ok (.vcvt 0 1 10 9 5) ∧
    decode 0xCBC1D30B = .ok (.vcvts 0 1 12 3 6) ∧
    decode 0xD224E28B = .ok (.vsqrt 0 1 9 5) :=
  ⟨rfl, rfl, rfl, rfl, rfl, rfl⟩

theorem test_decode_cross_element :
    decode 0xDA30020B = .ok (.vredsum 1 3 0 4) ∧
    decode 0xE020030B = .ok (.vcompress 2 6) ∧
    decode 0xEA30028B = .ok (.vsscanAdd 3 5) ∧
    decode 0xF2D0838B = .ok (.vtopk 1 13 1 7) ∧
    decode 0xFA31008B = .ok (.pand 0 3 2 1) :=
  ⟨rfl, rfl, rfl, rfl, rfl⟩

theorem test_decode_vector_memory :
    decode 0x020500AB = .ok (.vldUnit 0 1 10 1) ∧
    decode 0x02C5922B = .ok (.vldStrided 0 1 12 11 4) ∧
    decode 0x023522AB = .ok (.vldIndexed 1 3 10 5) ∧
    decode 0x0A0502AB = .ok (.vldffUnit 0 1 10 5) ∧
    decode 0x12C591AB = .ok (.vstStrided 0 1 12 11 3) ∧
    decode 0x100581AB = .ok (.vstUnit 0 0 11 3) ∧
    decode 0x1AD5822B = .ok (.vstn 0 1 13 11 4) ∧
    decode 0x2265222B = .ok (.vrsAddIndexed 0 1 6 10 4) ∧
    decode 0x420504AB = .ok (.vspill 10 9) ∧
    decode 0x4A0504AB = .ok (.vfill 10 9) :=
  ⟨rfl, rfl, rfl, rfl, rfl, rfl, rfl, rfl, rfl, rfl⟩

theorem test_decode_chain_edits :
    decode 0x522081AB = .ok (.vprep 2 1 3) ∧
    decode 0x5A5080AB = .ok (.vtrimh 5 1 1) ∧
    decode 0x6A60812B = .ok (.vsplit 6 1 2) ∧
    decode 0x722082AB = .ok (.vjoin 2 1 5) ∧
    decode 0x82A0822B = .ok (.vretype 10 1 4) ∧
    decode 0x8A01052B = .ok (.vlen 2 10) ∧
    decode 0x920001AB = .ok (.vfree 3) :=
  ⟨rfl, rfl, rfl, rfl, rfl, rfl, rfl⟩

theorem test_decode_facet_table :
    decode 0xA2C5852B = .ok (.fclaim 12 11 10) ∧
    decode 0xAA00002B = .ok (.frel) ∧
    decode 0xB220812B = .ok (.fins 1 2 1 1) ∧
    decode 0xBAE091AB = .ok (.fprobe 1 14 1 1 3) ∧
    decode 0xC200832B = .ok (.fdel 1 1 3) ∧
    decode 0xCA41132B = .ok (.faccMin 1 2 2 6) ∧
    decode 0xD290042B = .ok (.fdrain 9 8) :=
  ⟨rfl, rfl, rfl, rfl, rfl, rfl, rfl⟩

theorem test_decode_matrix :
    decode 0x006280DB = .ok (.mset 6 5 0 1) ∧
    decode 0x10B500DB = .ok (.mld 11 10 1) ∧
    decode 0x4000045B = .ok (.mzero 8) ∧
    decode 0x5020C05B = .ok (.mop 0 2 1 4) ∧
    decode 0x5220805B = .ok (.mop 1 2 1 0) ∧
    decode 0x60B5005B = .ok (.msca 0 11 10) ∧
    decode 0x7052E1DB = .ok (.mrowIn 5 5 6 3) ∧
    decode 0x7251E2DB = .ok (.mrowOut 5 3 6 5) ∧
    decode 0x82B5035B = .ok (.maccOut 1 11 10 0 6) ∧
    decode 0x9005855B = .ok (.mgang 11 10) ∧
    decode 0xA0D1005B = .ok (.mbcast 13 2) :=
  ⟨rfl, rfl, rfl, rfl, rfl, rfl, rfl, rfl, rfl, rfl, rfl⟩

theorem test_decode_loops_and_fences :
    decode 0xFFB207FB = .ok (.vsmine 0xFFB 4 15) ∧
    decode 0x009612FB = .ok (.vsetl 9 12 5) ∧
    decode 0x0207137B = .ok (.vcollapse 14 6) ∧
    decode 0x0420107B = .ok (.fenceSv 2) ∧
    decode 0x0610107B = .ok (.fenceVs 1) ∧
    decode 0x0A20107B = .ok (.rel 2) ∧
    decode 0x0C30107B = .ok (.acq 3) :=
  ⟨rfl, rfl, rfl, rfl, rfl, rfl, rfl⟩

theorem test_decode_engines_and_rays :
    decode 0x00C5A57B = .ok (.ccopy 12 11 10) ∧
    decode 0x04C5A57B = .ok (.ctest 12 11 10) ∧
    decode 0x00C5B57B = .ok (.rayOpen 12 11 10) ∧
    decode 0x0455307B = .ok (.rayGrant 5 10) ∧
    decode 0x0645307B = .ok (.vsend 4 10) ∧
    decode 0x0805337B = .ok (.rayRecv 10 6) ∧
    decode 0x0A85B57B = .ok (.vroute 8 11 10) :=
  ⟨rfl, rfl, rfl, rfl, rfl, rfl, rfl⟩

theorem test_decode_barriers :
    decode 0x00C5C57B = .ok (.barInit 12 11 10) ∧
    decode 0x040542FB = .ok (.barWait 10 5) ∧
    decode 0x0C45C57B = .ok (.collMax 4 11 10) :=
  ⟨rfl, rfl, rfl⟩

theorem test_decode_tasks :
    decode 0x0005D57B = .ok (.tsub 11 10) ∧
    decode 0x0200507B = .ok (.tdone) ∧
    decode 0x06C5D57B = .ok (.twait 12 11 10) ∧
    decode 0x0804D2FB = .ok (.tkill 9 5) :=
  ⟨rfl, rfl, rfl, rfl⟩

theorem test_decode_queries_and_bit_fields :
    decode 0x0005E57B = .ok (.qseg 11 10) ∧
    decode 0x04B5607B = .ok (.tlbdrop 11 10) ∧
    decode 0x0805607B = .ok (.evfrz 10) ∧
    decode 0x60B572FB = .ok (.bfx 12 11 10 5) ∧
    decode 0x6CC5F57B = .ok (.bfi 13 12 11 10) :=
  ⟨rfl, rfl, rfl, rfl, rfl⟩

theorem test_decode_scalar :
    decode 0x00C58533 = .ok (.add 12 11 10) ∧
    decode 0x00853303 = .ok (.ld 8 10 6) ∧
    decode 0x03052383 = .ok (.lw 48 10 7) ∧
    decode 0x0062B023 = .ok (.sd 0 6 5 0) ∧
    decode 0x040F0F13 = .ok (.addi 64 30 30) ∧
    decode 0x046522AF = .ok (.amoadd 1 0 6 10 0 5) ∧
    decode 0xCC002573 = .ok (.csrrs 0xCC0 0 10) ∧
    decode 0x80229073 = .ok (.csrrw 0x802 5 0) :=
  ⟨rfl, rfl, rfl, rfl, rfl, rfl, rfl, rfl⟩

/-! ## States for the tests -/

/-- A task runs on slot 0 of a D-core, with one page of 64 KiB at virtual address 0 that it may read, write and execute. -/
def onD : State := placeWord [] State.reset

/-- The same on an S-core. -/
def onS : State := placeWord [] { State.reset with curKey := 160 }

/-- The state with the context in focus changed. -/
def inCtx (f : Ctx → Ctx) (s : State) : State := { s with cur := f s.cur }

/-- The state with a scalar register set. -/
def withX (r : Nat) (v : Word) (s : State) : State := wx (BitVec.ofNat 5 r) v s

/-- The state in S mode, at a pc that is not the runtime's entry. -/
def inS (s : State) : State := inCtx (fun c => { c with priv := .s }) s

/-- The scalar window of the core's own scratchpad. -/
def local' (off : Nat) : Word := BitVec.ofNat 64 (0xFFFFFF01 * 2 ^ 32 + off)

/-- Where an access of the scalar unit goes, as a yes or no. -/
def isMem (r : Except Nat (Place × Option (TlbEntry × Source))) (k : Nat) : Bool := match r with | .ok (.mem j, _) => j == k | _ => false

def isQueue (r : Except Nat (Place × Option (TlbEntry × Source))) (q off : Nat) : Bool := match r with | .ok (.queueReg p o, _) => p == q && o == off | _ => false

def isFault {α : Type} (r : Except Nat α) (f : Nat) : Bool := match r with | .error e => e == f | _ => false

theorem isMem_iff {r : Except Nat (Place × Option (TlbEntry × Source))} {k : Nat} (h : isMem r k = true) : ∃ use, r = .ok (.mem k, use) := by
  unfold isMem at h
  split at h
  · exact ⟨_, by rw [eq_of_beq h]⟩
  · cases h

/-- The same, with a property of the translation used. -/
def isMemWith (r : Except Nat (Place × Option (TlbEntry × Source))) (k : Nat) (p : Option (TlbEntry × Source) → Bool) : Bool :=
  match r with | .ok (.mem j, use) => j == k && p use | _ => false

theorem isMemWith_iff {r : Except Nat (Place × Option (TlbEntry × Source))} {k : Nat} {p : Option (TlbEntry × Source) → Bool} (h : isMemWith r k p = true) :
    ∃ use, r = .ok (.mem k, use) ∧ p use = true := by
  unfold isMemWith at h
  split at h
  · simp only [Bool.and_eq_true, beq_iff_eq] at h
    exact ⟨_, by rw [h.1], h.2⟩
  · cases h

/-- The same, while an invalidation holds the TLB of die 0. -/
def tlbKept (s : State) : State := updDie s 0 (fun x => { x with tlbHeld := [1] })

theorem isQueue_iff {r : Except Nat (Place × Option (TlbEntry × Source))} {q off : Nat} (h : isQueue r q off = true) : ∃ use, r = .ok (.queueReg q off, use) := by
  unfold isQueue at h
  split at h
  · simp only [Bool.and_eq_true, beq_iff_eq] at h
    exact ⟨_, by rw [h.1, h.2]⟩
  · cases h

theorem isFault_iff {α : Type} {r : Except Nat α} {f : Nat} (h : isFault r f = true) : r = .error f := by
  unfold isFault at h
  split at h
  · rw [eq_of_beq h]
  · cases h

/-! ## Hypotheses that can be met: scalar words -/

theorem witness_ScalarArithmetic :
    (∃ i s d v, s.cur.convoy = [] ∧ scalarResult s i = some (d, v)) ∧ (∃ s : State, s.cur.convoy = []) :=
  ⟨⟨.add 1 2 3, onD, 3, _, rfl, rfl⟩, ⟨onD, rfl⟩⟩

theorem witness_JumpsAndBranches :
    (∃ i s d target, s.cur.convoy = [] ∧ jumpOf s i = some (d, target, True) ∧ target.toNat % 4 = 0) ∧
    (∃ i s d target goes, s.cur.convoy = [] ∧ jumpOf s i = some (d, target, goes) ∧ ¬goes) ∧
    (∃ i s d target, s.cur.convoy = [] ∧ jumpOf s i = some (d, target, True) ∧ target.toNat % 4 ≠ 0) :=
  ⟨⟨.jal 4 1, onD, 1, _, rfl, rfl, by decide +kernel⟩, ⟨.bne 0 0 0 8, onD, 0, _, _, rfl, rfl, by decide +kernel⟩, ⟨.jalr 2 0 1, onD, 1, _, rfl, rfl, by decide +kernel⟩⟩

theorem witness_Loads :
    (∃ i s n g imm a d, s.cur.convoy = [] ∧ loadForm i = some (n, g, imm, a, d) ∧ (rx s a + imm.signExtend 64).toNat % n ≠ 0) ∧
    (∃ i s n g imm a d f, s.cur.convoy = [] ∧ loadForm i = some (n, g, imm, a, d) ∧ (rx s a + imm.signExtend 64).toNat % n = 0 ∧ f ≠ 27 ∧ f ≠ heldCode ∧
      scalarPlace s (who s) .load (rx s a + imm.signExtend 64).toNat = .error f) ∧
    (∃ i s n g imm a d, s.cur.convoy = [] ∧ loadForm i = some (n, g, imm, a, d) ∧ (rx s a + imm.signExtend 64).toNat % n = 0 ∧
      scalarPlace s (who s) .load (rx s a + imm.signExtend 64).toNat = .error heldCode) ∧
    (∃ i s n g imm a d k, s.cur.convoy = [] ∧ loadForm i = some (n, g, imm, a, d) ∧ (rx s a + imm.signExtend 64).toNat % n = 0 ∧
      scoreboardStalls s k n false = false ∧ hasError k n s = false ∧ ∃ use, scalarPlace s (who s) .load (rx s a + imm.signExtend 64).toNat = .ok (.mem k, use)) ∧
    (∃ i s n g imm a d q off, s.cur.convoy = [] ∧ loadForm i = some (n, g, imm, a, d) ∧ (rx s a + imm.signExtend 64).toNat % n = 0 ∧
      ∃ use, scalarPlace s (who s) .load (rx s a + imm.signExtend 64).toNat = .ok (.queueReg q off, use)) :=
  ⟨⟨.lw 1 0 5, onD, 4, true, 1, 0, 5, rfl, rfl, by decide +kernel⟩,
   ⟨.ld 0 1 5, withX 1 0x10000 onD, 8, true, 0, 1, 5, 26, rfl, rfl, by decide +kernel, by decide, by decide, isFault_iff (by decide +kernel)⟩,
   ⟨.ld 0 0 5, tlbKept onD, 8, true, 0, 0, 5, rfl, rfl, by decide +kernel, isFault_iff (by decide +kernel)⟩,
   ⟨.lbu 4 0 5, onD, 1, false, 4, 0, 5, 0x30004, rfl, rfl, by decide +kernel, by decide +kernel, by decide +kernel, isMem_iff (by decide +kernel)⟩,
   ⟨.ld 0 1 5, withX 1 (BitVec.ofNat 64 (0xFFFFFF03 * 2 ^ 32 + 0x101000)) (updQueue onD 1 (fun q => { q with part := some 0 })), 8, true, 0, 1, 5, 1, 0, rfl, rfl, by decide +kernel, isQueue_iff (by decide +kernel)⟩⟩

theorem witness_OwnWritesSeen :
    (∃ (s : State) (r : Reader), ∀ e ∈ s.cur.stale, missable r e = false) ∧ (∃ j n : Nat, j < n) :=
  ⟨⟨onD, .scalar, by decide +kernel⟩, ⟨0, 1, by decide⟩⟩

theorem witness_Stores :
    (∃ i s n h b a l, s.cur.convoy = [] ∧ storeForm i = some (n, h, b, a, l) ∧ (rx s a + (h ++ l : BitVec 12).signExtend 64).toNat % n ≠ 0) ∧
    (∃ i s n h b a l f, s.cur.convoy = [] ∧ storeForm i = some (n, h, b, a, l) ∧ (rx s a + (h ++ l : BitVec 12).signExtend 64).toNat % n = 0 ∧ f ≠ 27 ∧ f ≠ heldCode ∧
      scalarPlace s (who s) .store (rx s a + (h ++ l : BitVec 12).signExtend 64).toNat = .error f) ∧
    (∃ i s n h b a l, s.cur.convoy = [] ∧ storeForm i = some (n, h, b, a, l) ∧ (rx s a + (h ++ l : BitVec 12).signExtend 64).toNat % n = 0 ∧
      scalarPlace s (who s) .store (rx s a + (h ++ l : BitVec 12).signExtend 64).toNat = .error heldCode) ∧
    (∃ i s n h b a l k, s.cur.convoy = [] ∧ storeForm i = some (n, h, b, a, l) ∧ (rx s a + (h ++ l : BitVec 12).signExtend 64).toNat % n = 0 ∧ Memory.wf s.mem = true ∧ s.cur.release = none ∧
      scoreboardStalls s k n true = false ∧ partialOnError k n s = false ∧ ∃ use, scalarPlace s (who s) .store (rx s a + (h ++ l : BitVec 12).signExtend 64).toNat = .ok (.mem k, use)) ∧
    (∃ i s n h b a l q off, s.cur.convoy = [] ∧ storeForm i = some (n, h, b, a, l) ∧ (rx s a + (h ++ l : BitVec 12).signExtend 64).toNat % n = 0 ∧ s.cur.release = none ∧
      ∃ use, scalarPlace s (who s) .store (rx s a + (h ++ l : BitVec 12).signExtend 64).toNat = .ok (.queueReg q off, use)) :=
  ⟨⟨.sh 0 5 0 1, onD, 2, 0, 5, 0, 1, rfl, rfl, by decide +kernel⟩,
   ⟨.sd 0 5 1 0, withX 1 0x10000 onD, 8, 0, 5, 1, 0, 26, rfl, rfl, by decide +kernel, by decide, by decide, isFault_iff (by decide +kernel)⟩,
   ⟨.sd 0 5 0 8, tlbKept onD, 8, 0, 5, 0, 8, rfl, rfl, by decide +kernel, isFault_iff (by decide +kernel)⟩,
   ⟨.sw 0 5 0 8, onD, 4, 0, 5, 0, 8, 0x30008, rfl, rfl, by decide +kernel, by decide +kernel, rfl, by decide +kernel, by decide +kernel, isMem_iff (by decide +kernel)⟩,
   ⟨.sd 0 5 1 0, withX 1 (BitVec.ofNat 64 (0xFFFFFF03 * 2 ^ 32 + 0x101000)) (updQueue onD 1 (fun q => { q with part := some 0 })), 8, 0, 5, 1, 0, 1, 0, rfl, rfl, by decide +kernel, rfl, isQueue_iff (by decide +kernel)⟩⟩

theorem witness_Atomics :
    (∃ i s q r w b a d f, s.cur.convoy = [] ∧ amoForm i = some (q, r, w, b, a, d, f) ∧ (rx s a).toNat % (if w = 1 then 8 else 4) ≠ 0) ∧
    (∃ i s q r w b a d f e, s.cur.convoy = [] ∧ amoForm i = some (q, r, w, b, a, d, f) ∧ (rx s a).toNat % (if w = 1 then 8 else 4) = 0 ∧ e ≠ 27 ∧ e ≠ heldCode ∧
      scalarPlace s (who s) .atomic (rx s a).toNat = .error e) ∧
    (∃ i s q r w b a d f, s.cur.convoy = [] ∧ amoForm i = some (q, r, w, b, a, d, f) ∧ (rx s a).toNat % (if w = 1 then 8 else 4) = 0 ∧ scalarPlace s (who s) .atomic (rx s a).toNat = .error heldCode) ∧
    (∃ i s u q r w b a d f k, s.cur.convoy = [] ∧ amoForm i = some (q, r, w, b, a, d, f) ∧ (rx s a).toNat % (if w = 1 then 8 else 4) = 0 ∧ s.cur.release = none ∧
      scoreboardStalls s k (if w = 1 then 8 else 4) true = false ∧ atomicStart r s = some u ∧ hasError k (if w = 1 then 8 else 4) u = false ∧
      ∃ use, scalarPlace s (who s) .atomic (rx s a).toNat = .ok (.mem k, use) ∧ Memory.wf (atHome k use u).mem = true) :=
  ⟨⟨.amoadd 0 0 2 1 1 3, withX 1 4 onD, 0, 0, 1, 2, 1, 3, _, rfl, rfl, by decide +kernel⟩,
   ⟨.amoadd 0 0 2 1 1 3, withX 1 0x10000 onD, 0, 0, 1, 2, 1, 3, _, 26, rfl, rfl, by decide +kernel, by decide, by decide, isFault_iff (by decide +kernel)⟩,
   ⟨.amoadd 0 0 2 1 1 3, tlbKept onD, 0, 0, 1, 2, 1, 3, _, rfl, rfl, by decide +kernel, isFault_iff (by decide +kernel)⟩,
   ⟨.amoswap 0 0 2 1 0 3, withX 1 4 onD, _, 0, 0, 0, 2, 1, 3, _, 0x30004, rfl, rfl, by decide +kernel, rfl, by decide +kernel, rfl, by decide +kernel, isMemWith_iff (by decide +kernel)⟩⟩

theorem witness_LoadReservedStoreConditional :
    let meets (s u : State) (r w : BitVec 1) (a : BitVec 5) (k : Nat) (f : State → Bool) : Prop :=
      s.cur.convoy = [] ∧ (rx s a).toNat % (if w = 1 then 8 else 4) = 0 ∧ scoreboardStalls s k (if w = 1 then 8 else 4) true = false ∧
        atomicStart r s = some u ∧ hasError k (if w = 1 then 8 else 4) u = false ∧ s.cur.release = none ∧
        ∃ use, scalarPlace s (who s) .atomic (rx s a).toNat = .ok (.mem k, use) ∧ (Memory.wf (atHome k use u).mem && f (atHome k use u)) = true
    (∃ s u r w a k, meets s u r w a k (fun v => v.cur.resv == some (k / 64) && !isDue v (.lrReservationExpiry v.curKey))) ∧
    (∃ s u r w a k, meets s u r w a k (fun v => v.cur.resv != some (k / 64))) ∧
    (∃ s u r w a k, meets s u r w a k (fun v => v.cur.resv == some (k / 64) && isDue v (.lrReservationExpiry v.curKey))) :=
  let reserved : State := inCtx (fun c => { c with resv := some (0x30040 / 64) }) (withX 1 0x40 onD)
  ⟨⟨reserved, _, 0, 1, 1, 0x30040, rfl, by decide +kernel, by decide +kernel, rfl, by decide +kernel, rfl, isMemWith_iff (by decide +kernel)⟩,
   ⟨withX 1 0x40 onD, _, 0, 1, 1, 0x30040, rfl, by decide +kernel, by decide +kernel, rfl, by decide +kernel, rfl, isMemWith_iff (by decide +kernel)⟩,
   ⟨post (.lrReservationExpiry 0) reserved, _, 0, 1, 1, 0x30040, rfl, by decide +kernel, by decide +kernel, rfl, by decide +kernel, rfl, isMemWith_iff (by decide +kernel)⟩⟩

theorem witness_CsrWords :
    (∃ i s n d writes new w, s.cur.convoy = [] ∧ csrForm s i = some (n, d, writes, new) ∧ encode i = some w ∧ csrOfDCore n ∧ isDCore s.core = false) ∧
    (∃ i s n d writes new w, s.cur.convoy = [] ∧ csrForm s i = some (n, d, writes, new) ∧ encode i = some w ∧ ¬(csrOfDCore n ∧ isDCore s.core = false) ∧ ¬csrAllowed s.cur.priv writes n) ∧
    (∃ i s n d writes new w, s.cur.convoy = [] ∧ csrForm s i = some (n, d, writes, new) ∧ encode i = some w ∧ ¬(csrOfDCore n ∧ isDCore s.core = false) ∧ csrAllowed s.cur.priv writes n) :=
  ⟨⟨.csrrs 0x810 0 5, onS, 0x810, 5, false, _, _, rfl, rfl, rfl, .inl ⟨by decide, by decide⟩, by decide +kernel⟩,
   ⟨.csrrw 0x100 1 5, onD, 0x100, 5, true, _, _, rfl, rfl, rfl, fun h => absurd h.2 (by decide +kernel), by unfold csrAllowed; decide +kernel⟩,
   ⟨.csrrwi 0x802 2 5, onD, 0x802, 5, true, _, _, rfl, rfl, rfl, fun h => absurd h.2 (by decide +kernel), by unfold csrAllowed; decide +kernel⟩⟩

theorem witness_CsrFields : ∃ (s : State) (k : Claim), visibleClaim s = some k ∧ k.count = 0 :=
  let c : Claim := { part := 0, region := 0, log2 := 12, wide := false, seed := 0, spill := 0, head := 0, count := 0 }
  ⟨updCore onD 0 (fun k => { k with claim := some c }), c, by decide +kernel, by decide +kernel⟩

theorem witness_MshapeFields : ∃ n : Nat, 0x810 ≤ n ∧ n ≤ 0x817 := ⟨0x813, by decide⟩

theorem witness_SupervisorWords :
    (∃ i s w, s.cur.convoy = [] ∧ encode i = some w ∧ supervisorForm s s i ≠ none ∧ s.cur.priv = .s) ∧
    (∃ i s w, s.cur.convoy = [] ∧ encode i = some w ∧ supervisorForm s s i ≠ none ∧ s.cur.priv = .u) :=
  ⟨⟨.sret, inS onD, _, rfl, rfl, by simp [supervisorForm], rfl⟩, ⟨.tlbdrop 2 1, onD, _, rfl, rfl, by simp [supervisorForm], rfl⟩⟩

theorem witness_Calls : (∃ s : State, s.cur.convoy = [] ∧ s.cur.priv = .u) ∧ (∃ s : State, s.cur.convoy = [] ∧ s.cur.priv = .s) :=
  ⟨⟨onD, rfl, rfl⟩, ⟨inS onD, rfl, rfl⟩⟩

/-- An own write that every kind of access may still miss. -/
def oldWrite : Stale := { born := 0, key := 0x30000, addr := 0, old := [some 1], byVector := true, toScalar := true, toVector := true, toFetch := true, yields := true, fresh := false }

/-- A tile store of the task on slot 0 to memory. -/
def tileStore : EngineOp :=
  { num := 1, key := 0, priv := .u, thread := 0, node := 0, part := 0, region := 0, object := 0, stale := [], failed := none,
    kind := .tile true 0 [0] [{ row := 0, addr := 0x4000, key := 0x34000, off := 0, len := 64, data := List.replicate 64 7, fill := 0 }] none }

theorem witness_Fences :
    (∃ s : State, s.cur.convoy = [] ∧ s.cur.release = none) ∧
    (∃ (s : State) (e : Stale) (a b : BitVec 5), e ∈ s.cur.stale ∧ (roundOut (rx s a) (rx s b)).1 ≤ e.addr ∧ e.addr + e.old.length ≤ (roundOut (rx s a) (rx s b)).1 + (roundOut (rx s a) (rx s b)).2) ∧
    (∃ e : Stale, e.byVector = false ∧ inScope (scopeOf 2) 0 e.key = true) ∧ (∃ e : Stale, e.byVector = true ∧ inScope (scopeOf 2) 0 e.key = true) ∧
    (∃ s : State, s.cur.convoy = [] ∧ storesTile (scopeOf 2) s = false) ∧ (∃ s : State, s.cur.convoy = [] ∧ storesTile (scopeOf 2) s = true) ∧
    (∃ s : State, (∀ p ∈ s.pending, ∀ j ∈ p.issuers, j.thread ≠ threadOf s.cur) ∧ ∀ k ∈ s.tokens, k.issuer.thread ≠ threadOf s.cur) :=
  ⟨⟨onD, rfl, rfl⟩, ⟨withX 2 1 (inCtx (fun c => { c with stale := [oldWrite] }) onD), oldWrite, 1, 2, by decide +kernel, by decide +kernel, by decide +kernel⟩,
   ⟨{ oldWrite with byVector := false }, rfl, by decide +kernel⟩, ⟨oldWrite, rfl, by decide +kernel⟩, ⟨onD, rfl, by decide +kernel⟩,
   ⟨{ onD with engines := [tileStore] }, rfl, by decide +kernel⟩, ⟨onD, by decide +kernel, by decide +kernel⟩⟩

theorem witness_Grants :
    (∃ (s : State) (ty : BitVec 5), s.cur.convoy = [] ∧ 1 ≤ ty.toNat ∧ ty.toNat ≤ 14 ∧ s.cur.vtype = 0 ∧ s.cur.validMode = false) ∧
    (∃ (s : State) (ty : BitVec 5), s.cur.convoy = [] ∧ 1 ≤ ty.toNat ∧ ty.toNat ≤ 14 ∧ ¬(s.cur.vtype = 0 ∧ s.cur.validMode = false)) :=
  ⟨⟨onD, 14, rfl, by decide, by decide, rfl, rfl⟩, ⟨inCtx (fun c => { c with vtype := 9 }) onD, 1, rfl, by decide, by decide, by decide +kernel⟩⟩

theorem witness_StripMining :
    (∃ (s : State) (o : BitVec 12) (k : BitVec 4) (n : BitVec 5) (w : Word32), s.cur.convoy = [] ∧ (Instr.vsmine o k n).wf = true ∧ encode (.vsmine o k n) = some w ∧ s.cur.vtype = 0) ∧
    (∃ (s : State) (o : BitVec 12) (k : BitVec 4) (n : BitVec 5) (w : Word32), s.cur.convoy = [] ∧ (Instr.vsmine o k n).wf = true ∧ encode (.vsmine o k n) = some w ∧ s.cur.vtype ≠ 0) :=
  ⟨⟨onD, 0xFFF, 4, 15, _, rfl, by decide, rfl, rfl⟩, ⟨inCtx (fun c => { c with vtype := 9 }) onD, 0xFFF, 7, 15, _, rfl, by decide, rfl, by decide +kernel⟩⟩

/-- A segment in use by context 0. -/
def seg (n : Nat) : Seg := { num := n, tag := 0, count := 1, data := List.replicate 256 0, badData := false, badEntry := false }

theorem witness_Queries :
    let slot (s : State) (a : BitVec 5) : Ctx := ctxAt s (s.core * 4 + (rx s a).toNat)
    let known (s : State) (a : BitVec 5) : Prop := s.cur.convoy = [] ∧ (rx s a).toNat ≤ 3 ∧ (slot s a).pres < 256 ∧ (∀ r ∈ s.regions, r.eff.prio < 8) ∧ ∀ l, (coreAt s s.core).lsplit = some l → l < 4
    (∃ (s : State) (a : BitVec 5), s.cur.convoy = [] ∧ (rx s a).toNat ≤ 4095 ∧ (coreAt s s.core).lost.contains (rx s a).toNat = true) ∧
    (∃ (s : State) (a : BitVec 5), s.cur.convoy = [] ∧ 4095 < (rx s a).toNat) ∧
    (∃ (s : State) (a : BitVec 5), s.cur.convoy = [] ∧ (rx s a).toNat ≤ 4095 ∧ (coreAt s s.core).lost = [] ∧ (coreAt s s.core).segs = [] ∧ (coreAt s s.core).used.contains (rx s a).toNat = false) ∧
    (∃ (s : State) (a : BitVec 5) (x : Nat × Seg), s.cur.convoy = [] ∧ (coreAt s s.core).segs.find? (fun x => x.2.num == (rx s a).toNat) = some x ∧ (rx s a).toNat ≤ 4095 ∧ x.2.count < 256 ∧
      (coreAt s s.core).lost = [] ∧ ∀ y ∈ (coreAt s s.core).segs, y.2.badEntry = false) ∧
    (∃ (s : State) (a : BitVec 5), s.cur.convoy = [] ∧ 3 < (rx s a).toNat) ∧
    (∃ s a, known s a ∧ (slot s a).state = .running) ∧ (∃ s a, known s a ∧ (slot s a).state = .free ∧ (slot s a).task = none) :=
  ⟨⟨updCore (withX 1 7 onD) 0 (fun k => { k with lost := [7] }), 1, rfl, by decide +kernel, by decide +kernel⟩, ⟨withX 1 4096 onD, 1, rfl, by decide +kernel⟩,
   ⟨withX 1 7 onD, 1, rfl, by decide +kernel, rfl, rfl, by decide +kernel⟩,
   ⟨updCore (withX 1 7 onD) 0 (fun k => { k with segs := [(0, seg 7)] }), 1, (0, seg 7), rfl, rfl, by decide +kernel, by decide +kernel, rfl, by decide +kernel⟩,
   ⟨withX 1 4 onD, 1, rfl, by decide +kernel⟩,
   ⟨onD, 0, ⟨rfl, by decide +kernel, by decide +kernel, by decide +kernel, fun _ h => (by cases h)⟩, rfl⟩,
   ⟨withX 1 3 onD, 1, ⟨rfl, by decide +kernel, by decide +kernel, by decide +kernel, fun _ h => (by cases h)⟩, rfl, rfl⟩⟩

/-- `vadd v1, v1, v1` with a further word of its convoy to come. -/
def vaddWord : Word32 := 0x0610808B

theorem test_vaddWord : decode vaddWord = .ok (.vaddVv 1 1 1 1 1) := rfl

def member : Member := memberOf onD vaddWord (.arith .add .vv)

/-- A convoy with n words is open. -/
def opened (n : Nat) (s : State) : State := inCtx (fun c => { c with convoy := List.replicate n member, convoyPc := 0x1000, vtype := 9, vl := 4 }) s

theorem witness_BrokenConvoys :
    (∃ (i : Instr) (w : Word32) (s : State) (ms : List Member) (m : Member), encode i = some w ∧ s.cur.convoy = ms ++ [m] ∧ w.extractLsb' 0 7 ≠ 0x0B ∧ w.extractLsb' 0 7 ≠ 0x2B) ∧
    (∃ (i : Instr) (w : Word32) (s : State) (ms : List Member) (m : Member), encode i = some w ∧ s.cur.convoy = ms ++ [m] ∧ 3 ≤ ms.length) :=
  ⟨⟨.ecall, _, opened 1 onD, [], member, rfl, rfl, by decide, by decide⟩, ⟨.vaddVv 0 1 1 1 1, _, opened 4 onD, List.replicate 3 member, member, rfl, rfl, by decide⟩⟩

theorem witness_IllegalEncodings :
    (∃ (w : Word32) (s : State), s.cur.convoy = [] ∧ w.extractLsb' 0 7 = 0x5B ∧ isDCore s.core = false) ∧
    (∃ (w : Word32) (s : State), s.cur.convoy = [] ∧ w.extractLsb' 0 7 = 0x0B ∧ w.extractLsb' 27 5 = 30 ∧ isDCore s.core = true) ∧
    (∃ (w : Word32) (s : State) (ms : List Member) (m : Member), s.cur.convoy = ms ++ [m] ∧ w.extractLsb' 0 7 ≠ 0x0B ∧ w.extractLsb' 0 7 ≠ 0x2B) ∧
    (∃ (w : Word32) (s : State) (ms : List Member) (m : Member), s.cur.convoy = ms ++ [m] ∧ w.extractLsb' 0 7 = 0x2B ∧ ms.length < 3) :=
  ⟨⟨0x5B, onS, rfl, by decide, by decide +kernel⟩, ⟨0xF000000B, onD, rfl, by decide, by decide, by decide +kernel⟩, ⟨0, opened 1 onD, [], member, rfl, by decide, by decide⟩,
   ⟨0xF800002B, opened 1 onD, [], member, rfl, by decide, by decide⟩⟩

/-! ## Hypotheses that can be met: vector words -/

/-- The word of an instruction. -/
def wordOf (i : Instr) : Word32 := (encode i).getD 0

theorem some_of_isSome {α : Type} {o : Option α} (h : o.isSome = true) : ∃ u, o = some u := Option.isSome_iff_exists.mp h

/-- A chain of n bytes in one segment. -/
def chainIn (g n : Nat) (t : BitVec 4) : Chain := { valid := true, type := t, pieces := [{ seg := g, first := 0, count := n }] }

/-- Elements of type t in v1, v2 and v3, n bytes each, of segments 0, 1 and 2, four of them granted, accesses to the scratchpad. -/
def inVec (t : BitVec 4) (n : Nat) (s : State) : State :=
  let s := updCore s s.core (fun k => { k with segs := [(0, seg 0), (1, seg 1), (2, seg 2)], nextSeg := 3 })
  inCtx (fun c => { c with vtype := t, vl := 4, vmt := 2, v := ((c.v.set 1 (chainIn 0 n t)).set 2 (chainIn 1 n t)).set 3 (chainIn 2 n t) }) s

/-- `Alone`, as a yes or no. -/
def isAlone (s : State) (w : Word32) (op : VOp) : Bool :=
  s.cur.convoy.isEmpty && !w.getLsbD 26 && decide (s.cur.vstart < s.cur.vl) && (decodeTrap (memberOf s w op) s).isNone && (coreAt s s.core).segs.all (fun x => !x.2.badData && !x.2.badEntry) && (stopPoint s).isNone

theorem alone {s : State} {w : Word32} {op : VOp} (h : isAlone s w op = true) : Alone s w op := by
  simp only [isAlone, Bool.and_eq_true, List.isEmpty_iff, Bool.not_eq_true', decide_eq_true_eq, Option.isNone_iff_eq_none, List.all_eq_true] at h
  exact ⟨h.1.1.1.1.1, h.1.1.1.1.2, h.1.1.1.2, h.1.1.2, h.1.2, h.2⟩

/-- The same with the third segment all of one byte. -/
def inVecWith (b : Byte) (t : BitVec 4) (n : Nat) (s : State) : State :=
  updCore (inVec t n s) s.core (fun k => { k with segs := [(0, seg 0), (1, seg 1), (2, { seg 2 with data := List.replicate 256 b })] })

/-- No segment of the core is left for the context: another has reserved the rest. -/
def poolGone (s : State) : State := { s with parked := [(s.curKey + 1, { Ctx.reset with pres := 4093 })] }

theorem witness_ElementwiseWords :
    ∃ i s w op, encode i = some w ∧ vectorOp i = some op ∧ writesChain s.cur.vtype op ∧ Alone s w op ∧
      (let t := s.cur.vtype
       let m := memberOf s w op
       let rt := resultType t op
       let r := mapLanes (laneVal t s.cur.frm op m.a (fun e => (predAt s.cur 0).getLsbD e)) (lanesOf s t rt m)
       let total := bytesOfElems rt s.cur.vl
       ceilDiv total 256 ≤ allocatable s s.curKey ∧
       (writeResult s.curKey m.d rt total (bytesOfElems rt s.cur.vstart) (bytesOfList rt (padNibble s) (earlier s rt m ++ r.1)) (raiseAll (withShort r.2 (shortOf s t m)) (running s w op))).isSome = true) :=
  ⟨.vaddVv 0 1 1 2 4, inVec 5 16 onD, wordOf (.vaddVv 0 1 1 2 4), .arith .add .vv, rfl, rfl, trivial, alone (by decide +kernel), by decide +kernel⟩

theorem witness_ComparesAndPredicates :
    (∃ i s w o variant neg, encode i = some w ∧ vectorOp i = some (.cmp o variant neg) ∧ Alone s w (.cmp o variant neg)) ∧
    (∃ i s w o, encode i = some w ∧ vectorOp i = some (.pred o) ∧ Alone s w (.pred o)) :=
  ⟨⟨.vcltu 0 0 1 2 3, inVec 5 16 onD, wordOf (.vcltu 0 0 1 2 3), _, _, _, rfl, rfl, alone (by decide +kernel)⟩,
   ⟨.pnot 0 1 2, inVec 5 16 onD, wordOf (.pnot 0 1 2), _, rfl, rfl, alone (by decide +kernel)⟩⟩

theorem witness_ConversionsToE2m1 :
    ∃ i s w sat, encode i = some w ∧ vectorOp i = some (.cvt 14 sat) ∧ s.cur.vstart = 0 ∧ Alone s w (.cvt 14 sat) ∧
      (let t := s.cur.vtype
       let m := memberOf s w (.cvt 14 sat)
       let lanes := lanesOf s t 14 m
       let codes := mapLanes (codeTo4 t s.cur.frm sat) lanes
       let blocks := ceilDiv s.cur.vl 32
       let records := blockRecords t s.cur.frm sat blocks lanes (chainBytes (coreAt s s.core) (vreg s.cur (m.d + 1)))
       let total := bytesOfElems 14 s.cur.vl
       ceilDiv total 256 + ceilDiv (2 * blocks) 256 ≤ allocatable s s.curKey ∧
       ((writeResult s.curKey m.d 14 total 0 (bytesOfList 14 (padNibble s) codes.1) (raiseAll (withShort (codes.2.or records.2) (shortOf s t m)) (running s w (.cvt 14 sat)))).bind
         (fun u => writeResult s.curKey (m.d + 1) 2 (2 * blocks) 0 records.1 u)).isSome = true) :=
  ⟨.vcvt 0 1 14 1 4, inVec 9 16 onD, wordOf (.vcvt 0 1 14 1 4), false, rfl, rfl, rfl, alone (by decide +kernel), by decide +kernel⟩

theorem witness_ConversionsFromE2m1 :
    (∃ i s w target sat, s.cur.vtype = 14 ∧ target ≠ 14 ∧ encode i = some w ∧ vectorOp i = some (.cvt target sat) ∧ s.cur.vstart = 0 ∧ Alone s w (.cvt target sat) ∧
      (let m := memberOf s w (.cvt target sat)
       let records := chainBytes (coreAt s s.core) (vreg s.cur (m.a + 1))
       let lanes := lanesOf s 14 target m
       let r := mapLanes (fun l => convertFrom4 target s.cur.frm sat (records.getD (l.i / 32 * 2 + 1) 0).toNat l.a) lanes
       let total := bytesOfElems target s.cur.vl
       (∀ e < s.cur.vl, laneActive s m e = true → badRecord records e = none) ∧ ceilDiv total 256 ≤ allocatable s s.curKey ∧
       (writeResult s.curKey m.d target total 0 (bytesOfList target (padNibble s) r.1) (raiseAll r.2 (running s w (.cvt target sat)))).isSome = true)) ∧
    (∃ i s w target sat off, s.cur.vtype = 14 ∧ target ≠ 14 ∧ encode i = some w ∧ vectorOp i = some (.cvt target sat) ∧ s.cur.vstart = 0 ∧ Alone s w (.cvt target sat) ∧
      (let m := memberOf s w (.cvt target sat)
       laneActive s m 0 = true ∧ badRecord (chainBytes (coreAt s s.core) (vreg s.cur (m.a + 1))) 0 = some off)) :=
  ⟨⟨.vcvt 0 1 9 2 4, inVec 14 16 onD, wordOf (.vcvt 0 1 9 2 4), 9, false, rfl, by decide, rfl, rfl, rfl, alone (by decide +kernel), by decide +kernel⟩,
   ⟨.vcvt 0 1 9 2 4, inVecWith 0x7F 14 16 onD, wordOf (.vcvt 0 1 9 2 4), 9, false, 1, rfl, by decide, rfl, rfl, rfl, alone (by decide +kernel), by decide +kernel⟩⟩

/-- A ray whose receive end is the focus's, with a message of v3's bytes at its head. -/
def heldRay : Ray :=
  { part := 0, key := 0, send := none, recv := some { thread := 0, handle := 7, mode := 0, target := 0 }, cursor := 0, granted := 0, arrived := 1, aside := 0,
    queue := [{ type := 5, pieces := [{ seg := 2, first := 0, count := 8 }] }] }

def withRay (s : State) : State := updDie s 0 (fun x => { x with rays := [heldRay] })

theorem witness_RayForms :
    ∃ i s w op d r msg rest, encode i = some w ∧ vectorOp i = some op ∧ isRayForm op = true ∧ s.cur.vstart = 0 ∧ Alone s w op ∧ s.cur.expiredRay = [] ∧
      rayOfRecv s (threadOf s.cur) (memberOf s w op).xa.toNat = some (d, r) ∧ r.queue = msg :: rest ∧
      (let t := s.cur.vtype
       let m := memberOf s w op
       let es := elemsOf t (msg.pieces.map (pieceBytes (coreAt s s.core))).flatten
       let n := min s.cur.vl es.length
       let lanes := (List.range n).map (fun e => { i := e, active := laneActive s m e, a := es.getD e 0, b := chainElem s t m.b e, c := operandC s t m e, old := oldElem s t m.d e : Lane })
       let x := mapLanes (laneVal t s.cur.frm op m.a (fun _ => false)) lanes
       let total := bytesOfElems t n
       ceilDiv total 256 ≤ allocatable s s.curKey ∧ (writeResult s.curKey m.d t total 0 (bytesOfList t (padNibble s) x.1) (raiseAll x.2 (running s w op))).isSome = true) :=
  ⟨.vaddRay 0 1 1 5 4, withRay (withX 5 7 (inVec 5 16 onD)), wordOf (.vaddRay 0 1 1 5 4), .arith .add .ray, 0, heldRay, _, _, rfl, rfl, rfl, rfl,
    alone (by decide +kernel), rfl, by decide +kernel, rfl, by decide +kernel⟩

theorem witness_CrossElementWords :
    (∃ i s w op, encode i = some w ∧ vectorOp i = some op ∧ Alone s w op ∧ ∃ es f short, crossResult s (memberOf s w op) = some (es, f, short) ∧
      (writeResult s.curKey (memberOf s w op).d (resultType s.cur.vtype op) (bytesOfElems (resultType s.cur.vtype op) es.length) 0 (bytesOfList (resultType s.cur.vtype op) (padNibble s) es) (running s w op)).isSome = true) ∧
    (∃ i s w op, encode i = some w ∧ vectorOp i = some op ∧ Alone s w op ∧ ∃ es f short, crossResult s (memberOf s w op) = some (es, f, short) ∧
      (writeResult s.curKey (memberOf s w op).d (resultType s.cur.vtype op) (bytesOfElems (resultType s.cur.vtype op) es.length) 0 (bytesOfList (resultType s.cur.vtype op) (padNibble s) es) (running s w op)).isNone = true) :=
  ⟨⟨.vredsum 1 1 2 4, inVec 5 16 onD, wordOf (.vredsum 1 1 2 4), .red .sum, rfl, rfl, alone (by decide +kernel), _, _, _, rfl, by decide +kernel⟩,
   ⟨.vredsum 1 1 2 4, poolGone (inVec 5 16 onD), wordOf (.vredsum 1 1 2 4), .red .sum, rfl, rfl, alone (by decide +kernel), _, _, _, rfl, by decide +kernel⟩⟩

theorem witness_ScalarAnswers :
    let meets (i : Instr) (s : State) (w : Word32) (op : VOp) : Prop := encode i = some w ∧ vectorOp i = some op ∧ s.cur.convoy = [] ∧ w.getLsbD 26 = false ∧ decodeTrap (memberOf s w op) s = none ∧
      ∃ r v, scalarAnswer s (memberOf s w op) = some (r, v)
    (∃ i s w op, meets i s w op ∧ op ≠ .mvToX ∧ s.cur.vl = 0) ∧
    (∃ i s w op, meets i s w op ∧ op = .mvToX ∧ s.cur.vstart < s.cur.vl ∧ stopPoint s = none ∧ badElem (regOf (coreAt s s.core) (vreg s.cur (memberOf s w op).a)) (typeBits s.cur.vtype) 0 = none) :=
  ⟨⟨.vlen 1 5, inCtx (fun c => { c with vl := 0 }) (inVec 5 16 onD), wordOf (.vlen 1 5), .len, ⟨rfl, rfl, rfl, by decide, by decide +kernel, 5, _, rfl⟩, by decide, rfl⟩,
   ⟨.vmvX 1 5, inVec 5 16 onD, wordOf (.vmvX 1 5), .mvToX, ⟨rfl, rfl, rfl, by decide, by decide +kernel, 5, _, rfl⟩, rfl, by decide +kernel, by decide +kernel, by decide +kernel⟩⟩

theorem witness_NothingToProcess :
    let meets (i : Instr) (s : State) (w : Word32) (op : VOp) : Prop := encode i = some w ∧ vectorOp i = some op ∧ s.cur.convoy = [] ∧ w.getLsbD 26 = false ∧ decodeTrap (memberOf s w op) s = none ∧ s.cur.vl ≤ s.cur.vstart
    (∃ i s w op, meets i s w op ∧ s.cur.vl = 0 ∧ op ≠ .fclaim ∧ op ≠ .frel ∧ scalarAnswer s (memberOf s w op) = none) ∧ (∃ i s w op, meets i s w op ∧ s.cur.vl ≠ 0) :=
  ⟨⟨.vaddVv 0 1 1 2 4, inCtx (fun c => { c with vl := 0 }) (inVec 5 16 onD), wordOf (.vaddVv 0 1 1 2 4), .arith .add .vv, ⟨rfl, rfl, rfl, by decide, by decide +kernel, by decide +kernel⟩, rfl, by decide, by decide, rfl⟩,
   ⟨.vlen 1 5, inCtx (fun c => { c with vstart := 4 }) (inVec 5 16 onD), wordOf (.vlen 1 5), .len, ⟨rfl, rfl, rfl, by decide, by decide +kernel, by decide +kernel⟩, by decide +kernel⟩⟩

theorem witness_LaneValues :
    ∃ (t : BitVec 4) (op : VOp) (imm : Nat) (sel : Nat → Bool) (l : Lane) (v : Nat) (sat : Bool), acceptsType op t = true ∧ imm < 32 ∧ l.a < 2 ^ typeBits t ∧ l.b < 2 ^ typeBits t ∧ plainLane t op imm sel l = some (v, sat) :=
  ⟨1, .arith .sadd .vv, 0, fun _ => false, { i := 0, active := true, a := 100, b := 100, c := 0, old := 0 }, 127, true, rfl, by decide, by decide, by decide, by decide⟩

/-- A committed award for slot 0, its save frame at the second GiB, whose stop is bounded. -/
def pressed (s : State) : State :=
  let a : Award := { locus := 0, entry := 0, committed := true, slot := 0, frame := some 0x40000000, swap := false, resume := none, node := 0, tseq := 0, part := 0, region := 0,
                     rsv := 0, stack := none }
  startTimer 0 true 2048 (.preemptionStopTimeout 0) (updCore s 0 (fun k => { k with awards := [a] }))

theorem witness_StopsInConvoy :
    ∃ i s w op f, encode i = some w ∧ vectorOp i = some op ∧ w.getLsbD 26 = false ∧ s.cur.convoy = [] ∧ crossElement op = true ∧ keepsStart op = false ∧ op ≠ .st .indexed ∧
      decodeTrap (memberOf s w op) s = none ∧ s.cur.vstart < s.cur.vl ∧ pressing s = some f :=
  ⟨.vredsum 1 1 2 4, pressed (inVec 5 16 onD), wordOf (.vredsum 1 1 2 4), .red .sum, 0x40000000, rfl, rfl, by decide, rfl, rfl, rfl, by decide, by decide +kernel, by decide +kernel, by decide +kernel⟩

theorem witness_ConvoyEntry :
    (∃ i s w op code tval, encode i = some w ∧ vectorOp i = some op ∧ s.cur.convoy.length < 4 ∧ decodeChecks s (memberOf s w op) code tval) ∧
    (∃ i s w op, encode i = some w ∧ vectorOp i = some op ∧ s.cur.convoy.length < 4 ∧ decodeTrap (memberOf s w op) s = none ∧ w.getLsbD 26 = true ∧ ∀ code tval, ¬decodeChecks s (memberOf s w op) code tval) := by
  refine ⟨⟨.vaddVv 0 1 1 2 4, onD, wordOf (.vaddVv 0 1 1 2 4), .arith .add .vv, 2, _, rfl, rfl, by decide +kernel, .inr (.inl ⟨rfl, rfl, by decide +kernel, .inl (.inl rfl)⟩)⟩,
    ⟨.vaddVv 1 1 1 2 4, inVec 5 16 onD, wordOf (.vaddVv 1 1 1 2 4), .arith .add .vv, rfl, rfl, by decide +kernel, by decide +kernel, by decide +kernel, fun code tval h => ?_⟩⟩
  obtain ⟨_, _, h | ⟨_, h⟩⟩ | ⟨_, _, _, h | ⟨_, h⟩⟩ | ⟨_, _, _, _, _, r, h, _⟩ | ⟨_, _, _, _, _, _, _, h⟩ := h
  · exact absurd h (by decide +kernel)
  · exact absurd h.1 (by decide +kernel)
  · obtain h | h | h | h | ⟨x, h, hx, e, he, _⟩ := h
    · exact absurd h (by decide +kernel)
    · exact absurd h (by decide +kernel)
    · exact absurd h (by decide +kernel)
    · exact absurd h (by decide +kernel)
    · cases he
  · exact absurd h.1 (by decide +kernel)
  · exact absurd h.1 (by decide +kernel)
  · exact absurd h.1 (by decide +kernel)

theorem hit_of {o : Option (Nat × Trap)} {e c : Nat} (h : o.map (fun x => (x.1, x.2.code)) = some (e, c)) : ∃ f, o = some (e, f) ∧ f.code = c := by
  cases o with
  | none => cases h
  | some x => cases h; exact ⟨x.2, rfl, rfl⟩

/-- An access of a pass must wait, as a yes or no. -/
def waitsIn (p : Pass) : Bool := (p.hit.isNone && p.stall) || (match p.hit with | some (_, f) => f.code == heldCode | none => false)

theorem waits_of {p : Pass} (h : waitsIn p = true) : Pass.waits p := by
  unfold waitsIn at h
  rw [Bool.or_eq_true, Bool.and_eq_true] at h
  rcases h with ⟨h, g⟩ | h
  · exact .inl ⟨Option.isNone_iff_eq_none.mp h, g⟩
  · split at h
    · rename_i e f hf
      exact .inr ⟨e, f, hf, eq_of_beq h⟩
    · cases h

/-- Accesses to memory, while an invalidation holds the TLB of the die. -/
def kept (s : State) : State := tlbKept (inCtx (fun c => { c with vmt := 0 }) s)

theorem witness_VectorLoads :
    let fits (s : State) : Prop := ceilDiv (bytesOfElems s.cur.vtype s.cur.vl) 256 ≤ allocatable s s.curKey
    (∃ i s w kind first, encode i = some w ∧ vectorOp i = some (.ld kind first) ∧ Alone s w (.ld kind first) ∧ (loadPass s w (.ld kind first) s.cur.vl).hit = none ∧
      (loadPass s w (.ld kind first) s.cur.vl).stall = false ∧ fits s ∧
      (loadResult s (raiseAll (withShort Flags.none (accessShort s (memberOf s w (.ld kind first)))) (Pass.entered (loadPass s w (.ld kind first) s.cur.vl))) (memberOf s w (.ld kind first)) s.cur.vl (padNibble s)
        (loadPass s w (.ld kind first) s.cur.vl).es).isSome = true) ∧
    (∃ i s w kind first, encode i = some w ∧ vectorOp i = some (.ld kind first) ∧ Alone s w (.ld kind first) ∧ Pass.waits (loadPass s w (.ld kind first) s.cur.vl) ∧ fits s) :=
  ⟨⟨.vldUnit 0 1 5 4, withX 5 64 (inVec 5 16 onD), wordOf (.vldUnit 0 1 5 4), .unit, false, rfl, rfl, alone (by decide +kernel), by decide +kernel, by decide +kernel, by decide +kernel, by decide +kernel⟩,
   ⟨.vldUnit 0 1 5 4, kept (withX 5 64 (inVec 5 16 onD)), wordOf (.vldUnit 0 1 5 4), .unit, false, rfl, rfl, alone (by decide +kernel), waits_of (by decide +kernel), by decide +kernel⟩⟩

theorem witness_FirstFaultLoads :
    ∃ i s w kind e f, encode i = some w ∧ vectorOp i = some (.ld kind true) ∧ Alone s w (.ld kind true) ∧ (loadPass s w (.ld kind true) s.cur.vl).hit = some (e, f) ∧ f.code ≠ heldCode ∧ s.cur.vstart < e ∧ f.code ≠ 27 ∧
      (loadPass s w (.ld kind true) e).stall = false ∧ ceilDiv (bytesOfElems s.cur.vtype e) 256 ≤ allocatable s s.curKey ∧
      (loadResult s (raiseAll (withShort Flags.none (isIndexed (memberOf s w (.ld kind true)).op && decide (chainCount s 6 (memberOf s w (.ld kind true)).b < e))) (Pass.entered (loadPass s w (.ld kind true) e)))
        (memberOf s w (.ld kind true)) e (padNibble s) (loadPass s w (.ld kind true) e).es).isSome = true := by
  obtain ⟨f, h, c⟩ := hit_of (o := (loadPass (withX 5 0x1FFFF8 (inVec 5 16 onD)) (wordOf (.vldffUnit 0 1 5 4)) (.ld .unit true) 4).hit) (e := 2) (c := 26) (by decide +kernel)
  exact ⟨.vldffUnit 0 1 5 4, withX 5 0x1FFFF8 (inVec 5 16 onD), wordOf (.vldffUnit 0 1 5 4), .unit, 2, f, rfl, rfl, alone (by decide +kernel), h, by rw [c]; decide, by decide +kernel, by rw [c]; decide,
    by decide +kernel, by decide +kernel, by decide +kernel⟩

theorem witness_PreciseFaults :
    (∃ i s w kind first f, encode i = some w ∧ vectorOp i = some (.ld kind first) ∧ Alone s w (.ld kind first) ∧ (loadPass s w (.ld kind first) s.cur.vl).hit = some (s.cur.vstart, f) ∧ f.code ≠ 27 ∧ f.code ≠ heldCode) ∧
    (∃ i s w kind e f, encode i = some w ∧ vectorOp i = some (.ld kind false) ∧ Alone s w (.ld kind false) ∧ (loadPass s w (.ld kind false) s.cur.vl).hit = some (e, f) ∧ f.code ≠ 27 ∧ f.code ≠ heldCode ∧ s.cur.vstart < e ∧
      (let m := memberOf s w (.ld kind false)
       let t := s.cur.vtype
       let q := loadPass s w (.ld kind false) e
       let bs := bytesOfList t (oldElem s t m.d e) (earlier s t m ++ q.es)
       let out : Out := { k := 0, first := false, r := m.d, type := t, total := bytesOfElems t s.cur.vl, lo := bytesOfElems t s.cur.vstart, bs := bs, num := 8, den := typeBits t }
       q.stall = false ∧ ceilDiv (bytesOfElems t s.cur.vl) 256 ≤ allocatable s s.curKey ∧ piecesAt (started s w (.ld kind false)) out e ≤ 64 ∧
       (loadResult s (raiseAll (withShort Flags.none (isIndexed m.op && decide (chainCount s 6 m.b < e))) (Pass.entered q)) m s.cur.vl (oldElem s t m.d e) q.es).isSome = true)) := by
  obtain ⟨f, h, c⟩ := hit_of (o := (loadPass (withX 5 0x200000 (inVec 5 16 onD)) (wordOf (.vldUnit 0 1 5 4)) (.ld .unit false) 4).hit) (e := 0) (c := 26) (by decide +kernel)
  obtain ⟨g, h', c'⟩ := hit_of (o := (loadPass (withX 5 0x1FFFF8 (inVec 5 16 onD)) (wordOf (.vldUnit 0 1 5 4)) (.ld .unit false) 4).hit) (e := 2) (c := 26) (by decide +kernel)
  exact ⟨⟨.vldUnit 0 1 5 4, withX 5 0x200000 (inVec 5 16 onD), wordOf (.vldUnit 0 1 5 4), .unit, false, f, rfl, rfl, alone (by decide +kernel), h, by rw [c]; decide, by rw [c]; decide⟩,
    ⟨.vldUnit 0 1 5 4, withX 5 0x1FFFF8 (inVec 5 16 onD), wordOf (.vldUnit 0 1 5 4), .unit, 2, g, rfl, rfl, alone (by decide +kernel), h', by rw [c']; decide, by rw [c']; decide, by decide +kernel, by decide +kernel⟩⟩

theorem witness_VectorStores :
    (∃ i s w, encode i = some w ∧ vectorOp i = some (.st .strided) ∧ Alone s w (.st .strided) ∧ s.cur.release = none ∧ (memberOf s w (.st .strided)).xb = 0) ∧
    (let meets (i : Instr) (s : State) (w : Word32) (kind : AddrKind) (f : Pass → Prop) : Prop := encode i = some w ∧ vectorOp i = some (.st kind) ∧ Alone s w (.st kind) ∧ s.cur.release = none ∧
       (kind = .strided → (memberOf s w (.st kind)).xb ≠ 0) ∧ s.badCells = [] ∧ Memory.wf s.mem = true ∧
       (let m := memberOf s w (.st kind)
        f (storeLanes s.cur.vtype s.cur.vmt.toNat kind m.xa m.xb (accessLanes s m) (started s w (.st kind))))
     (∃ i s w kind, meets i s w kind (fun p => p.hit.isNone = true ∧ p.stall = false)) ∧ ∃ i s w kind, meets i s w kind Pass.waits) :=
  ⟨⟨.vstStrided 0 1 0 5 1, withX 5 64 (inVec 5 16 onD), wordOf (.vstStrided 0 1 0 5 1), rfl, rfl, alone (by decide +kernel), rfl, by decide +kernel⟩,
   ⟨.vstStrided 0 1 6 5 1, withX 6 8 (withX 5 64 (inVec 5 16 onD)), wordOf (.vstStrided 0 1 6 5 1), .strided, rfl, rfl, alone (by decide +kernel), rfl, fun _ => by decide +kernel, rfl, by decide +kernel, by decide +kernel⟩,
   ⟨.vstUnit 0 1 5 1, kept (withX 5 64 (inVec 5 16 onD)), wordOf (.vstUnit 0 1 5 1), .unit, rfl, rfl, alone (by decide +kernel), rfl, (by intro h; cases h), rfl, by decide +kernel, waits_of (by decide +kernel)⟩⟩

theorem witness_StoreWithNotify :
    let meets (i : Instr) (s : State) (w : Word32) (f : Pass → Prop) : Prop := encode i = some w ∧ vectorOp i = some .stn ∧ Alone s w .stn ∧ s.cur.release = none ∧ s.badCells = [] ∧ Memory.wf s.mem = true ∧ s.pending = [] ∧ s.tokens = [] ∧
      (let m := memberOf s w .stn
       f (notifyBlocks s.cur.vtype s.cur.vmt.toNat m.xa m.xb s.cur.vstart s.cur.vl s.cur.vl (s.cur.vl + 1) (accessLanes s m) (started s w .stn)))
    (∃ i s w, meets i s w (fun p => p.hit.isNone = true ∧ p.stall = false) ∧
      (let m := memberOf s w .stn
       0 < (notifySpots s.cur.vtype s.cur.vmt.toNat m.xa m.xb s.cur.vl (s.cur.vl + 1) (accessLanes s m) (started s w .stn)).length)) ∧
    ∃ i s w, meets i s w Pass.waits :=
  ⟨⟨.vstn 0 1 6 5 1, withX 6 0x800 (withX 5 64 (inVec 5 16 onD)), wordOf (.vstn 0 1 6 5 1), ⟨rfl, rfl, alone (by decide +kernel), rfl, rfl, by decide +kernel, rfl, rfl, by decide +kernel⟩, by decide +kernel⟩,
   ⟨.vstn 0 1 6 5 1, kept (withX 6 0x800 (withX 5 64 (inVec 5 16 onD))), wordOf (.vstn 0 1 6 5 1), rfl, rfl, alone (by decide +kernel), rfl, rfl, by decide +kernel, rfl, rfl, waits_of (by decide +kernel)⟩⟩

theorem witness_ReduceStores :
    let meets (i : Instr) (s : State) (w : Word32) (op : CombOp) (indexed : Bool) (f : Pass → List (Nat × Lane) → Prop) : Prop :=
      encode i = some w ∧ vectorOp i = some (.rs op indexed) ∧ Alone s w (.rs op indexed) ∧ s.cur.release = none ∧
      (let m := memberOf s w (.rs op indexed)
       f (reduceAll s.cur.vtype s.cur.vmt.toNat op (addrKind m.op) m.xa (accessLanes s m) (started s w (.rs op indexed)))
         (reduceSpots s.cur.vtype s.cur.vmt.toNat op (addrKind m.op) m.xa (accessLanes s m) (started s w (.rs op indexed))))
    (∃ i s w op indexed, meets i s w op indexed (fun p x => p.hit.isNone = true ∧ p.stall = false ∧ 0 < x.length) ∧ s.cur.vmt.toNat ≤ 1 ∧ s.pending = []) ∧
    (∃ i s w op indexed, meets i s w op indexed (fun p x => p.hit.isNone = true ∧ p.stall = false ∧
        ∀ y ∈ x, x.countP (fun z => decide (z.1 < y.1 + typeSize s.cur.vtype) && decide (y.1 < z.1 + typeSize s.cur.vtype)) = 1) ∧ 2 ≤ s.cur.vmt.toNat ∧ Memory.wf s.mem = true ∧ s.badCells = []) ∧
    (∃ i s w op indexed, meets i s w op indexed (fun p _ => Pass.waits p)) :=
  ⟨⟨.vrsAddUnit 0 1 5 1, inCtx (fun c => { c with vmt := 0 }) (withX 5 0x2000 (inVec 5 16 onD)), wordOf (.vrsAddUnit 0 1 5 1), .add, false, ⟨rfl, rfl, alone (by decide +kernel), rfl, by decide +kernel⟩, by decide +kernel, rfl⟩,
   ⟨.vrsMinUnit 0 1 5 1, withX 5 64 (inVec 5 16 onD), wordOf (.vrsMinUnit 0 1 5 1), .min, false, ⟨rfl, rfl, alone (by decide +kernel), rfl, by decide +kernel⟩, by decide +kernel, by decide +kernel, rfl⟩,
   ⟨.vrsAddUnit 0 1 5 1, kept (withX 5 0x2000 (inVec 5 16 onD)), wordOf (.vrsAddUnit 0 1 5 1), .add, false, rfl, rfl, alone (by decide +kernel), rfl, waits_of (by decide +kernel)⟩⟩

/-- `PoolOk`, as a yes or no. -/
def isPoolOk (s : State) : Bool :=
  let segs := (coreAt s s.core).segs
  decide ((segs.map (·.1)).Pairwise (· < ·)) && segs.all (fun x => decide (x.1 < (coreAt s s.core).nextSeg) && x.2.data.length == 256 && decide (timesNamed s x.1 ≤ x.2.count)) &&
    s.cur.v.toList.all (fun c => c.pieces.all (fun p => segs.any (fun x => x.1 == p.seg && decide (1 ≤ p.count) && decide (p.first + p.count ≤ 256))))

theorem poolOk {s : State} (h : isPoolOk s = true) : PoolOk s := by
  simp only [isPoolOk, Bool.and_eq_true, decide_eq_true_eq, List.all_eq_true, List.any_eq_true, beq_iff_eq] at h
  exact ⟨h.1.1, fun x hx => (h.1.2 x hx).1.1, fun x hx => (h.1.2 x hx).1.2,
    fun c hc p hp => let ⟨x, hx, e⟩ := h.2 c hc p hp; ⟨x, hx, e.1.1, e.1.2, e.2⟩, fun x hx => (h.1.2 x hx).2⟩

theorem witness_ResultWriter :
    ∃ (s : State) (r total : Nat) (bs : List Byte), PoolOk s ∧ r < 32 ∧ bs.length ≤ total ∧ total ≤ 16384 ∧ (bs = [] → total = 0) ∧ ceilDiv bs.length 256 ≤ allocatable s s.curKey :=
  ⟨inVec 5 16 onD, 1, 8, [1, 2, 3, 4], poolOk (by decide +kernel), by decide, by decide, by decide, by decide, by decide +kernel⟩

theorem witness_ChainEdits :
    (∃ i s w op, encode i = some w ∧ vectorOp i = some op ∧ isEdit op = true ∧ Alone s w op ∧ PoolOk s ∧ editTable s (memberOf s w op) = none) ∧
    (∃ i s w op, encode i = some w ∧ vectorOp i = some op ∧ isEdit op = true ∧ Alone s w op ∧ PoolOk s ∧ (∃ sets frees, editTable s (memberOf s w op) = some (sets, frees)) ∧
      (vreg s.cur (memberOf s w op).a).pieces.length + (vreg s.cur (memberOf s w op).b).pieces.length ≤ 64 ∧ (∀ x ∈ (coreAt s s.core).segs, x.2.count < 128) ∧
      (op = .norm → ceilDiv (regBytes s (memberOf s w op).a).length 256 ≤ allocatable s s.curKey)) :=
  ⟨⟨.vretype 5 1 4, inVec 1 15 onD, wordOf (.vretype 5 1 4), .retype 5, rfl, rfl, rfl, alone (by decide +kernel), poolOk (by decide +kernel), by decide +kernel⟩,
   ⟨.vnorm 1 4, inVec 5 16 onD, wordOf (.vnorm 1 4), .norm, rfl, rfl, rfl, alone (by decide +kernel), poolOk (by decide +kernel), ⟨_, _, rfl⟩, by decide +kernel, by decide +kernel, fun _ => by decide +kernel⟩⟩

theorem witness_Compaction :
    ∃ (s : State) (ps : List Piece), PoolOk s ∧ (∀ p ∈ ps, ∃ x ∈ (coreAt s s.core).segs, x.1 = p.seg ∧ 1 ≤ p.count ∧ p.first + p.count ≤ 256) ∧
      ps.length ≤ 128 ∧ (ps.map (·.count)).sum ≤ 16384 ∧ (match compact s.curKey 128 ps [] s with | .ok _ => true | .error _ => false) = true :=
  ⟨inVec 5 16 onD, List.replicate 3 { seg := 1, first := 2, count := 3 }, poolOk (by decide +kernel), by decide +kernel, by decide, by decide +kernel, by decide +kernel⟩

/-- Blocks moved, with no fault and nothing to wait for. -/
def moved (x : State × Option Trap × Bool) : Bool := x.2.1.isNone && !x.2.2

/-- A result that waits for a die TLB. -/
def heldIn (x : State × Option Trap × Bool) : Bool := match x.2.1 with | some f => f.code == heldCode | none => false

theorem witness_Spills :
    (∃ a r s w, encode (.vspill a r) = some w ∧ Alone s w .spill ∧ (memberOf s w .spill).xa.toNat % 64 ≠ 0) ∧
    (∃ a r s w, encode (.vspill a r) = some w ∧ Alone s w .spill ∧ (let m := memberOf s w .spill
       let c := vreg s.cur m.d
       let x := spillBlocks s.cur.vmt.toNat 257 (m.xa + 64) (chainBytes (coreAt s s.core) c) (running s w .spill)
       m.xa.toNat % 64 = 0 ∧ s.cur.release = none ∧ s.cur.vmt.toNat = 2 ∧ (chainBytes (coreAt s s.core) c).length = chainLen c ∧ chainLen c ≤ 16384 ∧ m.xa.toNat + 64 + 16384 ≤ scratchSize s.core ∧
       (coreAt s s.core).claim = none ∧ (coreAt s s.core).scored = [] ∧ s.badCells = [] ∧ Memory.wf s.mem = true ∧
       moved x = true ∧ moved (spillBlocks s.cur.vmt.toNat 2 m.xa (spillHeader c.type (chainLen c)) x.1) = true) ∧ ∀ k, ¬unordered s k) ∧
    (∃ a r s w, encode (.vspill a r) = some w ∧ Alone s w .spill ∧ (let m := memberOf s w .spill
       m.xa.toNat % 64 = 0 ∧ heldIn (spillBlocks s.cur.vmt.toNat 257 (m.xa + 64) (chainBytes (coreAt s s.core) (vreg s.cur m.d)) (running s w .spill)) = true)) :=
  ⟨⟨5, 1, withX 5 32 (inVec 5 16 onD), wordOf (.vspill 5 1), rfl, alone (by decide +kernel), by decide +kernel⟩,
   ⟨5, 1, withX 5 64 (inVec 5 16 onD), wordOf (.vspill 5 1), rfl, alone (by decide +kernel), by decide +kernel, fun _ ⟨_, h, _⟩ => by cases h⟩,
   ⟨5, 1, kept (withX 5 64 (inVec 5 16 onD)), wordOf (.vspill 5 1), rfl, alone (by decide +kernel), by decide +kernel⟩⟩

/-- An image of a spilled chain of 16 bytes of i32 at offset 64 of the scratchpad of core 0. -/
def withImage (s : State) : State := { s with mem := setBytes (scratchKey 0 64) (spillHeader 5 16) s.mem }

/-- What a fill reads, if nothing faults and nothing is in the way. -/
def filled (x : Except Trap (List Byte × State × Bool)) : Option (List Byte × State) := match x with | .ok (bs, s, false) => some (bs, s) | _ => none

theorem witness_Fills :
    (∃ a d s w, encode (.vfill a d) = some w ∧ Alone s w .fill ∧ (memberOf s w .fill).xa.toNat % 64 ≠ 0) ∧
    (∃ a d s w, encode (.vfill a d) = some w ∧ Alone s w .fill ∧ (memberOf s w .fill).xa.toNat % 64 = 0 ∧
      ((filled (fillBlocks s.cur.vmt.toNat 2 (memberOf s w .fill).xa 64 (running s w .fill))).any (fun x => (headerOk x.1).isNone)) = true) ∧
    (∃ a d s w, encode (.vfill a d) = some w ∧ Alone s w .fill ∧ (memberOf s w .fill).xa.toNat % 64 = 0 ∧ PoolOk s ∧
      ((filled (fillBlocks s.cur.vmt.toNat 2 (memberOf s w .fill).xa 64 (running s w .fill))).any (fun x => headerOk x.1 == some (5, 16) &&
        (filled (fillBlocks s.cur.vmt.toNat 257 ((memberOf s w .fill).xa + 64) 16 x.2)).isSome && decide (ceilDiv 16 256 ≤ allocatable s s.curKey))) = true) ∧
    (∃ a d s w, encode (.vfill a d) = some w ∧ Alone s w .fill ∧ (memberOf s w .fill).xa.toNat % 64 = 0 ∧
      (match fillBlocks s.cur.vmt.toNat 2 (memberOf s w .fill).xa 64 (running s w .fill) with | .error f => f.code == heldCode | .ok _ => false) = true) ∧
    (∃ (s : State) (at' n : Nat), at' % 64 = 0 ∧ s.cur.vmt.toNat = 2 ∧ at' + n ≤ scratchSize s.core ∧ (coreAt s s.core).claim = none ∧ (coreAt s s.core).scored = [] ∧ s.badCells = [] ∧ s.cur.stale = [] ∧ n ≤ 16384) ∧
    (∃ (type : BitVec 4) (len : Nat), type.toNat ≤ 14 ∧ len ≤ 16384) :=
  ⟨⟨5, 1, withX 5 32 (inVec 5 16 onD), wordOf (.vfill 5 1), rfl, alone (by decide +kernel), by decide +kernel⟩,
   ⟨5, 1, withX 5 64 (inVec 5 16 onD), wordOf (.vfill 5 1), rfl, alone (by decide +kernel), by decide +kernel, by decide +kernel⟩,
   ⟨5, 1, withX 5 64 (withImage (inVec 5 16 onD)), wordOf (.vfill 5 1), rfl, alone (by decide +kernel), by decide +kernel, poolOk (by decide +kernel), by decide +kernel⟩,
   ⟨5, 1, kept (withX 5 64 (inVec 5 16 onD)), wordOf (.vfill 5 1), rfl, alone (by decide +kernel), by decide +kernel, by decide +kernel⟩,
   ⟨inVec 5 16 onD, 128, 16384, by decide +kernel⟩, ⟨14, 16384, by decide⟩⟩

/-! ## Hypotheses that can be met: the Facet table -/

/-- A claim of the focus's region of 64 KiB. -/
def claim0 : Claim := { part := 0, region := 0, log2 := 16, wide := false, seed := 0, spill := 0, head := 0, count := 0 }

def withClaim (c : Claim) (s : State) : State := updCore s s.core (fun k => { k with claim := some c })

/-- No convoy to run, or an element to process and no stop owed. -/
def Processes (s : State) : Prop := s.cur.vl = 0 ∨ (s.cur.vstart < s.cur.vl ∧ stopPoint s = none)

theorem processes {s : State} (h : (decide (s.cur.vl = 0) || (decide (s.cur.vstart < s.cur.vl) && (stopPoint s).isNone)) = true) : Processes s := by
  simpa [Processes] using h

theorem witness_FacetClaims :
    (∃ s b a d w v, s.cur.convoy = [] ∧ s.cur.vtype ≠ 0 ∧ Memory.wf s.mem = true ∧ Processes s ∧ encode (.fclaim b a d) = some w ∧ encode .frel = some v ∧ claimReport s (rx s a).toNat (rx s b).toNat = 0 ∧ visibleClaim s = none) ∧
    (∃ s b a d w, s.cur.convoy = [] ∧ s.cur.vtype ≠ 0 ∧ Memory.wf s.mem = true ∧ Processes s ∧ encode (.fclaim b a d) = some w ∧ claimReport s (rx s a).toNat (rx s b).toNat ≠ 0) ∧
    (∃ s v c, s.cur.convoy = [] ∧ s.cur.vtype ≠ 0 ∧ Memory.wf s.mem = true ∧ Processes s ∧ encode .frel = some v ∧ visibleClaim s = some c ∧ 16 ≤ c.log2) := by
  refine ⟨⟨withX 5 16 (inVec 5 16 onD), 0, 5, 6, _, _, rfl, by decide +kernel, by decide +kernel, processes (by decide +kernel), rfl, rfl, ?_, by decide +kernel⟩,
    ⟨withX 5 21 (inVec 5 16 onD), 0, 5, 6, _, rfl, by decide +kernel, by decide +kernel, processes (by decide +kernel), rfl, ?_⟩,
    ⟨withClaim claim0 (inVec 5 16 onD), _, claim0, rfl, by decide +kernel, by decide +kernel, processes (by decide +kernel), rfl, by decide +kernel, by decide⟩⟩
  · unfold claimReport
    rw [if_neg (by decide +kernel)]
    split
    · next h => exact nomatch h.symm.trans (rfl : (coreAt (withX 5 16 (inVec 5 16 onD)) (withX 5 16 (inVec 5 16 onD)).core).claim = none)
    · rw [if_neg (by rintro ⟨_, j, hj, r, h, _⟩; exact absurd h (by rw [show regionAt (withX 5 16 (inVec 5 16 onD)) (who (withX 5 16 (inVec 5 16 onD))).part j = none from rfl]; exact nofun)), if_neg (by rintro ⟨e, h, _⟩; cases h)]
  · unfold claimReport
    rw [if_pos (by decide +kernel)]
    decide

/-- Above every listed byte, memory reads as unlisted. -/
theorem getByte_above (B : Nat) : ∀ m : Memory, m.all (fun c => decide (c.1 < B)) = true → ∀ k, B ≤ k → getByte k m = unlisted
  | [], _, _, _ => rfl
  | (a, b) :: t, h, k, hk => by
    simp only [List.all_cons, Bool.and_eq_true, decide_eq_true_eq] at h
    have := getByte_above B t h.2 k hk
    have ha : a < B := h.1
    unfold getByte
    split
    · omega
    · split
      · rfl
      · assumption

theorem getBytes_above {B : Nat} {m : Memory} (h : m.all (fun c => decide (c.1 < B)) = true) : ∀ n k, B ≤ k → getBytes k n m = List.replicate n 0
  | 0, _, _ => rfl
  | n + 1, k, hk => by rw [getBytes, getByte_above B m h k hk, getBytes_above h n (k + 1) (by omega)]; rfl

/-- A table in a scratchpad with nothing written is in order. -/
theorem tableOk_empty {s : State} {c : Claim} (h : s.mem.all (fun c => decide (c.1 < 2 ^ 49)) = true) : TableOk s c := by
  intro key _ j _ i _ o _
  exfalso
  have : bucketHead s c j = 0 := by
    unfold bucketHead
    rw [getBytes_above h 8 _ (by unfold bucketKey scratchKey; omega)]
    rfl
  rw [this] at o
  simp [occBit, bit] at o

theorem claimed {s : State} {c : Claim} (h : (decide ((coreAt s s.core).claim = some c) && decide (16 ≤ c.log2) && decide (c.log2 ≤ if isDCore s.core then 20 else 21) && s.badCells.isEmpty && Memory.wf s.mem) = true) : Claimed s c := by
  simp only [Bool.and_eq_true, decide_eq_true_eq, List.isEmpty_iff] at h
  exact ⟨h.1.1.1.1, h.1.1.1.2, h.1.1.2, h.1.2, h.2⟩

theorem witness_FacetTable :
    ∃ (s : State) (c : Claim) (t : BitVec 4) (key v : Nat), Claimed s c ∧ TableOk s c ∧ isKey c key ∧ isKey c v ∧ typeBits t = 8 * keyBytes c ∧
      freeIn s c (windowOf c key) ≠ none ∧
      isKey c (match tableGet s c key with | none => Res.plain v | some old => combine t s.cur.frm .min old v).w :=
  ⟨withClaim claim0 (inVec 6 16 onD), claim0, 6, 5, 7, claimed (by decide +kernel), tableOk_empty (by decide +kernel), by unfold isKey; decide +kernel, by unfold isKey; decide +kernel, by decide +kernel, by decide +kernel,
    by unfold isKey; decide +kernel⟩

/-- Every slot of the window of key 5 holds key 0. -/
def windowFull (s : State) : State := { s with mem := (windowOf claim0 5).foldl (fun m j => setBytes (bucketKey s claim0 j) [0x7F] m) s.mem }

theorem nothingUnordered {s : State} (h : s.cur.stale = []) (k : Nat) : ¬unordered s k := by simp [unordered, h]

theorem witness_FacetSpills :
    (∃ s c key v, Claimed s c ∧ isKey c key ∧ isKey c v ∧ search s c key = none ∧ freeIn s c (windowOf c key) = none ∧ spillCap c = 0) ∧
    (∃ s c key v, Claimed s c ∧ isKey c key ∧ isKey c v ∧ search s c key = none ∧ freeIn s c (windowOf c key) = none ∧ c.count = 2 ^ spillCap c ∧ spillCap c ≠ 0) ∧
    (∃ s c key v, Claimed s c ∧ isKey c key ∧ isKey c v ∧ search s c key = none ∧ freeIn s c (windowOf c key) = none ∧ spillCap c ≠ 0 ∧ c.count ≠ 2 ^ spillCap c ∧
      ∃ tr, elemPlace s 3 0 (slotBytes c) .store (spillAddr c c.count) = .error tr) ∧
    (∃ s c key v, Claimed s c ∧ isKey c key ∧ isKey c v ∧ search s c key = none ∧ freeIn s c (windowOf c key) = none ∧ spillCap c ≠ 0 ∧ c.count ≠ 2 ^ spillCap c ∧ s.cur.release = none ∧ (∀ k, ¬unordered s k) ∧
      ∃ k use, elemPlace s 3 0 (slotBytes c) .store (spillAddr c c.count) = .ok (k, use) ∧ k + slotBytes c ≤ 2 ^ 48) := by
  have full (c : Claim) (h : isKey c 5 ∧ isKey c 7 := by unfold isKey; decide +kernel) := h
  have bad : ∃ tr, elemPlace (withClaim { claim0 with spill := 0x0300000000020000 } (windowFull (inVec 6 16 onD))) 3 0 8 .store 0x20000 = .error tr := by
    have : (match elemPlace (withClaim { claim0 with spill := 0x0300000000020000 } (windowFull (inVec 6 16 onD))) 3 0 8 .store 0x20000 with | .error _ => true | .ok _ => false) = true := by decide +kernel
    split at this
    · exact ⟨_, ‹_›⟩
    · cases this
  have good : ∃ k use, elemPlace (withClaim { claim0 with spill := 0x0300000000002000 } (windowFull (inVec 6 16 onD))) 3 0 8 .store 0x2000 = .ok (k, use) ∧ k + 8 ≤ 2 ^ 48 := by
    have : (match elemPlace (withClaim { claim0 with spill := 0x0300000000002000 } (windowFull (inVec 6 16 onD))) 3 0 8 .store 0x2000 with | .error _ => false | .ok (k, _) => decide (k + 8 ≤ 2 ^ 48)) = true := by decide +kernel
    split at this
    · cases this
    · exact ⟨_, _, ‹_›, of_decide_eq_true this⟩
  exact ⟨⟨withClaim claim0 (windowFull (inVec 6 16 onD)), claim0, 5, 7, claimed (by decide +kernel), (full _).1, (full _).2, by decide +kernel, by decide +kernel, by decide +kernel⟩,
    ⟨withClaim { claim0 with spill := 0x0300000000002000, count := 8 } (windowFull (inVec 6 16 onD)), { claim0 with spill := 0x0300000000002000, count := 8 }, 5, 7, claimed (by decide +kernel), (full _).1, (full _).2, by decide +kernel, by decide +kernel, by decide +kernel, by decide +kernel⟩,
    ⟨withClaim { claim0 with spill := 0x0300000000020000 } (windowFull (inVec 6 16 onD)), { claim0 with spill := 0x0300000000020000 }, 5, 7, claimed (by decide +kernel), (full _).1, (full _).2, by decide +kernel, by decide +kernel, by decide +kernel, by decide +kernel, bad⟩,
    ⟨withClaim { claim0 with spill := 0x0300000000002000 } (windowFull (inVec 6 16 onD)), { claim0 with spill := 0x0300000000002000 }, 5, 7, claimed (by decide +kernel), (full _).1, (full _).2, by decide +kernel, by decide +kernel, by decide +kernel, by decide +kernel, rfl, nothingUnordered rfl, good⟩⟩

theorem witness_KeyedWords :
    ∃ i s w op, encode i = some w ∧ vectorOp i = some op ∧ takesKeys op = true ∧ s.cur.vstart = 0 ∧ Alone s w op ∧
      (runGroups op s.cur.vtype (groupsOf s (memberOf s w op)) (running s w op)).stop.isNone = true ∧ (runGroups op s.cur.vtype (groupsOf s (memberOf s w op)) (running s w op)).stall = false ∧
      (writeResult s.curKey (memberOf s w op).d s.cur.vtype (bytesOfElems s.cur.vtype s.cur.vl) 0 (List.replicate (bytesOfElems s.cur.vtype s.cur.vl) 0) (running s w op)).isSome = true :=
  ⟨.fprobe 1 6 1 1 4, withClaim claim0 (inVec 6 16 onD), wordOf (.fprobe 1 6 1 1 4), .fprobe, rfl, rfl, rfl, rfl, alone (by decide +kernel), by decide +kernel, by decide +kernel, by decide +kernel⟩

theorem witness_Drains :
    ∃ b d s w c, encode (.fdrain b d) = some w ∧ s.cur.vstart = 0 ∧ Alone s w .fdrain ∧ Claimed s c ∧ c.count ≤ c.head ∧
      ((writeResult s.curKey (memberOf s w .fdrain).d s.cur.vtype (s.cur.vl * 4) 0 (List.replicate (s.cur.vl * 4) 0) (running s w .fdrain)).bind
        (writeResult s.curKey (memberOf s w .fdrain).b s.cur.vtype (s.cur.vl * 4) 0 (List.replicate (s.cur.vl * 4) 0))).isSome = true :=
  ⟨5, 4, withClaim claim0 (inVec 6 16 onD), wordOf (.fdrain 5 4), claim0, rfl, rfl, alone (by decide +kernel), claimed (by decide +kernel), by decide, by decide +kernel⟩

/-! ## Hypotheses that can be met: the matrix engine -/

/-- Tile n has a shape; accesses go to the scratchpad. -/
def shaped (n : Nat) (m : Mshape) (s : State) : State := inCtx (fun c => { c with vmt := 2, vtype := 9, vl := 4, mshape := c.mshape.setIfInBounds n m }) s

theorem noTileLoad {s : State} (h : s.engines = []) (n : Nat) : tileLoading s n = false := by simp [tileLoading, h]

theorem mtReady {s : State} {i : Instr} {chains : Bool} {odd : Prop} {reads : List Nat} (f : mtForm s i = some (chains, odd, reads)) (o : ¬odd)
    (h : (s.cur.convoy.isEmpty && isDCore s.core && s.cur.vtype != 0 && !s.cur.validMode && s.engines.isEmpty) = true) : MtReady s i := by
  simp only [Bool.and_eq_true, List.isEmpty_iff, bne_iff_ne, Bool.not_eq_true'] at h
  exact ⟨h.1.1.1.1, h.1.1.1.2, ⟨chains, odd, reads, f, fun x => x.elim (fun y => h.1.1.2 y.2) o, fun y => absurd y (by rw [h.1.2]; decide)⟩, noTileLoad h.2⟩

/-- A load of tile n of the focus's thread is outstanding. -/
def loadingInto (n : Nat) (s : State) : State :=
  { s with engines := [{ num := 9, key := s.curKey, priv := .u, thread := threadOf s.cur, node := 0, part := 0, region := 0, object := 0, kind := .tile false 2 [n] [] none, stale := [], failed := none }] }

theorem witness_MatrixDecode :
    (∃ i s w chains odd reads, s.cur.convoy = [] ∧ encode i = some w ∧ mtForm s i = some (chains, odd, reads) ∧ isDCore s.core = false) ∧
    (∃ i s w chains odd reads, s.cur.convoy = [] ∧ encode i = some w ∧ mtForm s i = some (chains, odd, reads) ∧ isDCore s.core = true ∧ chains = true ∧ s.cur.vtype = 0) ∧
    (∃ i s w chains odd reads, s.cur.convoy = [] ∧ encode i = some w ∧ mtForm s i = some (chains, odd, reads) ∧ isDCore s.core = true ∧ odd) ∧
    (∃ i s w chains odd reads r, s.cur.convoy = [] ∧ encode i = some w ∧ mtForm s i = some (chains, odd, reads) ∧ isDCore s.core = true ∧ ¬((chains = true ∧ s.cur.vtype = 0) ∨ odd) ∧
      s.cur.validMode = true ∧ reads.find? (fun r => !mtValid s r) = some r) ∧
    (∃ i s w chains odd reads, s.cur.convoy = [] ∧ encode i = some w ∧ mtForm s i = some (chains, odd, reads) ∧ isDCore s.core = true ∧ ¬((chains = true ∧ s.cur.vtype = 0) ∨ odd) ∧
      (s.cur.validMode = true → ∀ r ∈ reads, mtValid s r = true) ∧ ∃ r ∈ reads, 40 ≤ r ∧ tileLoading s (r - 40) = true) :=
  ⟨⟨.mzero 0, onS, _, _, _, _, rfl, rfl, rfl, by decide +kernel⟩, ⟨.maccOut 0 1 2 0 3, onD, _, _, _, _, rfl, rfl, rfl, by decide +kernel, rfl, rfl⟩,
   ⟨.mop 0 2 1 4, onD, _, _, _, _, rfl, rfl, rfl, by decide +kernel, .inl ⟨rfl, .inl rfl⟩⟩,
   ⟨.mbcast 1 3, inCtx (fun c => { c with validMode := true }) onD, _, _, _, _, 43, rfl, rfl, rfl, by decide +kernel, by simp, rfl, by decide +kernel⟩,
   ⟨.mbcast 1 3, loadingInto 3 onD, _, _, _, _, rfl, rfl, rfl, by decide +kernel, by simp, nofun, 43, by simp, by decide, by decide +kernel⟩⟩

theorem witness_ShapesAndZeros :
    (∃ (s : State) (b a : BitVec 5) (f d : BitVec 3), tilesOk s ∧ MtReady s (.mset b a f d) ∧ f ≠ 7 ∧ (rx s a).toNat ≤ 128 ∧ (rx s b).toNat * fmtBits f ≤ 1024) ∧
    (∃ (s : State) (b a : BitVec 5) (f d : BitVec 3), tilesOk s ∧ MtReady s (.mset b a f d) ∧ ¬(f ≠ 7 ∧ (rx s a).toNat ≤ 128 ∧ (rx s b).toNat * fmtBits f ≤ 1024)) ∧
    (∃ (s : State) (t : BitVec 5), tilesOk s ∧ MtReady s (.mzero t) ∧ t.toNat ≤ 10 ∧ s.badCells = []) :=
  ⟨⟨withX 1 32 (withX 2 128 (inVec 5 16 onD)), 1, 2, 6, 3, by unfold tilesOk; decide +kernel, mtReady rfl (by simp) (by decide +kernel), by decide, by decide +kernel, by decide +kernel⟩,
   ⟨withX 1 33 (inVec 5 16 onD), 1, 2, 6, 3, by unfold tilesOk; decide +kernel, mtReady rfl (by simp) (by decide +kernel), by decide +kernel⟩,
   ⟨inVec 5 16 onD, 10, by unfold tilesOk; decide +kernel, mtReady rfl (by simp) (by decide +kernel), by decide, rfl⟩⟩

/-- Two rows of four bf16 elements. -/
def smallShape : Mshape := { fmt := 0, rows := 2, cols := 4 }

/-- A transfer that has nothing to wait for, as a yes or no: the first row at fault, if any, with its code. -/
def transferOf (s : State) (store : Bool) (b a : BitVec 5) (d : BitVec 3) : Option (Nat × Nat) × Bool :=
  let c := tileRows s store b a d (shapeOf s d.toNat).rows s.cur.vstart
  (c.2.map (fun x => (x.1, x.2.code)), (tileRange s.core (c.1.map (·.1))).isSome && decide (32 ≤ (coreAt s s.core).scored.length))

/-- What the clauses on a transfer that runs assume beside `MtReady`. -/
def TransferPlain (s : State) (store : Bool) (b a : BitVec 5) (d : BitVec 3) : Prop :=
  let c := tileRows s store b a d (shapeOf s d.toNat).rows s.cur.vstart
  ¬((shapeOf s d.toNat).fmt = 4 ∧ (shapeOf s d.toNat).cols % 32 ≠ 0) ∧ ¬(∃ e f, c.2 = some (e, f) ∧ f.code = heldCode) ∧
  ¬(tileRange s.core (c.1.map (·.1)) ≠ none ∧ 32 ≤ (coreAt s s.core).scored.length) ∧ (store = true → s.cur.release = none) ∧ s.badCells = []

theorem transferPlain {s : State} {store : Bool} {b a : BitVec 5} {d : BitVec 3} {o : Option (Nat × Nat)} (h : transferOf s store b a d = (o, false)) (held : ∀ e, o ≠ some (e, heldCode))
    (g : ((shapeOf s d.toNat).fmt != 4 && s.cur.release.isNone && s.badCells.isEmpty) = true) : TransferPlain s store b a d := by
  simp only [Bool.and_eq_true, bne_iff_ne, Option.isNone_iff_eq_none, List.isEmpty_iff] at g
  simp only [transferOf, Prod.mk.injEq] at h
  refine ⟨fun x => g.1.1 x.1, ?_, ?_, fun _ => g.1.2, g.2⟩
  · rintro ⟨e, f, h1, h2⟩
    refine held e ?_
    rw [← h.1, h1, ← h2]
    rfl
  · rintro ⟨h1, h2⟩
    have := h.2
    rw [decide_eq_true h2, Bool.and_true] at this
    exact h1 (Option.isNone_iff_eq_none.mp (by rw [← Option.not_isSome, this]; rfl))

/-- The focus's core has 32 scoreboard entries. -/
def scoreFull (s : State) : State := updCore s s.core (fun k => { k with scored := List.replicate 32 { op := 99, base := 0x1000, len := 64, writes := false } })

theorem witness_TileTransfers :
    (∃ i s store first b a d, tileForm i = some (store, first, b, a, d) ∧ MtReady s i ∧ (shapeOf s d.toNat).fmt = 4 ∧ (shapeOf s d.toNat).cols % 32 ≠ 0) ∧
    (∃ i s store first b a d, tileForm i = some (store, first, b, a, d) ∧ MtReady s i ∧ (shapeOf s d.toNat).fmt ≠ 4 ∧
      (∃ r, tileRange s.core ((tileRows s store b a d (shapeOf s d.toNat).rows s.cur.vstart).1.map (·.1)) = some r) ∧ 32 ≤ (coreAt s s.core).scored.length) ∧
    (∃ i s store first b a d, tileForm i = some (store, first, b, a, d) ∧ MtReady s i ∧ TransferPlain s store b a d ∧ (tileRows s store b a d (shapeOf s d.toNat).rows s.cur.vstart).2 = none) ∧
    (∃ i s b a d f, tileForm i = some (true, false, b, a, d) ∧ MtReady s i ∧ TransferPlain s true b a d ∧ (tileRows s true b a d (shapeOf s d.toNat).rows s.cur.vstart).2 = some (1, f) ∧ f.code ≠ 27 ∧
      1 ≠ s.cur.vstart) ∧
    (∃ i s b a d f, tileForm i = some (false, true, b, a, d) ∧ MtReady s i ∧ TransferPlain s false b a d ∧ (tileRows s false b a d (shapeOf s d.toNat).rows s.cur.vstart).2 = some (1, f) ∧ f.code ≠ 27 ∧
      s.cur.vstart < 1) ∧
    (∃ i s b a d f, tileForm i = some (false, true, b, a, d) ∧ MtReady s i ∧ TransferPlain s false b a d ∧ (tileRows s false b a d (shapeOf s d.toNat).rows s.cur.vstart).2 = some (s.cur.vstart, f) ∧
      f.code ≠ 27) := by
  let far (s : State) : State := withX 5 0x1FFFF0 (withX 6 16 (shaped 0 smallShape s))
  have h0 : transferOf (withX 6 16 (shaped 0 smallShape onD)) true 6 5 0 = (none, false) := by decide +kernel
  have h1 : transferOf (far onD) false 6 5 0 = (some (1, 26), false) := by decide +kernel
  have h2 : transferOf (far onD) true 6 5 0 = (some (1, 26), false) := by decide +kernel
  have h3 : transferOf (withX 5 0x200000 (shaped 0 smallShape onD)) false 6 5 0 = (some (0, 26), false) := by decide +kernel
  have h4 : (transferOf (scoreFull (withX 6 16 (shaped 0 smallShape onD))) true 6 5 0).2 = true := by decide +kernel
  obtain ⟨f, h, c⟩ := hit_of (congrArg Prod.fst h1)
  obtain ⟨g, h', c'⟩ := hit_of (congrArg Prod.fst h2)
  obtain ⟨k, h'', c''⟩ := hit_of (o := (tileRows (withX 5 0x200000 (shaped 0 smallShape onD)) false 6 5 0 2 0).2) (congrArg Prod.fst h3)
  simp only [transferOf, Bool.and_eq_true, decide_eq_true_eq] at h4
  refine ⟨⟨.mld 6 5 0, shaped 0 { fmt := 4, rows := 1, cols := 16 } onD, false, false, 6, 5, 0, rfl, mtReady rfl (by decide +kernel) (by decide +kernel), by decide +kernel, by decide +kernel⟩,
    ⟨.mst 6 5 0, scoreFull (withX 6 16 (shaped 0 smallShape onD)), true, false, 6, 5, 0, rfl, mtReady rfl (by decide +kernel) (by decide +kernel), by decide +kernel, some_of_isSome h4.1, h4.2⟩,
    ⟨.mst 6 5 0, withX 6 16 (shaped 0 smallShape onD), true, false, 6, 5, 0, rfl, mtReady rfl (by decide +kernel) (by decide +kernel), transferPlain h0 nofun (by decide +kernel), ?_⟩,
    ⟨.mst 6 5 0, far onD, 6, 5, 0, g, rfl, mtReady rfl (by decide +kernel) (by decide +kernel), transferPlain h2 (by simp [heldCode]) (by decide +kernel), h', by rw [c']; decide, by decide +kernel⟩,
    ⟨.mldff 6 5 0, far onD, 6, 5, 0, f, rfl, mtReady rfl (by decide +kernel) (by decide +kernel), transferPlain h1 (by simp [heldCode]) (by decide +kernel), h, by rw [c]; decide, by decide +kernel⟩,
    ⟨.mldff 6 5 0, withX 5 0x200000 (shaped 0 smallShape onD), 6, 5, 0, k, rfl, mtReady rfl (by decide +kernel) (by decide +kernel), transferPlain h3 (by simp [heldCode]) (by decide +kernel), h'', by rw [c'']; decide⟩⟩
  exact (Option.map_eq_none_iff (f := fun x : Nat × Trap => (x.1, x.2.code))).mp (congrArg Prod.fst h0)

theorem witness_TileRowPlaces :
    ∃ (s : State) (m : Mshape) (r : Nat) (base stride : Word), m.fmt ≠ 4 ∧ mshapeOk m = true ∧ (coreAt s s.core).claim = none ∧
      (base + BitVec.ofNat 64 r * stride).toNat % max 1 (fmtBits m.fmt / 8) = 0 ∧ (base + BitVec.ofNat 64 r * stride).toNat + rowBytes m ≤ scratchSize s.core :=
  ⟨shaped 0 smallShape onD, smallShape, 1, 0x1FFFF0, 8, by decide, by decide, rfl, by decide, by decide +kernel⟩

/-- A pair of e2m1 tiles of one row, the first with a reserved record. -/
def pairShaped (s : State) : State :=
  let m : Mshape := { fmt := 4, rows := 1, cols := 32 }
  inCtx (fun c => { c with tiles := setBytes (tileOff 1 0 1) [0x7F] c.tiles }) (shaped 0 m (shaped 2 m s))

theorem witness_MatrixProducts :
    (∃ (s : State) (c b a f : BitVec 3), MtReady s (.mop c b a f) ∧ tilesOk s ∧ (shapeOf s a.toNat).fmt ≠ f) ∧
    (∃ (s : State) (c b a f : BitVec 3), MtReady s (.mop c b a f) ∧ tilesOk s ∧ (shapeOf s a.toNat).fmt = f ∧ (shapeOf s b.toNat).fmt = f ∧ (shapeOf s a.toNat).cols = (shapeOf s b.toNat).cols ∧ f ≠ 4 ∧ c ≠ 2 ∧
      mshapeOk (shapeOf s a.toNat) = true ∧ mshapeOk (shapeOf s b.toNat) = true ∧ s.badCells = [] ∧ productStop s f a.toNat (mopOuts c b) s.cur.vstart = none) ∧
    (∃ (s : State) (c b a f : BitVec 3) (e : Nat) (x : Trap), MtReady s (.mop c b a f) ∧ tilesOk s ∧ (shapeOf s a.toNat).fmt = f ∧ (shapeOf s b.toNat).fmt = f ∧ (shapeOf s a.toNat).cols = (shapeOf s b.toNat).cols ∧
      (shapeOf s a.toNat).cols % 32 = 0 ∧ c ≠ 2 ∧ mshapeOk (shapeOf s a.toNat) = true ∧ mshapeOk (shapeOf s b.toNat) = true ∧ s.badCells = [] ∧ productStop s f a.toNat (mopOuts c b) s.cur.vstart = some (e, x)) := by
  obtain ⟨x, h, _⟩ := hit_of (o := productStop (pairShaped onD) 4 0 (mopOuts 0 2) 0) (e := 0) (c := 31) (by decide +kernel)
  exact ⟨⟨shaped 0 smallShape onD, 0, 2, 0, 1, mtReady rfl (by decide) (by decide +kernel), by unfold tilesOk; decide +kernel, by decide +kernel⟩,
    ⟨shaped 0 smallShape (shaped 2 smallShape onD), 1, 2, 0, 0, mtReady rfl (by decide) (by decide +kernel), by unfold tilesOk; decide +kernel, by decide +kernel, by decide +kernel, by decide +kernel, by decide, by decide,
      by decide +kernel, by decide +kernel, rfl, by decide +kernel⟩,
    ⟨pairShaped onD, 0, 2, 0, 4, 0, x, mtReady rfl (by decide) (by decide +kernel), by unfold tilesOk; decide +kernel, by decide +kernel, by decide +kernel, by decide +kernel, by decide +kernel, by decide,
      by decide +kernel, by decide +kernel, rfl, h⟩⟩

/-- A scale byte that stops nothing. -/
def Scale.plain (x : Scale) : Bool := x.fault.isNone && x.error.isNone && x.reserved.isNone && !x.stall

theorem scaleStop_plain {s : State} {acc : Nat} {xs ys : List Scale} (b : s.badCells = []) (hx : xs.all Scale.plain = true) (hy : ys.all Scale.plain = true) (n : Nat) : scaleStop s acc xs ys n = none := by
  unfold scaleStop
  split
  · next x y ex ey =>
    have px := List.all_eq_true.mp hx x (List.mem_of_getElem? ex)
    have py := List.all_eq_true.mp hy y (List.mem_of_getElem? ey)
    simp only [Scale.plain, Bool.and_eq_true, Option.isNone_iff_eq_none] at px py
    simp [scaleTrap, b, px, py]
  · rfl

theorem witness_MatrixScales :
    (∃ (s : State) (c : BitVec 3) (b a : BitVec 5), MtReady s (.msca c b a) ∧ tilesOk s ∧ s.badCells = [] ∧
      ¬(∀ x ∈ scalesAt s s.cur.vmt.toNat (rx s a) ++ scalesAt s s.cur.vmt.toNat (rx s b), x.stall = false)) ∧
    (∃ (s : State) (c : BitVec 3) (b a : BitVec 5), MtReady s (.msca c b a) ∧ tilesOk s ∧ s.badCells = [] ∧
      (∀ x ∈ scalesAt s s.cur.vmt.toNat (rx s a) ++ scalesAt s s.cur.vmt.toNat (rx s b), x.stall = false) ∧
      (∀ n, s.cur.vstart ≤ n → n < 16384 → scaleStop s (if c = 1 then 1 else 0) (scalesAt s s.cur.vmt.toNat (rx s a)) (scalesAt s s.cur.vmt.toNat (rx s b)) n = none)) ∧
    (∃ (s : State) (c : BitVec 3) (b a : BitVec 5) (tr : Trap), MtReady s (.msca c b a) ∧ tilesOk s ∧ s.badCells = [] ∧
      (∀ x ∈ scalesAt s s.cur.vmt.toNat (rx s a) ++ scalesAt s s.cur.vmt.toNat (rx s b), x.stall = false) ∧ s.cur.vstart ≤ 0 ∧
      scaleStop s (if c = 1 then 1 else 0) (scalesAt s s.cur.vmt.toNat (rx s a)) (scalesAt s s.cur.vmt.toNat (rx s b)) 0 = some tr ∧ tr.code ≠ 27 ∧ tr.code ≠ heldCode) := by
  let on : State := shaped 0 smallShape onD
  let off : State := withX 5 0x200000 on
  let held : State := updCore on on.core (fun k => { k with scored := [{ op := 99, base := 64, len := 64, writes := true }] })
  have plain : (scalesAt on on.cur.vmt.toNat (rx on 0)).all Scale.plain = true := by decide +kernel
  have moving : ∀ x ∈ scalesAt on on.cur.vmt.toNat (rx on 0) ++ scalesAt on on.cur.vmt.toNat (rx on 0), x.stall = false := by decide +kernel
  have movingOff : ∀ x ∈ scalesAt off off.cur.vmt.toNat (rx off 5) ++ scalesAt off off.cur.vmt.toNat (rx off 5), x.stall = false := by decide +kernel
  have still : ¬∀ x ∈ scalesAt held held.cur.vmt.toNat (rx held 0) ++ scalesAt held held.cur.vmt.toNat (rx held 0), x.stall = false := by decide +kernel
  have stops : (scaleStop off 0 (scalesAt off off.cur.vmt.toNat (rx off 5)) (scalesAt off off.cur.vmt.toNat (rx off 5)) 0).map (·.code) = some 26 := by decide +kernel
  obtain ⟨tr, h, c⟩ := Option.map_eq_some_iff.mp stops
  exact ⟨⟨held, 0, 0, 0, mtReady rfl (by simp) (by decide +kernel), by unfold tilesOk; decide +kernel, rfl, still⟩,
    ⟨on, 0, 0, 0, mtReady rfl (by simp) (by decide +kernel), by unfold tilesOk; decide +kernel, rfl, moving, fun n _ _ => scaleStop_plain rfl plain plain n⟩,
    ⟨off, 0, 5, 5, tr, mtReady rfl (by simp) (by decide +kernel), by unfold tilesOk; decide +kernel, rfl, movingOff, by decide +kernel, h, by rw [c]; decide, by rw [c]; decide⟩⟩

/-- What the clauses on row moves assume of every state. -/
def RowPlain (s : State) : Prop := tilesOk s ∧ s.badCells = [] ∧ ∀ x ∈ (coreAt s s.core).segs, x.2.badData = false ∧ x.2.badEntry = false

/-- Registers v1 to v3 with bytes, and a shape of tile 0. -/
def rowState : State := shaped 0 smallShape (inVec 10 16 onD)

theorem witness_RowMoves :
    (∃ s b a d n f, RowPlain s ∧ (shapeOf s n.toNat).rows ≤ (rx s b).toNat ∧ MtReady s (.mrowIn b a f n) ∧ MtReady s (.mrowOut b n f d)) ∧
    (∃ s b a n f, RowPlain s ∧ MtReady s (.mrowIn b a f n) ∧ (shapeOf s n.toNat).fmt = f ∧ f ≠ 4 ∧ (rx s b).toNat < (shapeOf s n.toNat).rows ∧ mshapeOk (shapeOf s n.toNat) = true) ∧
    (∃ s b n f d, RowPlain s ∧ MtReady s (.mrowOut b n f d) ∧ (shapeOf s n.toNat).fmt = f ∧ f ≠ 4 ∧ (rx s b).toNat < (shapeOf s n.toNat).rows ∧
      (writeResult s.curKey d.toNat (fmtType f) (rowBytes (shapeOf s n.toNat)) 0 (getBytes (tileOff n.toNat (rx s b).toNat 0) (rowBytes (shapeOf s n.toNat)) s.cur.tiles) s).isSome = true) ∧
    (∃ s b n f d, RowPlain s ∧ MtReady s (.mrowOut b n f d) ∧ (shapeOf s n.toNat).fmt = f ∧ f ≠ 4 ∧ (rx s b).toNat < (shapeOf s n.toNat).rows ∧
      (writeResult s.curKey d.toNat (fmtType f) (rowBytes (shapeOf s n.toNat)) 0 (getBytes (tileOff n.toNat (rx s b).toNat 0) (rowBytes (shapeOf s n.toNat)) s.cur.tiles) s).isNone = true) ∧
    (∃ s c b a f d, RowPlain s ∧ MtReady s (.maccOut c b a f d) ∧ f ≠ 4 ∧ f ≠ 5 ∧ f ≠ 7 ∧ 128 < (rx s a).toNat + (rx s b).toNat) ∧
    (∃ s c b a f d, RowPlain s ∧ MtReady s (.maccOut c b a f d) ∧ f ≠ 4 ∧ f ≠ 5 ∧ f ≠ 7 ∧ ¬(128 < (rx s a).toNat + (rx s b).toNat ∨ 16384 < bytesOfElems (fmtType f) (128 * (rx s b).toNat)) ∧
      (writeResult s.curKey d.toNat (fmtType f) ((rx s b).toNat * 256) 0 (List.replicate ((rx s b).toNat * 256) 0) s).isSome = true) := by
  have plain : ∀ s ∈ [rowState, withX 6 2 rowState, withX 6 200 rowState, withX 6 1 rowState, poolGone rowState], RowPlain s := by
    unfold RowPlain tilesOk
    decide +kernel
  exact ⟨⟨withX 6 2 rowState, 6, 1, 4, 0, 0, plain _ (by simp), by decide +kernel, mtReady rfl (by decide) (by decide +kernel), mtReady rfl (by decide) (by decide +kernel)⟩,
    ⟨rowState, 6, 1, 0, 0, plain _ (by simp), mtReady rfl (by decide) (by decide +kernel), by decide +kernel, by decide, by decide +kernel, by decide +kernel⟩,
    ⟨rowState, 6, 0, 0, 4, plain _ (by simp), mtReady rfl (by decide) (by decide +kernel), by decide +kernel, by decide, by decide +kernel, by decide +kernel⟩,
    ⟨poolGone rowState, 6, 0, 0, 4, plain _ (by simp), mtReady rfl (by decide) (by decide +kernel), by decide +kernel, by decide, by decide +kernel, by decide +kernel⟩,
    ⟨withX 6 200 rowState, 0, 6, 5, 0, 4, plain _ (by simp), mtReady rfl (by simp) (by decide +kernel), by decide, by decide, by decide, by decide +kernel⟩,
    ⟨withX 6 1 rowState, 0, 6, 5, 0, 4, plain _ (by simp), mtReady rfl (by simp) (by decide +kernel), by decide, by decide, by decide, by decide +kernel, by decide +kernel⟩⟩

/-- A gang record of core 0 alone at virtual address 0x2000. -/
def withGangRecord (s : State) : State := { s with mem := setBytes (physKey 0x32000) ([1, 1, 0, 0, 0, 0, 0, 0, 0] ++ List.replicate 31 0xFF ++ List.replicate 24 0) s.mem }

theorem witness_Gangs :
    (∃ s d, MtReady s (.mgang 0 d)) ∧
    (∃ s a d tr, MtReady s (.mgang a d) ∧ a ≠ 0 ∧ elemPlace s 2 0 64 .load (rx s a) = .error tr ∧ tr.code ≠ 27 ∧ tr.code ≠ heldCode) ∧
    (∃ s a d k use, MtReady s (.mgang a d) ∧ a ≠ 0 ∧ elemPlace s 2 0 64 .load (rx s a) = .ok (k, use) ∧ hasError k 64 s = false ∧ (gangStatus s (seeBytes s .vector k 64)).1 ≠ 0) ∧
    (∃ s a d k use, MtReady s (.mgang a d) ∧ a ≠ 0 ∧ elemPlace s 2 0 64 .load (rx s a) = .ok (k, use) ∧ hasError k 64 s = false ∧ (gangStatus s (seeBytes s .vector k 64)).1 = 0) := by
  have bad : (match elemPlace (withX 5 0x20000 rowState) 2 0 64 .load 0x20000 with | .error t => t.code == 26 | .ok _ => false) = true := by decide +kernel
  have one : (match elemPlace (withX 5 0x2000 rowState) 2 0 64 .load 0x2000 with | .ok (k, _) => k == 0x32000 | .error _ => false) = true := by decide +kernel
  have two : (match elemPlace (withX 5 0x2000 (withGangRecord rowState)) 2 0 64 .load 0x2000 with | .ok (k, _) => k == 0x32000 | .error _ => false) = true := by decide +kernel
  refine ⟨⟨rowState, 5, mtReady rfl (by simp) (by decide +kernel)⟩, ?_, ?_, ?_⟩
  · split at bad
    · next t e => exact ⟨withX 5 0x20000 rowState, 5, 6, t, mtReady rfl (by simp) (by decide +kernel), by decide, e, by rw [eq_of_beq bad]; decide, by rw [eq_of_beq bad]; decide⟩
    · cases bad
  · split at one
    · next k use e => exact ⟨withX 5 0x2000 rowState, 5, 6, 0x32000, use, mtReady rfl (by simp) (by decide +kernel), by decide, eq_of_beq one ▸ e, by decide +kernel, by decide +kernel⟩
    · cases one
  · split at two
    · next k use e => exact ⟨withX 5 0x2000 (withGangRecord rowState), 5, 6, 0x32000, use, mtReady rfl (by simp) (by decide +kernel), by decide, eq_of_beq two ▸ e, by decide +kernel, by decide +kernel⟩
    · cases two

/-! ## Hypotheses that can be met: rays, records and barriers -/

theorem some_any {α : Type} {o : Option α} {p : α → Bool} (h : o.any p = true) : ∃ u, o = some u ∧ p u = true := by
  cases o with
  | none => cases h
  | some x => exact ⟨x, rfl, h⟩

/-- Thread 1 runs on core 1. -/
def twoCores (s : State) : State := { s with parked := [(4, { Ctx.reset with state := .running, task := some { placedTask with thread := 1 } })] }

/-- Some rays of die 0. -/
def withRays (l : List Ray) (s : State) : State := updDie s 0 (fun x => { x with rays := l })

/-- A ray of partition 0 under a key, with its ends, with room for four segments. -/
def ray (key : Word) (send recv : Option RayEnd) : Ray := { part := 0, key := key, send := send, recv := recv, cursor := 0, granted := 4, arrived := 0, aside := 0, queue := [] }

/-- The end of a thread, under a handle. -/
def rayEnd (thread handle mode : Nat) : RayEnd := { thread := thread, handle := handle, mode := mode, target := 0 }

theorem witness_RayOpening :
    (∃ (s : State) (a : BitVec 5), s.cur.convoy = [] ∧ (rayHandles s).length ≤ 16384 ∧ 64 ≤ (rx s a).toNat) ∧
    (∃ (s : State) (a b : BitVec 5), s.cur.convoy = [] ∧ (rayHandles s).length ≤ 16384 ∧ (rx s a).toNat = 1 ∧ (∃ r ∈ (dieAt s s.die).rays, r.key = rx s b ∧ r.send ≠ none)) ∧
    (∃ (s : State) (a b : BitVec 5), s.cur.convoy = [] ∧ (rayHandles s).length ≤ 16384 ∧ (rx s a).toNat = 1 ∧ ¬(∃ r ∈ (dieAt s s.die).rays, r.key = rx s b ∧ r.send ≠ none) ∧ 16 ≤ endsOf s (threadOf s.cur)) ∧
    (∃ (s : State) (a b : BitVec 5), s.cur.convoy = [] ∧ (rayHandles s).length ≤ 16384 ∧ (rx s a).toNat = 1 ∧ ¬(∃ r ∈ (dieAt s s.die).rays, r.key = rx s b ∧ r.send ≠ none) ∧ ¬(16 ≤ endsOf s (threadOf s.cur)) ∧
      (∀ r ∈ (dieAt s s.die).rays, ¬(r.key = rx s b ∧ r.part = (who s).part)) ∧ 1024 ≤ (dieAt s s.die).rays.length) ∧
    (∃ (s : State) (a b : BitVec 5), s.cur.convoy = [] ∧ (rayHandles s).length ≤ 16384 ∧ (rx s a).toNat = 1 ∧ ¬(∃ r ∈ (dieAt s s.die).rays, r.key = rx s b ∧ r.send ≠ none) ∧ ¬(16 ≤ endsOf s (threadOf s.cur)) ∧
      (dieAt s s.die).rays.length < 1024) :=
  ⟨⟨withX 1 64 onD, 1, rfl, by decide +kernel, by decide +kernel⟩,
   ⟨withX 1 1 (withRays [ray 0 (some (rayEnd 0 7 0)) none] onD), 1, 2, rfl, by decide +kernel, by decide +kernel, by decide +kernel⟩,
   ⟨withX 1 1 (withRays (List.replicate 16 (ray 5 (some (rayEnd 0 7 0)) none)) onD), 1, 2, rfl, by decide +kernel, by decide +kernel, by decide +kernel, by decide +kernel⟩,
   ⟨withX 1 1 (withRays (List.replicate 1024 (ray 5 none none)) onD), 1, 2, rfl, by decide +kernel, by decide +kernel, by decide +kernel, by decide +kernel, by decide +kernel, by decide +kernel⟩,
   ⟨withX 1 1 (withRays [ray 0 none (some (rayEnd 1 9 0))] onD), 1, 2, rfl, by decide +kernel, by decide +kernel, by decide +kernel, by decide +kernel, by decide +kernel⟩⟩

theorem witness_RayClosesAndGrants :
    (∃ (s : State) (a : BitVec 5), s.cur.convoy = [] ∧ rayWith Ray.send s (threadOf s.cur) (rx s a).toNat = none ∧ rayWith Ray.recv s (threadOf s.cur) (rx s a).toNat = none) ∧
    (∃ (s : State) (a : BitVec 5), s.cur.convoy = [] ∧ rayWith Ray.send s (threadOf s.cur) (rx s a).toNat ≠ none) ∧
    (∃ (s : State) (a b : BitVec 5) (d : Nat) (r : Ray), s.cur.convoy = [] ∧ rayWith Ray.recv s (threadOf s.cur) (rx s a).toNat = some (d, r) ∧ crossCore s r = true ∧ asideBudget s (threadOf s.cur) < (rx s b).toNat) ∧
    (∃ (s : State) (a b : BitVec 5) (d : Nat) (r : Ray), s.cur.convoy = [] ∧ rayWith Ray.recv s (threadOf s.cur) (rx s a).toNat = some (d, r) ∧ crossCore s r = true ∧ ¬(asideBudget s (threadOf s.cur) < (rx s b).toNat)) :=
  ⟨⟨onD, 1, rfl, by decide +kernel, by decide +kernel⟩, ⟨withX 1 7 (withRays [ray 0 (some (rayEnd 0 7 0)) none] onD), 1, rfl, by decide +kernel⟩,
   ⟨withX 2 5000 (withX 1 9 (withRays [ray 0 (some (rayEnd 1 7 0)) (some (rayEnd 0 9 0))] (twoCores onD))), 1, 2, 0, ray 0 (some (rayEnd 1 7 0)) (some (rayEnd 0 9 0)), rfl, by decide +kernel, by decide +kernel, by decide +kernel⟩,
   ⟨withX 2 4 (withX 1 9 (withRays [ray 0 (some (rayEnd 1 7 0)) (some (rayEnd 0 9 0))] (twoCores onD))), 1, 2, 0, ray 0 (some (rayEnd 1 7 0)) (some (rayEnd 0 9 0)), rfl, by decide +kernel, by decide +kernel, by decide +kernel⟩⟩

/-- A ray whose sender is the focus, with a receiver on another core, and one with a receiver on the same core. -/
def farRay : Ray := ray 0 (some (rayEnd 0 7 0)) (some (rayEnd 1 9 0))
def nearRay : Ray := ray 0 (some (rayEnd 0 7 0)) (some (rayEnd 0 9 0))

theorem witness_Sends :
    (∃ (s : State) (b : BitVec 5), s.cur.convoy = [] ∧ s.cur.validMode = true ∧ (vreg s.cur b.toNat).valid = false) ∧
    (∃ (s : State) (a : BitVec 5), s.cur.convoy = [] ∧ s.cur.validMode = false ∧ rayWith Ray.send s (threadOf s.cur) (rx s a).toNat = none) ∧
    (∃ (s : State) (a b : BitVec 5) (d : Nat) (r : Ray), s.cur.convoy = [] ∧ s.cur.validMode = false ∧ rayWith Ray.send s (threadOf s.cur) (rx s a).toNat = some (d, r) ∧ r.granted - r.arrived < ceilDiv (chainLen (vreg s.cur b.toNat)) 256) ∧
    (∃ (s : State) (a b : BitVec 5) (d : Nat) (r : Ray) (e : RayEnd), s.cur.convoy = [] ∧ s.cur.validMode = false ∧ rayWith Ray.send s (threadOf s.cur) (rx s a).toNat = some (d, r) ∧ r.recv = some e ∧
      ceilDiv (chainLen (vreg s.cur b.toNat)) 256 ≤ r.granted - r.arrived ∧ PoolOk s ∧ (∀ x ∈ (coreAt s s.core).segs, x.2.count < 128 ∧ x.2.badData = false ∧ x.2.badEntry = false) ∧ (vreg s.cur b.toNat).pieces.length ≤ 64 ∧
      crossCore s r = false) ∧
    (∃ (s : State) (a b : BitVec 5) (d : Nat) (r : Ray) (e : RayEnd), s.cur.convoy = [] ∧ s.cur.validMode = false ∧ rayWith Ray.send s (threadOf s.cur) (rx s a).toNat = some (d, r) ∧ r.recv = some e ∧
      ceilDiv (chainLen (vreg s.cur b.toNat)) 256 ≤ r.granted - r.arrived ∧ PoolOk s ∧ (∀ x ∈ (coreAt s s.core).segs, x.2.count < 128 ∧ x.2.badData = false ∧ x.2.badEntry = false) ∧ (vreg s.cur b.toNat).pieces.length ≤ 64 ∧
      crossCore s r = true ∧ coreOfThread s e.thread ≠ s.core ∧ canReceive s r e (ceilDiv (chainLen (vreg s.cur b.toNat)) 256)) :=
  ⟨⟨inCtx (fun c => { c with validMode := true, v := c.v.set 1 Chain.invalid }) onD, 1, rfl, rfl, by decide +kernel⟩, ⟨onD, 1, rfl, rfl, by decide +kernel⟩,
   ⟨withX 5 7 (withRays [{ nearRay with granted := 0 }] (inVec 5 16 onD)), 5, 1, 0, { nearRay with granted := 0 }, rfl, rfl, by decide +kernel, by decide +kernel⟩,
   ⟨withX 5 7 (withRays [nearRay] (inVec 5 16 onD)), 5, 1, 0, nearRay, rayEnd 0 9 0, rfl, rfl, by decide +kernel, rfl, by decide +kernel, poolOk (by decide +kernel), by decide +kernel, by decide +kernel, by decide +kernel⟩,
   ⟨withX 5 7 (withRays [farRay] (twoCores (inVec 5 16 onD))), 5, 1, 0, farRay, rayEnd 1 9 0, rfl, rfl, by decide +kernel, rfl, by decide +kernel, poolOk (by decide +kernel), by decide +kernel, by decide +kernel, by decide +kernel, by decide +kernel,
    by unfold canReceive; decide +kernel⟩⟩

theorem witness_TileBroadcasts :
    (∃ (s : State) (b : BitVec 5) (a : BitVec 3), MtReady s (.mbcast b a) ∧ mshapeOk (shapeOf s a.toNat) = true ∧ s.badCells = [] ∧ rayWith Ray.send s (threadOf s.cur) (rx s b).toNat = none) ∧
    (∃ (s : State) (b : BitVec 5) (a : BitVec 3) (d : Nat) (r : Ray), MtReady s (.mbcast b a) ∧ mshapeOk (shapeOf s a.toNat) = true ∧ s.badCells = [] ∧
      rayWith Ray.send s (threadOf s.cur) (rx s b).toNat = some (d, r) ∧ (shapeOf s a.toNat).fmt = 4 ∧ (shapeOf s a.toNat).cols % 32 ≠ 0) ∧
    (∃ (s : State) (b : BitVec 5) (a : BitVec 3) (d : Nat) (r : Ray), MtReady s (.mbcast b a) ∧ mshapeOk (shapeOf s a.toNat) = true ∧ s.badCells = [] ∧
      rayWith Ray.send s (threadOf s.cur) (rx s b).toNat = some (d, r) ∧ (shapeOf s a.toNat).fmt ≠ 4 ∧ r.granted - r.arrived < ceilDiv ((shapeOf s a.toNat).rows * 128) 256) ∧
    (∃ (s : State) (b : BitVec 5) (a : BitVec 3) (d : Nat) (r : Ray) (e : RayEnd), MtReady s (.mbcast b a) ∧ mshapeOk (shapeOf s a.toNat) = true ∧ s.badCells = [] ∧
      rayWith Ray.send s (threadOf s.cur) (rx s b).toNat = some (d, r) ∧ (shapeOf s a.toNat).fmt ≠ 4 ∧ r.recv = some e ∧
      ceilDiv ((shapeOf s a.toNat).rows * 128) 256 ≤ r.granted - r.arrived ∧ PoolOk s ∧ crossCore s r = false ∧ ceilDiv ((shapeOf s a.toNat).rows * 128) 256 ≤ allocatable s s.curKey) ∧
    (∃ (s : State) (b : BitVec 5) (a : BitVec 3) (d : Nat) (r : Ray) (e : RayEnd), MtReady s (.mbcast b a) ∧ mshapeOk (shapeOf s a.toNat) = true ∧ s.badCells = [] ∧
      rayWith Ray.send s (threadOf s.cur) (rx s b).toNat = some (d, r) ∧ (shapeOf s a.toNat).fmt ≠ 4 ∧ r.recv = some e ∧
      ceilDiv ((shapeOf s a.toNat).rows * 128) 256 ≤ r.granted - r.arrived ∧ PoolOk s ∧ crossCore s r = true ∧ coreOfThread s e.thread ≠ s.core ∧ canReceive s r e (ceilDiv ((shapeOf s a.toNat).rows * 128) 256)) :=
  ⟨⟨rowState, 5, 0, mtReady rfl (by simp) (by decide +kernel), by decide +kernel, rfl, by decide +kernel⟩,
   ⟨withX 5 7 (withRays [nearRay] (shaped 0 { fmt := 4, rows := 1, cols := 16 } onD)), 5, 0, 0, nearRay, mtReady rfl (by simp) (by decide +kernel), by decide +kernel, rfl, by decide +kernel, by decide +kernel, by decide +kernel⟩,
   ⟨withX 5 7 (withRays [{ nearRay with granted := 0 }] rowState), 5, 0, 0, { nearRay with granted := 0 }, mtReady rfl (by simp) (by decide +kernel), by decide +kernel, rfl, by decide +kernel, by decide +kernel, by decide +kernel⟩,
   ⟨withX 5 7 (withRays [nearRay] rowState), 5, 0, 0, nearRay, rayEnd 0 9 0, mtReady rfl (by simp) (by decide +kernel), by decide +kernel, rfl, by decide +kernel, by decide +kernel, rfl, by decide +kernel, poolOk (by decide +kernel),
    by decide +kernel, by decide +kernel⟩,
   ⟨withX 5 7 (withRays [farRay] (twoCores rowState)), 5, 0, 0, farRay, rayEnd 1 9 0, mtReady rfl (by simp) (by decide +kernel), by decide +kernel, rfl, by decide +kernel, by decide +kernel, rfl, by decide +kernel, poolOk (by decide +kernel),
    by decide +kernel, by decide +kernel, by unfold canReceive; decide +kernel⟩⟩

/-- A ray on which the focus receives in a mode, with a message of n segments of v3's at its head. -/
def recvRay (mode n : Nat) : Ray := { ray 0 none (some (rayEnd 0 9 mode)) with arrived := n, queue := if n = 0 then [] else [{ type := 5, pieces := List.replicate n { seg := 2, first := 0, count := 256 } }] }

/-- The state in which the focus receives on it. -/
def receiving (mode n : Nat) : State := withX 5 9 (withRays [recvRay mode n] (inVec 5 16 onD))

theorem witness_Receives :
    (∃ (s : State) (a : BitVec 5), s.cur.convoy = [] ∧ rayWith Ray.recv s (threadOf s.cur) (rx s a).toNat = none) ∧
    (∃ (s : State) (a : BitVec 5) (d : Nat) (r : Ray) (e : RayEnd), s.cur.convoy = [] ∧ rayWith Ray.recv s (threadOf s.cur) (rx s a).toNat = some (d, r) ∧ r.recv = some e ∧ (rx s a).toNat ∈ s.cur.expiredRay ∧ e.mode = 0) ∧
    (∃ (s : State) (a : BitVec 5) (d : Nat) (r : Ray) (e : RayEnd), s.cur.convoy = [] ∧ rayWith Ray.recv s (threadOf s.cur) (rx s a).toNat = some (d, r) ∧ r.recv = some e ∧ (rx s a).toNat ∈ s.cur.expiredRay ∧ e.mode ≠ 0) ∧
    (∃ (s : State) (a : BitVec 5) (d : Nat) (r : Ray) (e : RayEnd), s.cur.convoy = [] ∧ rayWith Ray.recv s (threadOf s.cur) (rx s a).toNat = some (d, r) ∧ r.recv = some e ∧ (rx s a).toNat ∉ s.cur.expiredRay ∧ r.queue = []) ∧
    (∃ (s : State) (a : BitVec 5) (d : Nat) (r : Ray) (e : RayEnd) (m : Msg) (rest : List Msg), s.cur.convoy = [] ∧ rayWith Ray.recv s (threadOf s.cur) (rx s a).toNat = some (d, r) ∧ r.recv = some e ∧ (rx s a).toNat ∉ s.cur.expiredRay ∧
      r.queue = m :: rest ∧ e.mode = 0 ∧ ∀ x ∈ (coreAt s s.core).segs, x.2.badEntry = false) ∧
    (∃ (s : State) (a : BitVec 5) (d : Nat) (r : Ray) (e : RayEnd) (m : Msg) (rest : List Msg), s.cur.convoy = [] ∧ rayWith Ray.recv s (threadOf s.cur) (rx s a).toNat = some (d, r) ∧ r.recv = some e ∧ (rx s a).toNat ∉ s.cur.expiredRay ∧
      r.queue = m :: rest ∧ e.mode ≠ 0 ∧ (e.mode = 1 → tileLoading s e.target = false) ∧ (msgBytes s s.core m).length % (if e.mode = 1 then 128 else 512) ≠ 0) ∧
    (∃ (s : State) (a : BitVec 5) (d : Nat) (r : Ray) (e : RayEnd) (m : Msg) (rest : List Msg), s.cur.convoy = [] ∧ rayWith Ray.recv s (threadOf s.cur) (rx s a).toNat = some (d, r) ∧ r.recv = some e ∧ (rx s a).toNat ∉ s.cur.expiredRay ∧
      r.queue = m :: rest ∧ RowPlain s ∧ e.mode = 1 ∧ tileLoading s e.target = false ∧ (msgBytes s s.core m).length % 128 = 0 ∧ (msgBytes s s.core m).length ≤ 16384 ∧ e.target < 8) ∧
    (∃ (s : State) (a : BitVec 5) (d : Nat) (r : Ray) (e : RayEnd) (m : Msg) (rest : List Msg), s.cur.convoy = [] ∧ rayWith Ray.recv s (threadOf s.cur) (rx s a).toNat = some (d, r) ∧ r.recv = some e ∧ (rx s a).toNat ∉ s.cur.expiredRay ∧
      r.queue = m :: rest ∧ RowPlain s ∧ 2 ≤ e.mode ∧ (msgBytes s s.core m).length % 512 = 0 ∧ (msgBytes s s.core m).length ≤ 65536 ∧ e.target < 2) ∧
    (∃ (s : State) (a : BitVec 5) (d : Nat) (r : Ray) (e : RayEnd) (m : Msg) (rest : List Msg), s.cur.convoy = [] ∧ rayWith Ray.recv s (threadOf s.cur) (rx s a).toNat = some (d, r) ∧ r.recv = some e ∧ (rx s a).toNat ∉ s.cur.expiredRay ∧
      r.queue = m :: rest ∧ e.mode = 1 ∧ tileLoading s e.target = true) :=
  ⟨⟨onD, 1, rfl, by decide +kernel⟩,
   ⟨inCtx (fun c => { c with expiredRay := [9] }) (receiving 0 0), 5, 0, recvRay 0 0, rayEnd 0 9 0, rfl, by decide +kernel, rfl, by decide +kernel, rfl⟩,
   ⟨inCtx (fun c => { c with expiredRay := [9] }) (receiving 1 0), 5, 0, recvRay 1 0, rayEnd 0 9 1, rfl, by decide +kernel, rfl, by decide +kernel, by decide⟩,
   ⟨receiving 1 0, 5, 0, recvRay 1 0, rayEnd 0 9 1, rfl, by decide +kernel, rfl, by decide +kernel, rfl⟩,
   ⟨receiving 0 1, 5, 0, recvRay 0 1, rayEnd 0 9 0, _, _, rfl, by decide +kernel, rfl, by decide +kernel, rfl, rfl, by decide +kernel⟩,
   ⟨receiving 2 1, 5, 0, recvRay 2 1, rayEnd 0 9 2, _, _, rfl, by decide +kernel, rfl, by decide +kernel, rfl, by decide, nofun, by decide +kernel⟩,
   ⟨receiving 1 1, 5, 0, recvRay 1 1, rayEnd 0 9 1, _, _, rfl, by decide +kernel, rfl, by decide +kernel, rfl, by unfold RowPlain tilesOk; decide +kernel, by decide, noTileLoad rfl _, by decide +kernel, by decide +kernel, by decide⟩,
   ⟨receiving 2 2, 5, 0, recvRay 2 2, rayEnd 0 9 2, _, _, rfl, by decide +kernel, rfl, by decide +kernel, rfl, by unfold RowPlain tilesOk; decide +kernel, by decide, by decide +kernel, by decide +kernel, by decide⟩,
   ⟨loadingInto 0 (receiving 1 1), 5, 0, recvRay 1 1, rayEnd 0 9 1, _, _, rfl, by decide +kernel, rfl, by decide +kernel, rfl, rfl, by decide +kernel⟩⟩

/-! ## Hypotheses that can be met: records, copies, barriers and collectives -/

/-- Bytes in the core's scratchpad. -/
def scratch (off : Nat) (bs : List Byte) (s : State) : State := { s with mem := setBytes (scratchKey 0 off) bs s.mem }

/-- A record that the scalar unit reads from the scratchpad, as a yes or no. -/
def isRecord (s : State) (n : Nat) (va : Word) (bytes : List Byte) : Bool :=
  decide (va.toNat % n = 0) && (match scalarPlace s (who s) .load va.toNat with
    | .ok (.mem k, none) => !scoreboardStalls s k n false && !hasError k n s && decide (bytes = seeBytes s .scalar k n)
    | _ => false)

theorem recordRead {s : State} {n : Nat} {va : Word} {bytes : List Byte} (h : isRecord s n va bytes = true) : RecordRead s n va bytes s := by
  simp only [isRecord, Bool.and_eq_true, decide_eq_true_eq] at h
  obtain ⟨h, g⟩ := h
  split at g
  · next k e =>
    simp only [Bool.and_eq_true, Bool.not_eq_true', decide_eq_true_eq] at g
    exact ⟨h, k, none, e, g.1.1, g.1.2, g.2, rfl⟩
  · cases g

/-- An uncorrectable error stands at a byte. -/
def withBad (k : Nat) (s : State) : State := { s with badCells := [(k, 1)] }

theorem witness_RecordFaults :
    (∃ i s n a, s.cur.convoy = [] ∧ recordForm i = some (n, a) ∧ (rx s a).toNat % n ≠ 0) ∧
    (∃ i s n a f, s.cur.convoy = [] ∧ recordForm i = some (n, a) ∧ (rx s a).toNat % n = 0 ∧ scalarPlace s (who s) .load (rx s a).toNat = .error f ∧ f ≠ 27 ∧ f ≠ heldCode) ∧
    (∃ i s n a, s.cur.convoy = [] ∧ recordForm i = some (n, a) ∧ (rx s a).toNat % n = 0 ∧ scalarPlace s (who s) .load (rx s a).toNat = .error heldCode) ∧
    (∃ i s n a k, s.cur.convoy = [] ∧ recordForm i = some (n, a) ∧ (rx s a).toNat % n = 0 ∧ scoreboardStalls s k n false = false ∧ hasError k n s = true ∧
      ∃ use, scalarPlace s (who s) .load (rx s a).toNat = .ok (.mem k, use)) :=
  ⟨⟨.vcollapse 1 2, withX 1 32 onD, 64, 1, rfl, rfl, by decide +kernel⟩, ⟨.ctest 2 1 3, withX 1 0x10000 onD, 16, 1, 26, rfl, rfl, by decide +kernel, isFault_iff (by decide +kernel), by decide, by decide⟩,
   ⟨.twait 2 0 3, tlbKept onD, 16, 0, rfl, rfl, by decide +kernel, isFault_iff (by decide +kernel)⟩,
   ⟨.ccopy 2 1 3, withBad 0x30045 (withX 1 0x40 onD), 64, 1, 0x30040, rfl, rfl, by decide +kernel, by decide +kernel, by decide +kernel, isMem_iff (by decide +kernel)⟩⟩

/-- A shape record: base, element size as a power of two, extents and strides of up to four dimensions. -/
def shapeBytes (base size : Nat) (dims : List (Nat × Nat)) : List Byte :=
  bytesOf 8 base ++ bytesOf 8 (size + dims.length * 16) ++ (upTo 4).flatMap (fun i => bytesOf 4 (dims.getD i (0, 0)).1) ++ (upTo 4).flatMap (fun i => bytesOf 8 (dims.getD i (0, 0)).2)

/-- The focus with a shape record at scratchpad address 64, whose address is in x1. -/
def withShape (base size : Nat) (dims : List (Nat × Nat)) : State := scratch 64 (shapeBytes base size dims) (withX 1 (local' 64) onD)

theorem witness_ShapeGrants :
    (∃ s u a r, s.cur.convoy = [] ∧ RecordRead s 64 (rx s a) r u ∧ readShape r = none) ∧
    (∃ s u a r h, s.cur.convoy = [] ∧ RecordRead s 64 (rx s a) r u ∧ readShape r = some h ∧ h.isEmpty = true) ∧
    (∃ s u a r h d0 rest, s.cur.convoy = [] ∧ RecordRead s 64 (rx s a) r u ∧ readShape r = some h ∧ h.isEmpty = false ∧ h.dims = d0 :: rest ∧ ∃ e ∈ (mergeDims d0.ext d0 rest).2, 1048575 < e) ∧
    (∃ s u a r h d0 rest, s.cur.convoy = [] ∧ RecordRead s 64 (rx s a) r u ∧ readShape r = some h ∧ h.isEmpty = false ∧ h.dims = d0 :: rest ∧ ∀ e ∈ (mergeDims d0.ext d0 rest).2, e ≤ 1048575) :=
  ⟨⟨withShape 1 1 [(3, 2)], _, 1, shapeBytes 1 1 [(3, 2)], rfl, recordRead (by decide +kernel), by decide +kernel⟩,
   ⟨withShape 0 2 [(4, 4), (0, 16)], _, 1, shapeBytes 0 2 [(4, 4), (0, 16)], { base := 0, size := 4, dims := [⟨4, 4⟩, ⟨0, 16⟩] }, rfl, recordRead (by decide +kernel), by decide +kernel, by decide +kernel⟩,
   ⟨withShape 0 0 [(4, 1), (1048576, 8)], _, 1, shapeBytes 0 0 [(4, 1), (1048576, 8)], { base := 0, size := 1, dims := [⟨4, 1⟩, ⟨1048576, 8⟩] }, _, _, rfl, recordRead (by decide +kernel), by decide +kernel, by decide +kernel, rfl, by decide +kernel⟩,
   ⟨withShape 0 0 [(4, 1), (2, 4), (1048575, 16)], _, 1, shapeBytes 0 0 [(4, 1), (2, 4), (1048575, 16)], { base := 0, size := 1, dims := [⟨4, 1⟩, ⟨2, 4⟩, ⟨1048575, 16⟩] }, _, _, rfl, recordRead (by decide +kernel), by decide +kernel,
    by decide +kernel, rfl, by decide +kernel⟩⟩

/-- A copy command. -/
def copyBytes (far off len shape flags : Nat) : List Byte := bytesOf 8 far ++ bytesOf 8 off ++ bytesOf 8 len ++ bytesOf 8 shape ++ bytesOf 8 flags ++ List.replicate 24 0

/-- The focus with a copy command at scratchpad address 128, whose address is in x1. -/
def withCopy (far off len shape flags : Nat) (s : State) : State := scratch 128 (copyBytes far off len shape flags) (withX 1 (local' 128) s)

theorem witness_Copies :
    (∃ s u a r, s.cur.convoy = [] ∧ RecordRead s 64 (rx s a) r u ∧ ¬commandOk r) ∧
    (∃ s u a r c o, s.cur.convoy = [] ∧ RecordRead s 64 (rx s a) r u ∧ commandOk r ∧ BitVec.ofNat 64 (recNat r 24 8) = (0 : Word) ∧ localFault u u.core (recNat r 8 8) (recNat r 16 4) = some (c, o)) ∧
    (∃ s u a r, s.cur.convoy = [] ∧ RecordRead s 64 (rx s a) r u ∧ commandOk r ∧ BitVec.ofNat 64 (recNat r 24 8) = (0 : Word) ∧ localFault u u.core (recNat r 8 8) (recNat r 16 4) = none ∧ s.cur.release = none ∧
      (coreAt s s.core).scored.length < 32 ∧ s.cur.task ≠ none ∧ recNat r 16 4 = 0) ∧
    (∃ s u a r, s.cur.convoy = [] ∧ RecordRead s 64 (rx s a) r u ∧ commandOk r ∧ BitVec.ofNat 64 (recNat r 24 8) = (0 : Word) ∧ localFault u u.core (recNat r 8 8) (recNat r 16 4) = none ∧ s.cur.release = none ∧
      (coreAt s s.core).scored.length < 32 ∧ s.cur.task ≠ none ∧ recNat r 16 4 ≠ 0) ∧
    (∃ s u v a r rec, s.cur.convoy = [] ∧ RecordRead s 64 (rx s a) r u ∧ commandOk r ∧ BitVec.ofNat 64 (recNat r 24 8) ≠ (0 : Word) ∧ RecordRead u 64 (BitVec.ofNat 64 (recNat r 24 8)) rec v ∧ readShape rec = none) ∧
    (∃ s u a r, s.cur.convoy = [] ∧ RecordRead s 64 (rx s a) r u ∧ commandOk r ∧ (BitVec.ofNat 64 (recNat r 24 8) : Word).toNat % 64 ≠ 0) ∧
    (∃ s u v a r rec h, s.cur.convoy = [] ∧ RecordRead s 64 (rx s a) r u ∧ commandOk r ∧ BitVec.ofNat 64 (recNat r 24 8) ≠ (0 : Word) ∧ RecordRead u 64 (BitVec.ofNat 64 (recNat r 24 8)) rec v ∧ readShape rec = some h ∧
      h.valid (decide (recNat r 32 8 % 2 = 1)) = false) ∧
    (∃ s u v a r rec h, s.cur.convoy = [] ∧ RecordRead s 64 (rx s a) r u ∧ commandOk r ∧ BitVec.ofNat 64 (recNat r 24 8) ≠ (0 : Word) ∧ RecordRead u 64 (BitVec.ofNat 64 (recNat r 24 8)) rec v ∧ readShape rec = some h ∧
      h.valid (decide (recNat r 32 8 % 2 = 1)) = true ∧ localFault v v.core (recNat r 8 8) (h.count * h.size) = none ∧ s.cur.release = none ∧ (coreAt s s.core).scored.length < 32 ∧ s.cur.task ≠ none) :=
  ⟨⟨withCopy 0 0 4 0 0xA1 onD, _, 1, copyBytes 0 0 4 0 0xA1, rfl, recordRead (by decide +kernel), by unfold commandOk; decide +kernel⟩,
   ⟨withCopy 0x100 0x1FFFFF 2 0 0 onD, _, 1, copyBytes 0x100 0x1FFFFF 2 0 0, 26, 0x200000, rfl, recordRead (by decide +kernel), by unfold commandOk; decide +kernel, by decide +kernel, by decide +kernel⟩,
   ⟨withCopy 0x100 0 0 0 1 onD, _, 1, copyBytes 0x100 0 0 0 1, rfl, recordRead (by decide +kernel), by unfold commandOk; decide +kernel, by decide +kernel, by decide +kernel, rfl, by decide +kernel, by decide +kernel, by decide +kernel⟩,
   ⟨withCopy 0x100 0 64 0 0 onD, _, 1, copyBytes 0x100 0 64 0 0, rfl, recordRead (by decide +kernel), by unfold commandOk; decide +kernel, by decide +kernel, by decide +kernel, rfl, by decide +kernel, by decide +kernel, by decide +kernel⟩,
   ⟨withCopy 0x100 0 0 (local' 64).toNat 0 (withShape 1 1 [(3, 2)]), _, _, 1, copyBytes 0x100 0 0 (local' 64).toNat 0, shapeBytes 1 1 [(3, 2)], rfl, recordRead (by decide +kernel), by unfold commandOk; decide +kernel, by decide +kernel,
    recordRead (by decide +kernel), by decide +kernel⟩,
   ⟨withCopy 0x100 0 0 32 0 onD, _, 1, copyBytes 0x100 0 0 32 0, rfl, recordRead (by decide +kernel), by unfold commandOk; decide +kernel, by decide +kernel⟩,
   ⟨withCopy 0x100 0 0 (local' 64).toNat 1 (withShape 0 1 [(3, 0)]), _, _, 1, copyBytes 0x100 0 0 (local' 64).toNat 1, shapeBytes 0 1 [(3, 0)], { base := 0, size := 2, dims := [⟨3, 0⟩] }, rfl, recordRead (by decide +kernel),
    by unfold commandOk; decide +kernel, by decide +kernel, recordRead (by decide +kernel), by decide +kernel, by decide +kernel⟩,
   ⟨withCopy 0x100 0 0 (local' 64).toNat 0 (withShape 0 1 [(3, 0)]), _, _, 1, copyBytes 0x100 0 0 (local' 64).toNat 0, shapeBytes 0 1 [(3, 0)], { base := 0, size := 2, dims := [⟨3, 0⟩] }, rfl, recordRead (by decide +kernel),
    by unfold commandOk; decide +kernel, by decide +kernel, recordRead (by decide +kernel), by decide +kernel, by decide +kernel, by decide +kernel, rfl, by decide +kernel, by decide +kernel⟩⟩

/-- The bytes of a completion object. -/
def objectBytes (value estat ecount : Nat) : List Byte := bytesOf 8 value ++ bytesOf 2 estat ++ bytesOf 2 ecount ++ List.replicate 4 0

/-- The focus with an object at scratchpad address 32, whose address is in x1, and a target in x2. -/
def withObject (value estat ecount : Nat) (target : Word) : State := scratch 32 (objectBytes value estat ecount) (withX 2 target (withX 1 (local' 32) onD))

theorem witness_Waits :
    (∃ i s u b a d o, s.cur.convoy = [] ∧ waitForm i = some (b, a, d) ∧ RecordRead s 16 (rx s a) o u ∧ (rx s b).toNat ≤ recNat o 0 8) ∧
    (∃ i s u b a d o, s.cur.convoy = [] ∧ waitForm i = some (b, a, d) ∧ RecordRead s 16 (rx s a) o u ∧ recNat o 0 8 < (rx s b).toNat ∧ i = .ctest b a d) ∧
    (∃ i s u b a d o, s.cur.convoy = [] ∧ waitForm i = some (b, a, d) ∧ RecordRead s 16 (rx s a) o u ∧ recNat o 0 8 < (rx s b).toNat ∧ i = .cwait b a d) ∧
    (∃ i s u b a d o, s.cur.convoy = [] ∧ waitForm i = some (b, a, d) ∧ RecordRead s 16 (rx s a) o u ∧ recNat o 0 8 < (rx s b).toNat ∧ i = .twait b a d) :=
  ⟨⟨.twait 2 1 3, withObject 4 1 1 4, _, 2, 1, 3, objectBytes 4 1 1, rfl, rfl, recordRead (by decide +kernel), by decide +kernel⟩,
   ⟨.ctest 2 1 3, withObject 4 1 1 5, _, 2, 1, 3, objectBytes 4 1 1, rfl, rfl, recordRead (by decide +kernel), by decide +kernel, rfl⟩,
   ⟨.cwait 2 1 3, withObject 4 1 1 5, _, 2, 1, 3, objectBytes 4 1 1, rfl, rfl, recordRead (by decide +kernel), by decide +kernel, rfl⟩,
   ⟨.twait 2 1 3, withObject 4 1 1 5, _, 2, 1, 3, objectBytes 4 1 1, rfl, rfl, recordRead (by decide +kernel), by decide +kernel, rfl⟩⟩

/-- A barrier of the placed region, of two arrivals, die-local, under handle 9. -/
def barrier : Barrier := { handle := 9, die := some 0, part := 0, region := 0, expected := 2, phase := 3, arrivals := 1, arrived := [1], registered := [1], contribs := [], plain := false, results := [], broken := false }

/-- The focus with that barrier changed, its handle in x1. -/
def atBarrier (f : Barrier → Barrier) (s : State) : State := updDie (withX 1 9 s) 0 (fun x => { x with barriers := [f barrier] })

/-- The focus has arrived in a phase. -/
def arrivedIn (p : Nat) (s : State) : State := inCtx (fun c => { c with lastArrival := [(9, p)] }) s

theorem witness_BarrierMaking :
    (∃ (s : State) (a b : BitVec 5), s.cur.convoy = [] ∧ (barrierHandles s).length ≤ 4096 ∧ (1 < (rx s a).toNat ∨ (rx s b).toNat = 0 ∨ 65535 < (rx s b).toNat)) ∧
    (∃ (s : State) (a b : BitVec 5), s.cur.convoy = [] ∧ (barrierHandles s).length ≤ 4096 ∧ (rx s a).toNat = 0 ∧ (rx s b).toNat = 65535 ∧ 256 ≤ (dieAt s s.die).barriers.length) ∧
    (∃ (s : State) (a b : BitVec 5), s.cur.convoy = [] ∧ (barrierHandles s).length ≤ 4096 ∧ (rx s a).toNat = 1 ∧ (rx s b).toNat = 1 ∧ (dieAt s 8).barriers.length < 1024) :=
  ⟨⟨withX 2 65536 onD, 1, 2, rfl, by decide +kernel, by decide +kernel⟩,
   ⟨withX 2 65535 (updDie onD 0 (fun x => { x with barriers := List.replicate 256 barrier })), 1, 2, rfl, by decide +kernel, by decide +kernel, by decide +kernel, by decide +kernel⟩,
   ⟨withX 1 1 (withX 2 1 (atBarrier id onD)), 1, 2, rfl, by decide +kernel, by decide +kernel, by decide +kernel, by decide +kernel⟩⟩

theorem witness_Arrivals :
    (∃ (s : State) (a : BitVec 5), s.cur.convoy = [] ∧ releaseNow s.curKey .die s = none ∧ barrierAt s (rx s a).toNat = none) ∧
    (∃ (s u : State) (a : BitVec 5), s.cur.convoy = [] ∧ barrierAt s (rx s a).toNat = none ∧ releaseNow s.curKey .die s = some u ∧ myBarrier u (rx s a).toNat = none) ∧
    (∃ (s u : State) (a : BitVec 5) (b : Barrier), s.cur.convoy = [] ∧ barrierAt s (rx s a).toNat = some b ∧ releaseNow s.curKey (barrierScope b) s = some u ∧ myBarrier u (rx s a).toNat = some b ∧ b.broken = false ∧
      b.arrivals + 1 < b.expected) ∧
    (∃ (s u : State) (a : BitVec 5) (b : Barrier), s.cur.convoy = [] ∧ barrierAt s (rx s a).toNat = some b ∧ releaseNow s.curKey (barrierScope b) s = some u ∧ myBarrier u (rx s a).toNat = some b ∧ b.broken = false ∧
      b.expected ≤ b.arrivals + 1) :=
  ⟨⟨inCtx (fun c => { c with release := some .sys }) onD, 1, rfl, rfl, by decide +kernel⟩,
   ⟨onD, _, 1, rfl, by decide +kernel, rfl, by decide +kernel⟩,
   ⟨atBarrier (fun b => { b with expected := 3 }) onD, _, 1, { barrier with expected := 3 }, rfl, by decide +kernel, rfl, by decide +kernel, rfl, by decide⟩,
   ⟨atBarrier id onD, _, 1, barrier, rfl, by decide +kernel, rfl, by decide +kernel, rfl, by decide⟩⟩

/-- A context on core 1 waits at the barrier. -/
def waiterOn1 (s : State) : State := { s with parked := [(4, { Ctx.reset with state := .waiting (.barrier 3 9 3), task := some { placedTask with thread := 1 } })] }

theorem witness_BarrierWaits :
    (∃ (s : State) (a : BitVec 5), s.cur.convoy = [] ∧ myBarrier s (rx s a).toNat = none) ∧
    (∃ (s : State) (a : BitVec 5) (b : Barrier), s.cur.convoy = [] ∧ myBarrier s (rx s a).toNat = some b ∧ lookupKey (rx s a).toNat s.cur.lastArrival = none) ∧
    (∃ (s : State) (a : BitVec 5) (b : Barrier) (p : Nat), s.cur.convoy = [] ∧ myBarrier s (rx s a).toNat = some b ∧ lookupKey (rx s a).toNat s.cur.lastArrival = some p ∧
      ¬(∃ r ∈ b.results, r.thread = threadOf s.cur ∧ r.phase = p) ∧ b.broken = true) ∧
    (∃ (s : State) (a : BitVec 5) (b : Barrier) (p : Nat), s.cur.convoy = [] ∧ myBarrier s (rx s a).toNat = some b ∧ lookupKey (rx s a).toNat s.cur.lastArrival = some p ∧
      (∃ r ∈ b.results, r.thread = threadOf s.cur ∧ r.phase = p) ∧ b.broken = true) ∧
    (∃ (s : State) (a : BitVec 5) (b : Barrier) (p : Nat), s.cur.convoy = [] ∧ myBarrier s (rx s a).toNat = some b ∧ lookupKey (rx s a).toNat s.cur.lastArrival = some p ∧ b.broken = false ∧ p < b.phase ∧ b.die = none) ∧
    (∃ (s : State) (a : BitVec 5) (b : Barrier) (p : Nat), s.cur.convoy = [] ∧ myBarrier s (rx s a).toNat = some b ∧ lookupKey (rx s a).toNat s.cur.lastArrival = some p ∧
      ¬(∃ r ∈ b.results, r.thread = threadOf s.cur ∧ r.phase = p) ∧ b.broken = false ∧ b.phase ≤ p) ∧
    (∃ (s : State) (key : Nat) (c : Ctx) (rd : BitVec 5) (g p : Nat), key < 2 ^ 32 ∧ ctxAt s key = c ∧ c.state = .waiting (.barrier rd g p) ∧ slotOfThread s (threadOf c) = some key) :=
  ⟨⟨onD, 1, rfl, by decide +kernel⟩, ⟨atBarrier id onD, 1, barrier, rfl, by decide +kernel, by decide +kernel⟩,
   ⟨arrivedIn 3 (atBarrier (fun b => { b with broken := true }) onD), 1, { barrier with broken := true }, 3, rfl, by decide +kernel, by decide +kernel, by simp [barrier], rfl⟩,
   ⟨arrivedIn 2 (atBarrier (fun b => { b with broken := true, results := [{ thread := 0, phase := 2, status := 0, bytes := [] }] }) onD), 1, { barrier with broken := true, results := [{ thread := 0, phase := 2, status := 0, bytes := [] }] }, 2, rfl,
    by decide +kernel, by decide +kernel, by decide +kernel, rfl⟩,
   ⟨arrivedIn 2 (updDie (withX 1 9 onD) 8 (fun x => { x with barriers := [{ barrier with die := none }] })), 1, { barrier with die := none }, 2, rfl, by decide +kernel, by decide +kernel, rfl, by decide, rfl⟩,
   ⟨arrivedIn 3 (atBarrier id onD), 1, barrier, 3, rfl, by decide +kernel, by decide +kernel, by simp [barrier], rfl, by decide⟩,
   ⟨waiterOn1 onD, 4, _, 3, 9, 3, by decide, rfl, by decide +kernel, by decide +kernel⟩⟩

/-- Results held for the focus. -/
def withHeld (status : Nat) (s : State) : State := atBarrier (fun b => { b with results := [{ thread := 0, phase := 2, status := status, bytes := List.replicate 16 7 }] }) s

theorem witness_Collectives :
    (∃ (i : Instr) (s : State) (w : Word32) (op : CombOp) (b a d : BitVec 5), s.cur.convoy = [] ∧ encode i = some w ∧ collForm i = some (op, b, a, d) ∧ ¬(s.cur.vtype ≠ 0 ∧ acceptsType (.scan op) s.cur.vtype = true)) ∧
    (∃ (i : Instr) (s : State) (w : Word32) (op : CombOp) (b a d : BitVec 5), s.cur.convoy = [] ∧ encode i = some w ∧ collForm i = some (op, b, a, d) ∧ (s.cur.vtype ≠ 0 ∧ acceptsType (.scan op) s.cur.vtype = true) ∧
      s.cur.validMode = true ∧ (vreg s.cur b.toNat).valid = false) ∧
    (∃ (i : Instr) (s : State) (w : Word32) (op : CombOp) (b a d : BitVec 5), s.cur.convoy = [] ∧ encode i = some w ∧ collForm i = some (op, b, a, d) ∧ (s.cur.vtype ≠ 0 ∧ acceptsType (.scan op) s.cur.vtype = true) ∧
      s.cur.validMode = false ∧ myBarrier s (rx s a).toNat = none) ∧
    (∃ (i : Instr) (s : State) (w : Word32) (op : CombOp) (b a d : BitVec 5) (x : Barrier) (r : CollResult), s.cur.convoy = [] ∧ encode i = some w ∧ collForm i = some (op, b, a, d) ∧ (s.cur.vtype ≠ 0 ∧ acceptsType (.scan op) s.cur.vtype = true) ∧
      s.cur.validMode = false ∧ myBarrier s (rx s a).toNat = some x ∧ x.results.find? (·.thread == threadOf s.cur) = some r ∧ r.status ≠ 0) ∧
    (∃ (i : Instr) (s : State) (w : Word32) (op : CombOp) (b a d : BitVec 5) (x : Barrier) (r : CollResult), s.cur.convoy = [] ∧ encode i = some w ∧ collForm i = some (op, b, a, d) ∧ (s.cur.vtype ≠ 0 ∧ acceptsType (.scan op) s.cur.vtype = true) ∧
      s.cur.validMode = false ∧ myBarrier s (rx s a).toNat = some x ∧ x.results.find? (·.thread == threadOf s.cur) = some r ∧ r.status = 0 ∧ badEntryIn (coreAt s s.core) (vreg s.cur b.toNat) = false ∧
      (writeResult s.curKey b.toNat s.cur.vtype r.bytes.length 0 r.bytes s).isSome = true) ∧
    (∃ (i : Instr) (s u : State) (w : Word32) (op : CombOp) (b a d : BitVec 5) (x : Barrier), s.cur.convoy = [] ∧ encode i = some w ∧ collForm i = some (op, b, a, d) ∧ (s.cur.vtype ≠ 0 ∧ acceptsType (.scan op) s.cur.vtype = true) ∧
      s.cur.validMode = false ∧ myBarrier s (rx s a).toNat = some x ∧ x.results.find? (·.thread == threadOf s.cur) = none ∧ chainError s [b.toNat] = none ∧ releaseNow s.curKey (barrierScope x) s = some u ∧
      barrierAt u (rx s a).toNat = some x ∧ x.broken = true) ∧
    (∃ (i : Instr) (s u : State) (w : Word32) (op : CombOp) (b a d : BitVec 5) (x : Barrier), s.cur.convoy = [] ∧ encode i = some w ∧ collForm i = some (op, b, a, d) ∧ (s.cur.vtype ≠ 0 ∧ acceptsType (.scan op) s.cur.vtype = true) ∧
      s.cur.validMode = false ∧ myBarrier s (rx s a).toNat = some x ∧ x.results.find? (·.thread == threadOf s.cur) = none ∧ chainError s [b.toNat] = none ∧ releaseNow s.curKey (barrierScope x) s = some u ∧
      barrierAt u (rx s a).toNat = some x ∧ x.broken = false ∧ slotOfThread u (threadOf u.cur) = some u.curKey ∧ x.expected ≤ x.arrivals + 1 ∧
      (x.plain = false ∧ ∀ c ∈ x.contribs, c.op = op ∧ c.vl = u.cur.vl ∧ c.vtype = s.cur.vtype)) :=
  ⟨⟨.collOr 2 1 3, inVec 10 16 onD, _, .or, 2, 1, 3, rfl, rfl, rfl, by decide +kernel⟩,
   ⟨.collAdd 4 1 3, inCtx (fun c => { c with validMode := true, v := c.v.set 4 Chain.invalid }) (inVec 5 16 onD), _, .add, 4, 1, 3, rfl, rfl, rfl, by decide +kernel, rfl, by decide +kernel⟩,
   ⟨.collMin 2 4 3, inVec 5 16 onD, _, .min, 2, 4, 3, rfl, rfl, rfl, by decide +kernel, rfl, by decide +kernel⟩,
   ⟨.collMax 2 1 3, withHeld 4 (inVec 5 16 onD), _, .max, 2, 1, 3, { barrier with results := [⟨0, 2, 4, List.replicate 16 7⟩] }, ⟨0, 2, 4, List.replicate 16 7⟩, rfl, rfl, rfl, by decide +kernel, rfl, by decide +kernel, by decide +kernel, by decide⟩,
   ⟨.collMax 2 1 3, withHeld 0 (inVec 5 16 onD), _, .max, 2, 1, 3, { barrier with results := [⟨0, 2, 0, List.replicate 16 7⟩] }, ⟨0, 2, 0, List.replicate 16 7⟩, rfl, rfl, rfl, by decide +kernel, rfl, by decide +kernel, by decide +kernel, rfl,
    by decide +kernel, by decide +kernel⟩,
   ⟨.collAdd 2 1 3, atBarrier (fun b => { b with broken := true }) (inVec 5 16 onD), _, _, .add, 2, 1, 3, { barrier with broken := true }, rfl, rfl, rfl, by decide +kernel, rfl, by decide +kernel, rfl, by decide +kernel, rfl, by decide +kernel, rfl⟩,
   ⟨.collAdd 2 1 3, atBarrier (fun b => { b with contribs := [⟨1, 1, 0, .add, 4, 5, List.replicate 16 1⟩] }) (inVec 5 16 onD), _, _, .add, 2, 1, 3, { barrier with contribs := [⟨1, 1, 0, .add, 4, 5, List.replicate 16 1⟩] }, rfl, rfl, rfl, by decide +kernel,
    rfl, by decide +kernel, rfl, by decide +kernel, rfl, by decide +kernel, rfl, by decide +kernel, by decide, rfl, by decide +kernel⟩⟩

/-! ## Hypotheses that can be met: tokens, tasks and kills -/

/-- A routing record: the queue capacity, the groups a token may go to, groups, experts of a group, and the table's address. -/
def routeBytes (cap topg ng ne : Nat) (tab : Word) : List Byte := bytesOf 8 (cap * 2 ^ 32 + topg * 2 ^ 16 + ng * 2 ^ 8 + ne) ++ bytesOf 8 tab.toNat ++ List.replicate 48 0

/-- Two descriptors, of queues in the planes of two dies. -/
def routeTable (d e : Nat) : List Byte := bytesOf 4 64 ++ bytesOf 4 d ++ List.replicate 8 0 ++ bytesOf 4 128 ++ bytesOf 4 e ++ List.replicate 8 0

/-- The focus with a routing record at scratchpad address 64, in x5, and a table at 256. -/
def withRoute (r : List Byte) (d e : Nat) : State := scratch 64 r (scratch 256 (routeTable d e) (withX 5 (local' 64) (inVec 6 16 onD)))

/-- A table of descriptors read, as a yes or no. -/
theorem readTable_of {n : Nat} {tab : Word} {u : State} {p : List (List Byte) → Bool} (h : (match readTable n tab u with | .ok (l, _) => p l | .error _ => false) = true) :
    ∃ l v, readTable n tab u = .ok (l, v) ∧ p l = true := by
  split at h
  · next l v e => exact ⟨l, v, e, h⟩
  · cases h

/-- A descriptor of the table is bad, or the experts of a group are on two dies. -/
def badTable (ng ne : Nat) (l : List (List Byte)) : Bool :=
  l.any (fun x => (readDescriptor x).isNone) || (List.range ng).any (fun g => (List.range ne).any (fun j => ((l.filterMap readDescriptor).getD (g * ne + j) (0, 0)).1 != ((l.filterMap readDescriptor).getD (g * ne) (0, 0)).1))

theorem badTable_iff {ng ne : Nat} {l : List (List Byte)} : badTable ng ne l = true ↔ (∃ x ∈ l, readDescriptor x = none) ∨ ∃ g < ng, ∃ j < ne,
    ((l.filterMap readDescriptor).getD (g * ne + j) (0, 0)).1 ≠ ((l.filterMap readDescriptor).getD (g * ne) (0, 0)).1 := by
  simp [badTable]

/-- The data of segment 0 is in error. -/
def badSegment (s : State) : State := updCore s s.core (fun k => { k with segs := [(0, { seg 0 with badData := true }), (1, seg 1), (2, seg 2)] })

theorem witness_Routing :
    (∃ (s : State) (b : BitVec 5) (q : Nat), s.cur.convoy = [] ∧ s.cur.validMode = true ∧
      [b.toNat, b.toNat + 1, b.toNat + 2].find? (fun q => !(vreg s.cur q).valid) = some q) ∧
    (∃ s : State, s.cur.convoy = [] ∧ s.cur.validMode = false ∧ s.cur.release ≠ none) ∧
    (∃ (s : State) (b : BitVec 5), s.cur.convoy = [] ∧ s.cur.validMode = false ∧ s.cur.release = none ∧ ∃ e, chainError s [b.toNat, b.toNat + 1, b.toNat + 2] = some e) ∧
    (∃ s u a b r cap topg ng ne tab x, s.cur.convoy = [] ∧ s.cur.release = none ∧ s.cur.validMode = false ∧ chainError s [(b : BitVec 5).toNat, b.toNat + 1, b.toNat + 2] = none ∧ RecordRead s 64 (rx s a) r u ∧
      readRoute r = some (cap, topg, ng, ne, tab) ∧ readTable (ng * ne) tab u = .error x) ∧
    (∃ s u a b r, s.cur.convoy = [] ∧ s.cur.release = none ∧ s.cur.validMode = false ∧ chainError s [(b : BitVec 5).toNat, b.toNat + 1, b.toNat + 2] = none ∧ RecordRead s 64 (rx s a) r u ∧ readRoute r = none) ∧
    (∃ s u v a b r l cap topg ng ne tab, s.cur.convoy = [] ∧ s.cur.release = none ∧ s.cur.validMode = false ∧ chainError s [(b : BitVec 5).toNat, b.toNat + 1, b.toNat + 2] = none ∧ RecordRead s 64 (rx s a) r u ∧
      readRoute r = some (cap, topg, ng, ne, tab) ∧ readTable (ng * ne) tab u = .ok (l, v) ∧ badTable ng ne l = true) ∧
    (∃ s u v a b r l cap topg ng ne tab, s.cur.convoy = [] ∧ s.cur.release = none ∧ s.cur.validMode = false ∧ chainError s [(b : BitVec 5).toNat, b.toNat + 1, b.toNat + 2] = none ∧ RecordRead s 64 (rx s a) r u ∧
      readRoute r = some (cap, topg, ng, ne, tab) ∧ readTable (ng * ne) tab u = .ok (l, v) ∧ badTable ng ne l = false) := by
  obtain ⟨z, ez⟩ : ∃ x, readTable (1 * 2) 0x20000 (withRoute (routeBytes 4 1 1 2 0x20000) 0 0) = .error x := by
    have : (match readTable (1 * 2) 0x20000 (withRoute (routeBytes 4 1 1 2 0x20000) 0 0) with | .error _ => true | .ok _ => false) = true := by decide +kernel
    split at this
    · exact ⟨_, ‹_›⟩
    · cases this
  have tab : (rx (withRoute (routeBytes 4 1 1 2 (local' 256)) 0 0) 5) = local' 64 := by decide +kernel
  obtain ⟨l, v, e, h⟩ := readTable_of (n := 1 * 2) (tab := local' 256) (u := withRoute (routeBytes 4 1 1 2 (local' 256)) 0 1) (p := badTable 1 2) (by decide +kernel)
  obtain ⟨k, w, f, g⟩ := readTable_of (n := 2 * 1) (tab := local' 256) (u := withRoute (routeBytes 4 2 2 1 (local' 256)) 0 1) (p := fun l => !badTable 2 1 l) (by decide +kernel)
  exact ⟨⟨inCtx (fun c => { c with validMode := true, v := c.v.set 4 Chain.invalid }) (inVec 6 16 onD), 2, 4, rfl, rfl, by decide +kernel⟩,
    ⟨inCtx (fun c => { c with release := some .die }) onD, rfl, rfl, by decide +kernel⟩,
    ⟨badSegment (inVec 6 16 onD), 1, rfl, rfl, rfl, some_of_isSome (by decide +kernel)⟩,
    ⟨withRoute (routeBytes 4 1 1 2 0x20000) 0 0, _, 5, 1, routeBytes 4 1 1 2 0x20000, 4, 1, 1, 2, 0x20000, z, rfl, rfl, rfl, by decide +kernel, recordRead (by decide +kernel), by decide +kernel, ez⟩,
    ⟨withRoute (routeBytes 0 1 1 2 0) 0 0, _, 5, 1, routeBytes 0 1 1 2 0, rfl, rfl, rfl, by decide +kernel, recordRead (by decide +kernel), by decide +kernel⟩,
    ⟨withRoute (routeBytes 4 1 1 2 (local' 256)) 0 1, _, v, 5, 1, routeBytes 4 1 1 2 (local' 256), l, 4, 1, 1, 2, local' 256, rfl, rfl, rfl, by decide +kernel, recordRead (by decide +kernel), by decide +kernel, e, h⟩,
    ⟨withRoute (routeBytes 4 2 2 1 (local' 256)) 0 1, _, w, 5, 1, routeBytes 4 2 2 1 (local' 256), k, 4, 2, 2, 1, local' 256, rfl, rfl, rfl, by decide +kernel, recordRead (by decide +kernel), by decide +kernel, f, by simpa using g⟩⟩

/-- Fields of a region with budgets. -/
def fields : RegionFields := { cores := 1, ctxs := 4, segs := 64, rsv := 2, facet := 0, plane := 0, prio := 3, policy := 2, wdi := 0, lsplit := 0, start := false, bwin := 16, w := [0, 1, 0, 0], rnode := 0, rlim := 0 }

/-- A region of partition 0. -/
def region (idx : Nat) (parent : Option Nat) (st : RegionState) : Region :=
  { part := 0, idx := idx, block := 0x8000, parent := parent, parentBlock := 0, eff := fields, ring := none, state := st, rcount := 0, live := 1, outs := 0, segUse := 0, ctxUse := 0, coreUse := [], planeUse := 0, facetUse := 0, written := 0,
    elost := 0, ehead := 0, gerr := 0, retirers := [] }

/-- A node of a region, with a number of predecessors. -/
def nodeBytes (entry region pred : Nat) : List Byte := bytesOf 8 entry ++ bytesOf 8 7 ++ bytesOf 4 region ++ bytesOf 4 pred ++ List.replicate 104 0

/-- Bytes in the placed page. -/
def paged (va : Nat) (bs : List Byte) (s : State) : State := { s with mem := setBytes (physKey (0x30000 + va)) bs s.mem }

/-- Two regions, and a node at virtual address 0x4000, in x1. -/
def tasked (node : List Byte) (rs : List Region) (s : State) : State := paged 0x4000 node (withX 1 0x4000 { s with regions := rs })

/-- What the clauses on a node that can be read assume: its place, in a TLB or not, and the state after the release. -/
def NodeRead (s u : State) (a : BitVec 5) (p : State → Prop) : Prop :=
  s.cur.convoy = [] ∧ (rx s a).toNat % 128 = 0 ∧ releaseNow s.curKey .sys s = some u ∧ (who u).part = (who s).part ∧
    ∃ k use, scalarPlace s (who s) .load (rx s a).toNat = .ok (.mem k, use) ∧ scoreboardStalls s k 128 false = false ∧ hasError k 128 s = false ∧ p (useScalar s.curKey use u)

theorem nodeRead {s u : State} {a : BitVec 5} {p : State → Prop} {q : State → Bool} (r : releaseNow s.curKey .sys s = some u) (i : ∀ v, q v = true → p v)
    (h : (s.cur.convoy.isEmpty && decide ((rx s a).toNat % 128 = 0) && decide ((who u).part = (who s).part) &&
      (match scalarPlace s (who s) .load (rx s a).toNat with | .ok (.mem k, use) => !scoreboardStalls s k 128 false && !hasError k 128 s && q (useScalar s.curKey use u) | _ => false)) = true) : NodeRead s u a p := by
  simp only [Bool.and_eq_true, List.isEmpty_iff, decide_eq_true_eq] at h
  obtain ⟨⟨⟨h1, h2⟩, h3⟩, h4⟩ := h
  split at h4
  · next k use e =>
    simp only [Bool.and_eq_true, Bool.not_eq_true'] at h4
    exact ⟨h1, h2, r, h3, k, use, e, h4.1.1, h4.1.2, i _ h4.2⟩
  · cases h4

/-- The die whose Locus takes a node. -/
def homeDie (v : State) (n : List Byte) : Nat := match gangPlace v n with | some (die, _) => die | none => v.die

/-- What becomes of the node at 0x4000: 0 where the checks refuse it, 1 where it can never be awarded, 2 where its Locus is full or others wait to enter it, 3 where it enters. -/
def nodeCase (v : State) : Option Nat :=
  (deviceRead v 0 0x4000 128).map (fun n =>
    let l := locusAt v (homeDie v n)
    if nodeOk v 0 true n = false then 0
    else if neverAwarded v 0 (nodeRegion n % 4096) = true then 1
    else if 1048576 ≤ l.entries.length ∨ l.heldSubs ≠ [] then 2
    else 3)

/-- A submission waits to enter the Locus of die 0. -/
def subsHeld (s : State) : State := updLocus 0 (fun l => { l with heldSubs := [{ part := 0, region := 0, node := 0x8080, submitter := none, resume := none, grun := none, restart := none }] }) s

theorem witness_Submission :
    (∃ (s u : State) (a : BitVec 5), s.cur.convoy = [] ∧ (rx s a).toNat % 128 ≠ 0 ∧ releaseNow s.curKey .sys s = some u) ∧
    (∃ (s : State) (a : BitVec 5), s.cur.convoy = [] ∧ (rx s a).toNat % 128 ≠ 0 ∧ releaseNow s.curKey .sys s = none) ∧
    (∃ (s : State) (a : BitVec 5) (f : Nat), s.cur.convoy = [] ∧ (rx s a).toNat % 128 = 0 ∧ scalarPlace s (who s) .load (rx s a).toNat = .error f ∧ f ≠ 27 ∧ f ≠ heldCode) ∧
    (∃ (s : State) (a : BitVec 5), s.cur.convoy = [] ∧ (rx s a).toNat % 128 = 0 ∧ scalarPlace s (who s) .load (rx s a).toNat = .error heldCode) ∧
    (∃ (s u : State) (a : BitVec 5) (q off : Nat), s.cur.convoy = [] ∧ (rx s a).toNat % 128 = 0 ∧ releaseNow s.curKey .sys s = some u ∧ ∃ use, scalarPlace s (who s) .load (rx s a).toNat = .ok (.queueReg q off, use)) ∧
    (∃ (s : State) (a : BitVec 5) (k : Nat), s.cur.convoy = [] ∧ (rx s a).toNat % 128 = 0 ∧ scoreboardStalls s k 128 false = false ∧ hasError k 128 s = true ∧
      ∃ use, scalarPlace s (who s) .load (rx s a).toNat = .ok (.mem k, use)) ∧
    (∃ (s : State) (a : BitVec 5) (k : Nat), s.cur.convoy = [] ∧ (rx s a).toNat % 128 = 0 ∧ scoreboardStalls s k 128 false = false ∧ hasError k 128 s = false ∧ releaseNow s.curKey .sys s = none ∧
      ∃ use, scalarPlace s (who s) .load (rx s a).toNat = .ok (.mem k, use)) ∧
    (∃ s u a, NodeRead s u a (fun v => deviceRead v (who s).part (rx s a) 128 = none)) ∧
    (∃ s u a, NodeRead s u a (fun v => nodeCase v = some 0)) ∧
    (∃ s u a, NodeRead s u a (fun v => nodeCase v = some 1)) ∧
    (∃ s u a, NodeRead s u a (fun v => nodeCase v = some 2)) ∧
    (∃ s u a, NodeRead s u a (fun v => nodeCase v = some 3)) :=
  ⟨⟨withX 1 64 onD, _, 1, rfl, by decide +kernel, rfl⟩,
   ⟨inCtx (fun c => { c with release := some .die }) (withX 1 64 onD), 1, rfl, by decide +kernel, rfl⟩,
   ⟨withX 1 0x10000 onD, 1, 26, rfl, by decide +kernel, isFault_iff (by decide +kernel), by decide, by decide⟩,
   ⟨tlbKept onD, 0, rfl, by decide +kernel, isFault_iff (by decide +kernel)⟩,
   ⟨withX 1 (BitVec.ofNat 64 (0xFFFFFF03 * 2 ^ 32 + 0x101000)) (updQueue onD 1 (fun q => { q with part := some 0 })), _, 1, 1, 0, rfl, by decide +kernel, rfl, isQueue_iff (by decide +kernel)⟩,
   ⟨withBad 0x34045 (withX 1 0x4000 onD), 1, 0x34000, rfl, by decide +kernel, by decide +kernel, by decide +kernel, isMem_iff (by decide +kernel)⟩,
   ⟨inCtx (fun c => { c with release := some .die }) (withX 1 0x4000 onD), 1, 0x34000, rfl, by decide +kernel, by decide +kernel, by decide +kernel, rfl, isMem_iff (by decide +kernel)⟩,
   ⟨withX 1 (local' 128) onD, _, 1, nodeRead (q := fun v => (deviceRead v 0 (local' 128) 128).isNone) rfl (fun _ h => Option.isNone_iff_eq_none.mp h) (by decide +kernel)⟩,
   ⟨tasked (nodeBytes 2 0 0) [region 0 none .active] onD, _, 1, nodeRead (q := fun v => nodeCase v == some 0) rfl (fun _ h => eq_of_beq h) (by decide +kernel)⟩,
   ⟨tasked (nodeBytes 0 0 0) [{ region 0 none .active with eff := { fields with segs := 1 } }] onD, _, 1, nodeRead (q := fun v => nodeCase v == some 1) rfl (fun _ h => eq_of_beq h) (by decide +kernel)⟩,
   ⟨subsHeld (tasked (nodeBytes 0 0 0) [region 0 none .active] onD), _, 1, nodeRead (q := fun v => nodeCase v == some 2) rfl (fun _ h => eq_of_beq h) (by decide +kernel)⟩,
   ⟨tasked (nodeBytes 0 0 0) [region 0 none .active] onD, _, 1, nodeRead (q := fun v => nodeCase v == some 3) rfl (fun _ h => eq_of_beq h) (by decide +kernel)⟩⟩

/-- The operands of a task that are copied back. -/
def backOf (k : Task) : List Operand := k.operands.filter (fun o => o.mode == 2 || o.mode == 3)

/-- The placed task with one operand of mode 3. -/
def withOperand (s : State) : State := inCtx (fun c => { c with task := some { placedTask with operands := [{ base := 0x4000, mode := 3, loff := 0, size := 64 }] } }) s

theorem witness_YieldsAndEnds :
    (∃ (s : State) (k : Task), s.cur.convoy = [] ∧ s.cur.task = some k ∧ freeFrames s k.part = []) ∧
    (∃ (s : State) (k : Task) (f : Nat) (rest : List Nat), s.cur.convoy = [] ∧ s.cur.task = some k ∧ freeFrames s k.part = f :: rest) ∧
    (∃ s : State, s.cur.convoy = [] ∧ s.cur.task = none) ∧
    (∃ (s : State) (k : Task), s.cur.convoy = [] ∧ s.cur.task = some k ∧ slotOfThread s k.thread = some s.curKey ∧ backOf k ≠ [] ∧ s.cur.release ≠ none) ∧
    (∃ (s : State) (k : Task), s.cur.convoy = [] ∧ s.cur.task = some k ∧ slotOfThread s k.thread = some s.curKey ∧ backOf k ≠ [] ∧ s.cur.release = none ∧ 32 < (coreAt s s.core).scored.length + (backOf k).length) ∧
    (∃ (s : State) (k : Task), s.cur.convoy = [] ∧ s.cur.task = some k ∧ slotOfThread s k.thread = some s.curKey ∧ backOf k ≠ [] ∧ s.cur.release = none ∧ (coreAt s s.core).scored.length + (backOf k).length ≤ 32) ∧
    (∃ (s : State) (k : Task), s.cur.convoy = [] ∧ s.cur.task = some k ∧ slotOfThread s k.thread = some s.curKey ∧ backOf k = [] ∧
      ∀ e ∈ s.engines, e.thread = k.thread → e.failed ≠ none ∨ ∀ w base off n, e.kind ≠ .operand w base off n) :=
  ⟨⟨onD, placedTask, rfl, rfl, rfl⟩, ⟨updPart onD 0 (fun p => { p with frames := [2, 3] }), placedTask, 2, [3], rfl, rfl, rfl⟩, ⟨State.reset, rfl, rfl⟩,
   ⟨inCtx (fun c => { c with release := some .die }) (withOperand onD), _, rfl, rfl, by decide +kernel, by decide +kernel, by decide +kernel⟩,
   ⟨scoreFull (withOperand onD), _, rfl, rfl, by decide +kernel, by decide +kernel, rfl, by decide +kernel⟩,
   ⟨withOperand onD, _, rfl, rfl, by decide +kernel, by decide +kernel, rfl, by decide +kernel⟩,
   ⟨onD, placedTask, rfl, rfl, by decide +kernel, rfl, fun _ h => nomatch h⟩⟩

theorem witness_Kills :
    (∃ (s : State) (a : BitVec 5), s.cur.convoy = [] ∧ ¬∃ r, (rx s a).toNat / 65536 = (who s).part ∧ (rx s a).toNat % 65536 < 4096 ∧ regionAt s (who s).part ((rx s a).toNat % 65536) = some r ∧ (r.state = .active ∨ r.state = .killing)) ∧
    (∃ (s : State) (a : BitVec 5) (r : Region), s.cur.convoy = [] ∧ ((rx s a).toNat / 65536 = (who s).part ∧ (rx s a).toNat % 65536 < 4096 ∧ regionAt s (who s).part ((rx s a).toNat % 65536) = some r ∧ (r.state = .active ∨ r.state = .killing)) ∧
      (ancestry s (who s).part (who s).region).contains r.idx = true) ∧
    (∃ (s : State) (a : BitVec 5) (r : Region), s.cur.convoy = [] ∧ ((rx s a).toNat / 65536 = (who s).part ∧ (rx s a).toNat % 65536 < 4096 ∧ regionAt s (who s).part ((rx s a).toNat % 65536) = some r ∧ (r.state = .active ∨ r.state = .killing)) ∧
      (ancestry s (who s).part (who s).region).contains r.idx = false ∧ underKill s (who s).part ((rx s a).toNat % 65536) = true) ∧
    (∃ (s : State) (a : BitVec 5) (r : Region), s.cur.convoy = [] ∧ ((rx s a).toNat / 65536 = (who s).part ∧ (rx s a).toNat % 65536 < 4096 ∧ regionAt s (who s).part ((rx s a).toNat % 65536) = some r ∧ (r.state = .active ∨ r.state = .killing)) ∧
      (ancestry s (who s).part (who s).region).contains r.idx = false ∧ underKill s (who s).part ((rx s a).toNat % 65536) = false ∧ (∀ k, s.cur.task = some k → k.part = (who s).part ∧ k.region = (who s).region) ∧ s.cur.task ≠ none) :=
  ⟨⟨withX 1 1 onD, 1, rfl, fun ⟨_, h⟩ => by have : regionAt (withX 1 1 onD) (who (withX 1 1 onD)).part ((rx (withX 1 1 onD) 1).toNat % 65536) = none := by decide +kernel
                                            rw [this] at h; exact nomatch h.2.2.1⟩,
   ⟨withX 1 0 { onD with regions := [region 0 none .active] }, 1, region 0 none .active, rfl, by decide +kernel, by decide +kernel⟩,
   ⟨withX 1 1 { onD with regions := [region 0 none .active, region 1 (some 0) .killing] }, 1, region 1 (some 0) .killing, rfl, by decide +kernel, by decide +kernel, by decide +kernel⟩,
   ⟨withX 1 1 { onD with regions := [region 0 none .active, region 1 (some 0) .active] }, 1, region 1 (some 0) .active, rfl, by decide +kernel, by decide +kernel, by decide +kernel,
    fun k h => by cases h; decide +kernel, by decide +kernel⟩⟩

/-! ## Hypotheses that can be met: objects, engines and tenders -/

theorem getBytes_eq : ∀ {n k : Nat} {m m' : Memory}, (∀ j, k ≤ j → j < k + n → getByte j m' = getByte j m) → getBytes k n m' = getBytes k n m
  | 0, _, _, _, _ => rfl
  | n + 1, k, m, m', h => by
    simp only [getBytes]
    rw [h k (Nat.le_refl k) (by omega), getBytes_eq (fun j a b => h j (by omega) (by omega))]

/-- The placed tables lead to the placed page whatever stands in it. -/
theorem placedPage {s u : State} (p : u.parts = s.parts) (m : SameOutside 0x34000 16 s u) (h : onD.parts = s.parts) (r0 : readEntry s 0 = 0x10001) (r1 : readEntry s 0x10000 = 0x20001) (r2 : readEntry s 0x20000 = 0x3007D) :
    deviceAddr u 0 0x4000 = .ok 0x34000 := by
  have e (a : Nat) (o : a + 8 ≤ 0x34000) : readEntry u a = readEntry s a := by
    unfold readEntry
    rw [getBytes_eq (m := s.mem) (fun j _ b => m j (by simp only [physKey] at b; omega))]
  have w : walk u 0 0x4000 = .leaf 0x3007D 65536 0 := by
    unfold walk
    simp only [show 0 + bits 0x4000 47 42 * 8 = 0 from by decide, e 0 (by decide), r0, show frameOf 0x10001 = 0x10000 from by decide, show 0x10000 + bits 0x4000 41 29 * 8 = 0x10000 from by decide, e 0x10000 (by decide), r1,
      show frameOf 0x20001 = 0x20000 from by decide, show 0x20000 + bits 0x4000 28 16 * 8 = 0x20000 from by decide, e 0x20000 (by decide), r2]
    rfl
  unfold deviceAddr
  rw [show partAt u 0 = partAt onD 0 from by unfold partAt; rw [p, ← h]]
  rw [show partAt onD 0 = some (placedPart 0 0) from rfl]
  simp only [show (0x4000 : Word).toNat = 0x4000 from rfl, show (placedPart 0 0).hbase = 0 from rfl, w]
  rfl

/-- The focus waits in `twait` for the object at virtual address 0x4000. -/
def awaiting (s : State) : State := inCtx (fun c => { c with state := .waiting (.twait 3 0x4000 1) }) s

theorem witness_ObjectUpdates :
    (∃ (s : State) (part pa : Nat) (obj : Word) (key : Nat) (rd : BitVec 5) (target : Word), obj ≠ 0 ∧ deviceAddr s part obj = .ok pa ∧ InMemory s pa 16 ∧ (ctxAt s key).state = .waiting (.twait rd obj target) ∧
      slotOfThread s (threadOf (ctxAt s key)) = some key ∧ (∀ k, (ctxAt s key).task = some k → k.part = part) ∧ (∀ u, u.parts = s.parts → SameOutside pa 16 s u → deviceAddr u part obj = .ok pa) ∧
      target.toNat ≤ (recNat (getBytes pa 16 s.mem) 0 8 + 1) % 2 ^ 64) ∧
    (∃ (s : State) (part : Nat) (obj : Word) (f : Nat), obj ≠ 0 ∧ deviceAddr s part obj = .error f) :=
  ⟨⟨awaiting onD, 0, 0x34000, 0x4000, 0, 3, 1, by decide, placedPage rfl (fun _ _ => rfl) rfl (by decide +kernel) (by decide +kernel) (by decide +kernel), ⟨by decide +kernel, by decide⟩, by decide +kernel, by decide +kernel,
    fun k h => by cases h; rfl, fun u p m => placedPage p m rfl (by decide +kernel) (by decide +kernel) (by decide +kernel), by decide +kernel⟩,
   ⟨onD, 5, 0x4000, 26, by decide, by rfl⟩⟩

/-- A device address, as a yes or no. -/
def isAddr (r : Except Nat Nat) (k : Nat) : Bool := match r with | .ok j => j == k | _ => false

theorem isAddr_iff {r : Except Nat Nat} {k : Nat} (h : isAddr r k = true) : r = .ok k := by
  unfold isAddr at h
  split at h
  · rw [eq_of_beq h]
  · cases h

/-- A decrement of the node at 0x4000 by core 0, with PRED and CANCEL of the node: its successors' cancelling decrements where it is cancelled. -/
def lastOf (n : List Byte) (rs : List Region) : State := tasked n rs onD

/-- A cancelled node of one predecessor, whose successor is at 0x4080. -/
def cancelledNode : List Byte := (((nodeBytes 0 0 1).take 96 ++ bytesOf 8 0x4080 ++ List.replicate 24 0).set 23 2).set 125 1

/-- The state in which a released node is submitted. -/
def releasing (s : State) : State := physWrite (0x34000 + 125) [0] (physWrite (0x34000 + 20) [0, 0] s)

/-- A released node passes the checks, and its Locus has room, as a yes or no. -/
def releasesInto (ok room : Bool) (s : State) : Bool :=
  (deviceRead (releasing s) 0 0x4000 128).any (fun m => nodeOk (releasing s) 0 false m == ok && (gangPlace (releasing s) m).isNone && decide ((locusAt s 0).entries.length < 1048576) && ((locusAt s 0).heldSubs.isEmpty == room))

/-- What the last clause assumes of a node. -/
def LastDecrement (s : State) (cancel : Bool) : Prop :=
  decrementForm (.predDecrement 0 0 0x4000 0) = some (false, 0, 0, 0x4000, 0) ∧ deviceAddr s 0 0x4000 = .ok 0x34000 ∧ InMemory s 0x34000 128 ∧ nodePred (getBytes 0x34000 128 s.mem) = 1 ∧ (false || nodeCancel (getBytes 0x34000 128 s.mem)) = cancel

theorem witness_Predecessors :
    (∃ i s cancels part reg f core node, decrementForm i = some (cancels, part, reg, node, core) ∧ deviceAddr s part node = .error f) ∧
    (∃ i s cancels part reg pa core node, decrementForm i = some (cancels, part, reg, node, core) ∧ deviceAddr s part node = .ok pa ∧ InMemory s pa 128 ∧ nodePred (getBytes pa 128 s.mem) = 0) ∧
    (∃ i s cancels part reg pa core node, decrementForm i = some (cancels, part, reg, node, core) ∧ deviceAddr s part node = .ok pa ∧ InMemory s pa 128 ∧ 1 < nodePred (getBytes pa 128 s.mem)) ∧
    (∃ s a, LastDecrement s true ∧ a ∈ successors (completeObject 0 0 (nodeComp (getBytes 0x34000 128 s.mem)) 6 (releasing s)) 0 (getBytes 0x34000 128 s.mem)) ∧
    (∃ s, LastDecrement s false ∧ releasesInto false true s = true) ∧ (∃ s, LastDecrement s false ∧ releasesInto true true s = true) ∧ (∃ s, LastDecrement s false ∧ releasesInto true false s = true) := by
  have succ : (0x4080 : Word) ∈ successors (completeObject 0 0 (nodeComp (getBytes 0x34000 128 (lastOf cancelledNode [region 0 none .active]).mem)) 6 (releasing (lastOf cancelledNode [region 0 none .active]))) 0
    (getBytes 0x34000 128 (lastOf cancelledNode [region 0 none .active]).mem) := by decide +kernel
  exact ⟨⟨.predDecrement 5 0 0x4000 0, onD, false, 5, 0, 26, 0, 0x4000, rfl, by rfl⟩,
    ⟨.predDecrement 0 0 0x4000 0, lastOf (nodeBytes 0 0 0) [region 0 none .active], false, 0, 0, 0x34000, 0, 0x4000, rfl, isAddr_iff (by decide +kernel), ⟨by decide +kernel, by decide⟩, by decide +kernel⟩,
    ⟨.cancellingDecrement 0 0 0x4000 0, lastOf (nodeBytes 0 0 2) [region 0 none .active], true, 0, 0, 0x34000, 0, 0x4000, rfl, isAddr_iff (by decide +kernel), ⟨by decide +kernel, by decide⟩, by decide +kernel⟩,
    ⟨lastOf cancelledNode [region 0 none .active], 0x4080, ⟨rfl, isAddr_iff (by decide +kernel), ⟨by decide +kernel, by decide⟩, by decide +kernel, by decide +kernel⟩, succ⟩,
    ⟨lastOf (nodeBytes 2 0 1) [region 0 none .active], ⟨rfl, isAddr_iff (by decide +kernel), ⟨by decide +kernel, by decide⟩, by decide +kernel, by decide +kernel⟩, by decide +kernel⟩,
    ⟨lastOf (nodeBytes 0 0 1) [region 0 none .active], ⟨rfl, isAddr_iff (by decide +kernel), ⟨by decide +kernel, by decide⟩, by decide +kernel, by decide +kernel⟩, by decide +kernel⟩,
    ⟨subsHeld (lastOf (nodeBytes 0 0 1) [region 0 none .active]), ⟨rfl, isAddr_iff (by decide +kernel), ⟨by decide +kernel, by decide⟩, by decide +kernel, by decide +kernel⟩, by decide +kernel⟩⟩

theorem witness_RegionEnds :
    (∃ (s : State) (ctx : Nat) (k : Task), (ctxAt s ctx).task = some k ∧ (ctxAt s ctx).state = .waiting .retiring ∧ releaseNow ctx .sys s = none) ∧
    (∃ (s u : State) (ctx : Nat) (k : Task), (ctxAt s ctx).task = some k ∧ (ctxAt s ctx).state = .waiting .retiring ∧ releaseNow ctx .sys s = some u ∧ (ctxAt u ctx).task = some k ∧ failedCopies u k.thread = []) ∧
    (∃ (s : State) (part idx : Nat) (r : Region), regionAt s part idx = some r ∧ r.state = .killing ∧ quiescing s part = false) ∧
    (∃ (s : State) (part idx : Nat) (r : Region), regionAt s part idx = some r ∧ r.state = .retiring ∧ r.live = 0 ∧ r.outs = 0) :=
  ⟨⟨inCtx (fun c => { c with state := .waiting .retiring, release := some .die }) onD, 0, placedTask, rfl, rfl, rfl⟩,
   ⟨inCtx (fun c => { c with state := .waiting .retiring }) onD, _, 0, placedTask, rfl, rfl, rfl, by decide +kernel, by decide +kernel⟩,
   ⟨{ onD with regions := [region 1 (some 0) .killing] }, 0, 1, region 1 (some 0) .killing, by decide +kernel, rfl, by decide +kernel⟩,
   ⟨{ onD with regions := [{ region 1 (some 0) .retiring with live := 0 }] }, 0, 1, { region 1 (some 0) .retiring with live := 0 }, by decide +kernel, rfl, rfl, rfl⟩⟩

/-- A copy of 32 bytes from virtual address 0x4000 to scratchpad offset 64. -/
def copyOp : EngineOp :=
  { num := 5, key := 0, priv := .u, thread := 0, node := 0, part := 0, region := 0, object := 0, kind := .copy false 0 0x4000 64 32 1 [], stale := [], failed := none }

/-- The state in which that copy runs, with the scoreboard entries of the core. -/
def copying (l : List Scored) : State := updCore { onD with engines := [copyOp] } 0 (fun k => { k with scored := l })

/-- An operation of the core that has not failed, and, where `go` says so, that nothing older bars. -/
def Runs (s : State) (op : EngineOp) (go : Bool) : Prop := s.engines.find? (fun e => e.num == op.num && e.failed.isNone) = some op ∧ mayStart op s = go

/-- A copy of 32 bytes from an address. -/
def copyFrom (va : Word) : EngineOp := { copyOp with kind := .copy false 0 va 64 32 1 [] }

/-- A copy stops at its first byte with a class. -/
def stopsWith (s : State) (op : EngineOp) (c : Nat) : Prop := ∃ v a, runMoves op (movesOf op.kind) s = (v, some (c, a))

theorem stopsWith_of {s : State} {op : EngineOp} {c : Nat} (h : (runMoves op (movesOf op.kind) s).2.map (·.1) = some c) : stopsWith s op c := by
  obtain ⟨x, e, rfl⟩ := Option.map_eq_some_iff.mp h
  exact ⟨_, x.2, Prod.ext rfl e⟩

/-- A page of another package at virtual address 0. -/
def remote (s : State) : State := { s with mem := setBytes (physKey 0x20001) [0x01] s.mem }

theorem witness_OperationsEnd :
    (∃ s op, Runs s op false) ∧
    (∃ s op, Runs s op true ∧ (∃ toFar space far off len size dims, op.kind = .copy toFar space far off len size dims) ∧ ∃ v, runMoves op (movesOf op.kind) s = (v, none)) ∧
    (∃ s op, Runs s op true ∧ (∃ toFar space far off len size dims, op.kind = .copy toFar space far off len size dims) ∧ stopsWith s op heldCode) ∧
    (∃ s op, Runs s op true ∧ (∃ toFar space far off len size dims, op.kind = .copy toFar space far off len size dims) ∧ stopsWith s op 27) ∧
    (∃ s op c, Runs s op true ∧ (∃ toFar space far off len size dims, op.kind = .copy toFar space far off len size dims) ∧ stopsWith s op c ∧ c ≠ 27 ∧ c ≠ heldCode) ∧
    (∃ (s : State) (op : EngineOp) (toFar : Bool) (space : Nat) (far : Word) (off len size : Nat) (k : Nat) (use : Option (TlbEntry × Source)), Runs s op true ∧
      op.kind = .copy toFar space far off len size [] ∧ 0 < len ∧ far.toNat % 64 + len ≤ 64 ∧ off + len ≤ 2 ^ 22 ∧ Memory.wf s.mem = true ∧ s.badCells = [] ∧ op.object = 0 ∧ op.stale = [] ∧
      localFault s (op.key / 4) off len = none ∧
      spacePlace s { key := op.key, part := op.part, region := op.region, priv := op.priv } space (if toFar then .store else .load) far.toNat = .ok (k, use) ∧
      (inScratch (op.key / 4) k = true ∨ scoreboardStalls s k len toFar = false)) := by
  have r : (runMoves copyOp (movesOf copyOp.kind) (copying [])).2 = none := by decide +kernel
  have p : (match spacePlace (copying []) { key := 0, part := 0, region := 0, priv := .u } 0 .load 0x4000 with | .ok (k, _) => k == 0x34000 | _ => false) = true := by decide +kernel
  split at p
  · next k use e =>
    have hk := eq_of_beq p
    exact ⟨⟨copying [⟨4, 64, 64, true⟩, ⟨5, 64, 64, true⟩], copyOp, by decide +kernel, by decide +kernel⟩,
      ⟨copying [], copyOp, ⟨by decide +kernel, by decide +kernel⟩, ⟨_, _, _, _, _, _, _, rfl⟩, (runMoves copyOp (movesOf copyOp.kind) (copying [])).1, Prod.ext rfl r⟩,
      ⟨tlbKept (copying []), copyOp, ⟨by decide +kernel, by decide +kernel⟩, ⟨_, _, _, _, _, _, _, rfl⟩, stopsWith_of (by decide +kernel)⟩,
      ⟨remote (copying []), copyOp, ⟨by decide +kernel, by decide +kernel⟩, ⟨_, _, _, _, _, _, _, rfl⟩, stopsWith_of (by decide +kernel)⟩,
      ⟨{ copying [] with engines := [copyFrom 0x20000] }, copyFrom 0x20000, 26, ⟨by decide +kernel, by decide +kernel⟩, ⟨_, _, _, _, _, _, _, rfl⟩, stopsWith_of (by decide +kernel), by decide, by decide⟩,
      ⟨copying [], copyOp, false, 0, 0x4000, 64, 32, 1, k, use, ⟨by decide +kernel, by decide +kernel⟩, rfl, by decide, by decide, by decide, by decide +kernel, rfl, rfl, rfl, by decide +kernel, e, .inr (by rw [hk]; decide +kernel)⟩⟩
  · cases p

/-- A load of one stretch of 32 bytes at scratchpad offset 64 into tile 2, and a store of as many. -/
def tileOp (toFar : Bool) (bad : Option Word) : EngineOp :=
  let p : TilePart := { row := 0, addr := 64, key := scratchKey 0 64, off := tileOff 2 0 0, len := 32, data := if toFar then List.replicate 32 7 else [], fill := if toFar then 0 else 96 }
  { copyOp with kind := .tile toFar 2 [2] (if bad.isSome then [] else [p]) bad }

/-- The state in which it runs. -/
def moving (op : EngineOp) : State := { onD with engines := [op] }

theorem witness_TileTransfersEnd :
    (∃ s op toFar space tiles parts bad, Runs s op true ∧ op.kind = .tile toFar space tiles parts bad ∧ ∃ v, runAll op s = (v, none)) ∧
    (∃ s op toFar space tiles parts bad, Runs s op true ∧ op.kind = .tile toFar space tiles parts bad ∧ ∃ v a, runAll op s = (v, some (49, a))) ∧
    (∃ s op space tiles p, Runs s op true ∧ op.kind = .tile false space tiles [p] none ∧ s.badCells = [] ∧ op.stale = [] ∧ inScratch (op.key / 4) p.key = true ∧ threadOf (ctxAt s op.key) = op.thread ∧
      Memory.wf (ctxAt s op.key).tiles = true) ∧
    (∃ s op space tiles p, Runs s op true ∧ op.kind = .tile true space tiles [p] none ∧ s.badCells = [] ∧ op.stale = [] ∧ inScratch (op.key / 4) p.key = true ∧ p.data.length = p.len ∧ Memory.wf s.mem = true) := by
  have r : (runAll (tileOp false none) (moving (tileOp false none))).2 = none := by decide +kernel
  have q : (runAll (tileOp true (some 9)) (moving (tileOp true (some 9)))).2 = some (49, 9) := by decide +kernel
  exact ⟨⟨moving (tileOp false none), tileOp false none, _, _, _, _, _, ⟨by decide +kernel, by decide +kernel⟩, rfl, (runAll (tileOp false none) (moving (tileOp false none))).1, Prod.ext rfl r⟩,
    ⟨moving (tileOp true (some 9)), tileOp true (some 9), _, _, _, _, _, ⟨by decide +kernel, by decide +kernel⟩, rfl, (runAll (tileOp true (some 9)) (moving (tileOp true (some 9)))).1, 9, Prod.ext rfl q⟩,
    ⟨moving (tileOp false none), tileOp false none, _, _, _, ⟨by decide +kernel, by decide +kernel⟩, rfl, rfl, rfl, by decide +kernel, by decide +kernel, by decide +kernel⟩,
    ⟨moving (tileOp true none), tileOp true none, _, _, _, ⟨by decide +kernel, by decide +kernel⟩, rfl, rfl, rfl, by decide +kernel, by decide +kernel, by decide +kernel⟩⟩

/-- An add of a bf16 element at the placed page, in the write queue. -/
def queued (num : Nat) : Pending := { num := num, line := 0x34000, op := .add, type := 9, elems := [{ key := 0x34000, value := 5, frm := 0 }, { key := 0x34008, value := 6, frm := 1 }], issuers := [{ part := 0, region := 0, thread := 1, key := 4, node := 0, word := 1 }] }

theorem witness_WriteQueues :
    (∃ (s : State) (p : Pending), s.pending.find? (fun q => q.num == p.num) = some p ∧ Memory.wf s.mem = true ∧ s.badCells = [] ∧ oldestOfLine s p = false) ∧
    (∃ (s : State) (p : Pending), s.pending.find? (fun q => q.num == p.num) = some p ∧ Memory.wf s.mem = true ∧ s.badCells = [] ∧ oldestOfLine s p = true ∧
      p.elems.Pairwise (fun e f => e.key + typeSize p.type ≤ f.key ∨ f.key + typeSize p.type ≤ e.key)) :=
  ⟨⟨{ onD with pending := [queued 6, queued 7] }, queued 7, by decide +kernel, by decide +kernel, rfl, by decide +kernel⟩, ⟨{ onD with pending := [queued 6, queued 7] }, queued 6, by decide +kernel, by decide +kernel, rfl, by decide +kernel, by decide +kernel⟩⟩

theorem witness_ReleaseSteps :
    (∃ (s : State) (ctx : Nat) (sc : Scope), (ctxAt s ctx).release = some sc ∧ phaseBusy (ctxAt s ctx) = true) ∧
    (∃ (s : State) (ctx : Nat) (sc : Scope), (ctxAt s ctx).release = some sc ∧ phaseBusy (ctxAt s ctx) = false ∧ (∀ p ∈ s.pending, ∀ j ∈ p.issuers, j.thread ≠ threadOf (ctxAt s ctx)) ∧
      ∀ k ∈ s.tokens, k.issuer.thread ≠ threadOf (ctxAt s ctx)) :=
  ⟨⟨inCtx (fun c => { c with release := some .pkg, uncleared := 0xF }) onD, 0, .pkg, rfl, by decide +kernel⟩,
   ⟨{ inCtx (fun c => { c with release := some .pkg }) onD with pending := [queued 6] }, 0, .pkg, rfl, by decide +kernel, by decide +kernel, by decide +kernel⟩⟩

/-- A token for two experts of die 0. -/
def token : Token := { num := 3, die := 0, issuer := { part := 0, region := 0, thread := 0, key := 0, node := 0, word := 0 }, handle := 77, group := 0, cap := 4, queues := [0, 65536], scores := [0x3F800000, 0x40000000] }

theorem witness_TokenArrivals :
    ∃ (s : State) (k : Token) (e score : Nat) (rest : List (Nat × Nat)), s.tokens.find? (·.num == k.num) = some k ∧ Memory.wf s.mem = true ∧ k.die < 8 ∧
      ((sortRanked (fun x y => decide (y < x)) (k.scores.zipIdx.map (fun x => (x.2, rank 9 false x.1)))).take 4).map (fun x => (x.1, k.scores.getD x.1 0)) = (e, score) :: rest ∧ queueGranted s k e = true ∧
      recNat (getBytes (planeKey k.die (k.queues.getD e 0)) 4 s.mem) 0 4 < k.cap ∧ k.cap < 65536 :=
  ⟨updDie { onD with tokens := [token], regions := [region 0 none .active] } 0 (fun x => { x with plane := [(1, (0, 0))] }), token, 1, 0x40000000, [(0, 0x3F800000)], by decide +kernel, by decide +kernel, by decide, by decide +kernel, by decide +kernel,
    by decide +kernel, by decide⟩

/-! ### Tenders -/

/-- An entry of the placed region's, under number 2. -/
def entry (st : EntryState) : Entry := { Entry.blank with num := 2, tseq := 9, node := 0x4000, cls := 1, state := st }

/-- The state with entries in the Locus of die 0. -/
def tendered (l : List Entry) : State := updLocus 0 (fun x => { x with entries := l, nextEntry := 10 }) (tasked (nodeBytes 0x100 0 0) [region 0 none .active] onD)

/-- An entry that waits, is due and does not stand at a limit of contexts (R58). -/
def mayGo (s : State) (l : Nat) (f : Entry) : Prop :=
  f ∈ (locusAt s l).entries ∧ f.state = .waiting ∧ f.due = true ∧ ¬(f.resume = none ∧ ∃ i ∈ ancestry s f.part f.region, ∃ r, regionAt s f.part i = some r ∧ r.eff.ctxs ≤ r.ctxUse)

theorem witness_TendersGoOut :
    (∃ (s : State) (l : Nat), 8 ≤ runningTenders (locusAt s l)) ∧ (∃ (s : State) (l : Nat), ∀ f, ¬mayGo s l f) ∧
    (∃ (s : State) (l : Nat) (e : Entry), runningTenders (locusAt s l) < 8 ∧ mayGo s l e ∧ (∀ f, mayGo s l f → before s f e = false) ∧ entryAt s l e.num = some e ∧
      (tenderCores s l e).filter (fun c => !e.leftOut.contains c) ≠ []) := by
  have free : ∀ i ∈ ancestry (tendered [{ entry .waiting with num := 1, due := false }, entry .waiting]) 0 0,
      (regionAt (tendered [{ entry .waiting with num := 1, due := false }, entry .waiting]) 0 i).all (fun r => decide (r.ctxUse < r.eff.ctxs)) = true := by decide +kernel
  refine ⟨⟨tendered (List.replicate 8 (entry .tendering)), 0, by decide +kernel⟩, ⟨tendered [], 0, fun f h => nomatch (h.1 : f ∈ ([] : List Entry))⟩,
    ⟨tendered [{ entry .waiting with num := 1, due := false }, entry .waiting], 0, entry .waiting, by decide +kernel, ⟨by decide +kernel, rfl, rfl, ?_⟩, ?_, by decide +kernel, by decide +kernel⟩⟩
  · rintro ⟨-, i, hi, r, hr, le⟩
    have := free i hi
    rw [show (entry EntryState.waiting).part = 0 from rfl] at hr
    rw [hr] at this
    exact absurd (of_decide_eq_true this) (by omega)
  · intro f h
    have m : f ∈ [{ entry EntryState.waiting with num := 1, due := false }, entry EntryState.waiting] := h.1
    rcases List.mem_cons.mp m with rfl | m
    · exact absurd h.2.2.1 (by decide)
    · rw [List.mem_singleton.mp m]
      decide +kernel

theorem witness_Bids :
    (∃ (s : State) (l n round core : Nat) (e : Entry), entryAt s l n = some e ∧ (e.state ≠ .tendering ∨ e.round ≠ round ∨ ∃ a ∈ e.answers, a.1 = core)) ∧
    (∃ (s : State) (l n round core : Nat) (e : Entry), entryAt s l n = some e ∧ e.state = .tendering ∧ e.round = round ∧ (∀ a ∈ e.answers, a.1 ≠ core) ∧ ∃ c ∈ e.asked, c ≠ core ∧ ∀ a ∈ e.answers, a.1 ≠ c) :=
  ⟨⟨tendered [entry .waiting], 0, 2, 0, 0, entry .waiting, by decide +kernel, by decide +kernel⟩, ⟨tendered [{ entry .tendering with asked := [0, 1] }], 0, 2, 0, 0, { entry .tendering with asked := [0, 1] }, by decide +kernel, rfl, rfl, by decide +kernel, by decide +kernel⟩⟩

theorem witness_WindowsClose :
    (∃ (s : State) (l n core c : Nat) (e : Entry), l < 9 ∧ entryAt s l n = some e ∧ e.state = .tendering ∧ e.num = n ∧ (∀ a ∈ e.answers, a.1 ≠ core) ∧ (∀ d ∈ e.asked, d = core ∨ ∃ a ∈ e.answers, a.1 = d) ∧ winner l e = some c) ∧
    (∃ (s : State) (l n : Nat) (e : Entry), l < 8 ∧ entryAt s l n = some e ∧ e.state = .tendering ∧ e.num = n ∧ winner l e = none ∧ mayEscalate s l e = true) ∧
    (∃ (s : State) (l n : Nat) (e : Entry), l < 8 ∧ entryAt s l n = some e ∧ e.state = .tendering ∧ e.num = n ∧ winner l e = none ∧ mayEscalate s l e = false) ∧
    (∃ (s : State) (n : Nat) (e : Entry), entryAt s 8 n = some e ∧ e.state = .tendering ∧ e.num = n ∧ winner 8 e = none ∧ e.origin = some (0, 7)) :=
  ⟨⟨tendered [{ entry .tendering with asked := [0, 1, 2], answers := [(1, some (-4)), (2, none)] }], 0, 2, 0, 1, { entry .tendering with asked := [0, 1, 2], answers := [(1, some (-4)), (2, none)] }, by decide, by decide +kernel, rfl, rfl, by decide +kernel,
     by decide +kernel, by decide +kernel⟩,
   ⟨tendered [entry .tendering], 0, 2, entry .tendering, by decide, by decide +kernel, rfl, rfl, by decide +kernel, by decide +kernel⟩,
   ⟨tendered [{ entry .tendering with escalated := some 0 }], 0, 2, { entry .tendering with escalated := some 0 }, by decide, by decide +kernel, rfl, rfl, by decide +kernel, by decide +kernel⟩,
   ⟨updLocus 8 (fun x => { x with entries := [{ entry .tendering with origin := some (0, 7) }] }) onD, 2, { entry .tendering with origin := some (0, 7) }, by decide +kernel, rfl, rfl, by decide +kernel, rfl⟩⟩

theorem witness_Awards :
    (∃ (s : State) (l n core : Nat) (e : Entry) (slot : Slot), entryAt s l n = some e ∧ e.state = .awarded core ∧ e.num = n ∧ slotFor s core e.part e = some slot ∧
      (eligible s core e && (dieAt s (dieOf core)).tlbHeld.isEmpty && (match partAt s e.part with | some p => p.drain.isNone | none => false)) = true ∧ e.resume = none) ∧
    (∃ (s : State) (l n core : Nat) (e : Entry), entryAt s l n = some e ∧ e.state = .awarded core ∧ e.num = n ∧ (slotFor s core e.part e = none ∨
      (eligible s core e && (dieAt s (dieOf core)).tlbHeld.isEmpty && (match partAt s e.part with | some p => p.drain.isNone | none => false)) = false) ∧ (coreAt s core).withdrawals.length < 2) ∧
    (∃ (s : State) (l n core : Nat) (e : Entry), entryAt s l n = some e ∧ e.state = .awarded core ∧ e.num = n ∧ (slotFor s core e.part e = none ∨
      (eligible s core e && (dieAt s (dieOf core)).tlbHeld.isEmpty && (match partAt s e.part with | some p => p.drain.isNone | none => false)) = false) ∧ 2 ≤ (coreAt s core).withdrawals.length) :=
  ⟨⟨tendered [entry (.awarded 0)], 0, 2, 0, entry (.awarded 0), .free 1, by decide +kernel, rfl, rfl, by decide +kernel, by decide +kernel, rfl⟩,
   ⟨updDie (tendered [entry (.awarded 0)]) 0 (fun x => { x with tlbHeld := [4] }), 0, 2, 0, entry (.awarded 0), by decide +kernel, rfl, rfl, by decide +kernel, by decide +kernel⟩,
   ⟨updCore (updDie (tendered [entry (.awarded 0)]) 0 (fun x => { x with tlbHeld := [4] })) 0 (fun k => { k with withdrawals := [3, 900] }), 0, 2, 0, entry (.awarded 0), by decide +kernel, rfl, rfl, by decide +kernel, by decide +kernel⟩⟩

theorem witness_AwardsFail :
    ∃ (i : Instr) (s : State) (l n core : Nat) (e : Entry), l < 9 ∧ entryAt s l n = some e ∧ e.state = .awarded core ∧ e.num = n ∧ (i = .withdrawalReceive l n e.round core ∨ i = .commitTimeout l n e.round) ∧
      (tenderCores s l e).filter (fun c => !(e.leftOut ++ [core]).contains c) ≠ [] :=
  ⟨.commitTimeout 0 2 0, updPart (tendered [entry (.awarded 0)]) 0 (fun p => { p with cores := [0, 3] }), 0, 2, 0, entry (.awarded 0), by decide, by decide +kernel, rfl, rfl, .inr rfl, by decide +kernel⟩

/-- What core 0 has set aside for entry 2. -/
def award (slot : Nat) : Award := { locus := 0, entry := 2, slot := slot, node := 0x4000, tseq := 9, part := 0, region := 0, resume := none, rsv := 2, stack := none, frame := none, swap := false, committed := false }

/-- Core 0 has set slot n aside for entry 2, which is awarded to it. -/
def awaiting0 (n : Nat) : State := updCore (tendered [entry (.awarded 0)]) 0 (fun k => { k with awards := [award n] })

theorem witness_Commits :
    (∃ (s : State) (l n round core : Nat) (a : Award), (coreAt s core).awards.find? (fun a => a.locus == l && a.entry == n && !a.committed) = some a ∧ ∀ e, entryAt s l n = some e → e.state ≠ .awarded core ∨ e.round ≠ round) ∧
    (∃ (s : State) (l n core : Nat) (a : Award) (e : Entry) (node : List Byte), (coreAt s core).awards.find? (fun a => a.locus == l && a.entry == n && !a.committed) = some a ∧ entryAt s l n = some e ∧ e.state = .awarded core ∧ e.origin = none ∧
      a.slot < 4 ∧ (∀ b ∈ (coreAt s core).awards, b.slot = a.slot → b = a) ∧ a.resume = none ∧ (ctxAt s (core * 4 + a.slot)).task = none ∧ deviceRead s a.part a.node 128 = some node ∧
      (coreAt s core).scored.length + (copiedIn node).length ≤ 32) ∧
    (∃ (s : State) (l n core : Nat) (a : Award) (e : Entry), (coreAt s core).awards.find? (fun a => a.locus == l && a.entry == n && !a.committed) = some a ∧ entryAt s l n = some e ∧ e.state = .awarded core ∧ e.origin = none ∧
      a.slot < 4 ∧ (∀ b ∈ (coreAt s core).awards, b.slot = a.slot → b = a) ∧ (ctxAt s (core * 4 + a.slot)).task ≠ none ∧ a.swap = false ∧ givesUp (ctxAt s (core * 4 + a.slot)).state = false) := by
  obtain ⟨node, h, c⟩ := some_any (o := deviceRead (awaiting0 1) 0 0x4000 128) (p := fun node => decide ((coreAt (awaiting0 1) 0).scored.length + (copiedIn node).length ≤ 32)) (by decide +kernel)
  exact ⟨⟨updCore (tendered []) 0 (fun k => { k with awards := [award 1] }), 0, 2, 0, 0, award 1, by decide +kernel, fun e h => by rw [show entryAt (updCore (tendered []) 0 (fun k => { k with awards := [award 1] })) 0 2 = none from by decide +kernel] at h; cases h⟩,
    ⟨awaiting0 1, 0, 2, 0, award 1, entry (.awarded 0), node, by decide +kernel, by decide +kernel, rfl, rfl, by decide, by decide +kernel, rfl, by decide +kernel, h, of_decide_eq_true c⟩,
    ⟨awaiting0 0, 0, 2, 0, award 0, entry (.awarded 0), by decide +kernel, by decide +kernel, rfl, rfl, by decide, by decide +kernel, by decide +kernel, rfl, by decide +kernel⟩⟩

theorem pair_of {α β : Type} {x : α × β} {b : β} (h : x.2 = b) : ∃ a, x = (a, b) := ⟨x.1, by rw [← h]⟩

/-- The submission of the node at 0x4000 by core 0, held. -/
def heldNode : HeldSubmission := { part := 0, region := 0, node := 0x4000, submitter := some 0, resume := none, grun := none, restart := none }

/-- A Locus that has room again for it. -/
def reopened : State := updLocus 0 (fun x => { x with heldSubs := [heldNode] }) (tendered [entry .waiting])

theorem witness_Ageing :
    (∃ (s : State) (l n : Nat) (e : Entry), l < 9 ∧ entryAt s l n = some e ∧ e.num = n ∧ tenderPriority s e < tenderPriority s { e with rises := e.rises + 1 } ∧ e.rises + 1 < 7) ∧
    (∃ (s : State) (l n : Nat) (e : Entry), l < 8 ∧ entryAt s l n = some e ∧ e.num = n ∧ e.state = .escalated ∧ (locusAt s 8).entries.length < 1048576 ∧ ∀ y ∈ (locusAt s 8).entries, y.num ≠ (locusAt s 8).nextEntry) ∧
    (∃ (s : State) (l n : Nat) (e : Entry), l < 9 ∧ entryAt s l n = some e ∧ e.num = n ∧ e.state = .dispatched) ∧
    (∃ (s : State) (l n : Nat) (e : Entry), l < 9 ∧ entryAt s l n = some e ∧ e.num = n ∧ e.state = .escalated) ∧
    (∃ (s v : State) (l n : Nat) (e : Entry) (h : HeldSubmission) (rest : List HeldSubmission) (tseq : BitVec 32), l < 9 ∧ entryAt s l n = some e ∧ e.num = n ∧ (locusAt s l).heldSubs = h :: rest ∧ h.resume = none ∧ h.grun = none ∧
      (locusAt s l).entries.length < 1048576 ∧
      (∀ d, ((deviceRead (updLocus l (fun x => { x with heldSubs := rest }) s) h.part h.node 128).bind (gangPlace (updLocus l (fun x => { x with heldSubs := rest }) s))).map (·.1) = some d → d ≠ l →
        locusFull (locusAt (updLocus l (fun x => { x with heldSubs := rest }) s) d) = false) ∧
      submitFrom true h.part h.node l h.submitter h.submitter.isNone (updLocus l (fun x => { x with heldSubs := rest }) s) = (v, .accepted tseq)) := by
  obtain ⟨v, r⟩ := pair_of (x := submitFrom true 0 0x4000 0 (some 0) false (updLocus 0 (fun x => { x with heldSubs := [] }) reopened)) (b := .accepted 1) (by decide +kernel)
  have none_ : ((deviceRead (updLocus 0 (fun x => { x with heldSubs := [] }) reopened) 0 0x4000 128).bind (gangPlace (updLocus 0 (fun x => { x with heldSubs := [] }) reopened))).map (·.1) = none := by decide +kernel
  exact ⟨⟨tendered [entry .waiting], 0, 2, entry .waiting, by decide, by decide +kernel, rfl, by decide +kernel, by decide⟩,
    ⟨tendered [entry .escalated], 0, 2, entry .escalated, by decide, by decide +kernel, rfl, rfl, by decide +kernel, by decide +kernel⟩,
    ⟨tendered [entry .dispatched], 0, 2, entry .dispatched, by decide, by decide +kernel, rfl, rfl⟩,
    ⟨tendered [entry .escalated], 0, 2, entry .escalated, by decide, by decide +kernel, rfl, rfl⟩,
    ⟨reopened, v, 0, 2, entry .waiting, heldNode, [], 1, by decide, by decide +kernel, rfl, by decide +kernel, rfl, rfl, by decide +kernel, (fun d h => nomatch (none_.symm.trans h)), r⟩⟩

/-! ## Hypotheses that can be met: the runtime, clocks and queues -/

/-- The focus is in a state, with nothing else changed. -/
def inState (st : SlotState) (s : State) : State := inCtx (fun c => { c with state := st }) s

theorem witness_Saves :
    (∃ (s : State) (key : Nat) (r : SaveReason) (w : Option Wait) (f : Nat), (ctxAt s key).state = .saving r w f ∧ (ctxAt s key).release = none ∧ loadsTile s key = false) ∧
    (∃ (s : State) (key : Nat) (r : SaveReason) (w : Option Wait) (f : Nat), (ctxAt s key).state = .saving r w f ∧ (ctxAt s key).release ≠ none) ∧
    (∃ (s : State) (key : Nat) (r : SaveReason) (w : Option Wait) (f : Nat), (ctxAt s key).state = .saving r w f ∧ loadsTile s key = true) ∧
    (∃ (s : State) (key : Nat) (a : Award) (f : Nat), (coreAt s (key / 4)).awards.find? (fun a => a.committed && a.slot == key % 4) = some a ∧ (ctxAt s key).task ≠ none ∧ (ctxAt s key).state = .running ∧ a.frame = some f) ∧
    (∃ (s : State) (key : Nat) (r : SaveReason) (w : Option Wait) (f : Nat) (k : Task), (ctxAt s key).state = .saving r w f ∧ (ctxAt s key).task = some k ∧ (ctxAt s key).release = none ∧ (coreAt s (key / 4)).awards = [] ∧
      Memory.wf s.mem = true ∧ (∀ p ∈ s.pending, ∀ j ∈ p.issuers, j.thread ≠ threadOf (ctxAt s key)) ∧ (∀ x ∈ s.tokens, x.issuer.thread ≠ threadOf (ctxAt s key)) ∧ isDCore (key / 4) = false ∧ w = none) :=
  ⟨⟨inState (.saving .wait none 0x50000) onD, 0, _, _, _, rfl, rfl, by decide +kernel⟩, ⟨inCtx (fun c => { c with release := some .die }) (inState (.saving .wait none 0x50000) onD), 0, _, _, _, rfl, by decide +kernel⟩,
   ⟨inState (.saving .wait none 0x50000) (loadingInto 3 onD), 0, _, _, _, rfl, by decide +kernel⟩,
   ⟨updCore onD 0 (fun k => { k with awards := [{ award 0 with committed := true, frame := some 0x50000 }] }), 0, { award 0 with committed := true, frame := some 0x50000 }, 0x50000, by decide +kernel, by decide +kernel, rfl, rfl⟩,
   ⟨inState (.saving .wait none 0x50000) onS, 160, _, _, _, placedTask, rfl, rfl, rfl, by decide +kernel, by decide +kernel, by decide +kernel, by decide +kernel, by decide +kernel, rfl⟩⟩

/-- The state with units of die 0's plane granted. -/
def planed (l : List (Nat × (Nat × Nat))) (s : State) : State := updDie s 0 (fun x => { x with plane := l })

theorem witness_PlaneCalls :
    (∃ (s : State) (key : Nat) (k : Task) (n : Word), (ctxAt s key).task = some k ∧ (n.toNat = 0 ∨ 1024 < n.toNat)) ∧
    (∃ (s : State) (key : Nat) (k : Task) (n : Word), (ctxAt s key).task = some k ∧ 1 ≤ n.toNat ∧ n.toNat ≤ 1024 ∧ ∃ i ∈ ancestry s k.part k.region, ∃ r, regionAt s k.part i = some r ∧ r.eff.plane < r.planeUse + n.toNat) ∧
    (∃ (s : State) (key : Nat) (k : Task) (n : Word), (ctxAt s key).task = some k ∧ 1 ≤ n.toNat ∧ n.toNat ≤ 1024 ∧ (¬∃ i ∈ ancestry s k.part k.region, ∃ r, regionAt s k.part i = some r ∧ r.eff.plane < r.planeUse + n.toNat) ∧
      ∀ b, ¬(b + n.toNat ≤ 1024 ∧ ∀ j < n.toNat, lookupKey (b + j) (dieAt s (dieOf (key / 4))).plane = none)) ∧
    (∃ (s : State) (key : Nat) (k : Task) (n : Word), (ctxAt s key).task = some k ∧ 1 ≤ n.toNat ∧ n.toNat ≤ 1024 ∧ (¬∃ i ∈ ancestry s k.part k.region, ∃ r, regionAt s k.part i = some r ∧ r.eff.plane < r.planeUse + n.toNat) ∧
      ∃ b, b + n.toNat ≤ 1024 ∧ ∀ j < n.toNat, lookupKey (b + j) (dieAt s (dieOf (key / 4))).plane = none) ∧
    (∃ (s : State) (key : Nat) (k : Task) (n off : Word), (ctxAt s key).task = some k ∧ (off.toNat % 65536 ≠ 0 ∨ n.toNat = 0 ∨ 1024 < off.toNat / 65536 + n.toNat ∨
      ∃ j < n.toNat, lookupKey (off.toNat / 65536 + j) (dieAt s (dieOf (key / 4))).plane ≠ some (k.part, k.region))) ∧
    (∃ (s : State) (key : Nat) (k : Task) (n off : Word), (ctxAt s key).task = some k ∧ off.toNat % 65536 = 0 ∧ 1 ≤ n.toNat ∧ off.toNat / 65536 + n.toNat ≤ 1024 ∧
      ∀ j < n.toNat, lookupKey (off.toNat / 65536 + j) (dieAt s (dieOf (key / 4))).plane = some (k.part, k.region)) :=
  ⟨⟨onD, 0, placedTask, 1025, rfl, by decide⟩, ⟨{ onD with regions := [region 0 none .active] }, 0, placedTask, 1, rfl, by decide, by decide, 0, by decide +kernel, region 0 none .active, by decide +kernel, by decide⟩,
   ⟨planed [(0, (0, 0))] onD, 0, placedTask, 1024, rfl, by decide, by decide, fun ⟨_, _, _, h, _⟩ => (nomatch h), fun b ⟨h, g⟩ => absurd (g 0 (by decide))
     (by rw [show b = 0 from Nat.le_zero.mp (Nat.add_le_add_iff_right.mp (h : b + 1024 ≤ 0 + 1024))]; decide +kernel)⟩,
   ⟨onD, 0, placedTask, 1024, rfl, by decide, by decide, fun ⟨_, _, _, h, _⟩ => (nomatch h), 0, by decide, fun _ _ => rfl⟩,
   ⟨planed [(3, (0, 0))] onD, 0, placedTask, 2, 0x30000, rfl, .inr (.inr (.inr ⟨1, by decide, by decide +kernel⟩))⟩,
   ⟨planed [(3, (0, 0))] onD, 0, placedTask, 1, 0x30000, rfl, by decide, by decide, by decide, by decide +kernel⟩⟩

/-- The translation of the placed page. -/
def pageEntry : TlbEntry := { part := 0, vbase := 0, size := 65536, frame := 0x30000, r := true, w := true, x := true, u := true, pinned := none, revoked := false }

/-- The TLB of die 0 holds entries. -/
def dieHolds (l : List TlbEntry) (s : State) : State := updDie s 0 (fun x => { x with tlb := l })

theorem witness_Pins :
    (∃ (s : State) (key : Nat) (k : Task) (p : Part) (base len : Word), (ctxAt s key).task = some k ∧ partAt s k.part = some p ∧ ¬(base.toNat % 65536 = 0 ∧ len.toNat % 65536 = 0)) ∧
    (∃ (s : State) (key : Nat) (k : Task) (p : Part) (base len : Word), (ctxAt s key).task = some k ∧ partAt s k.part = some p ∧ (base.toNat % 65536 = 0 ∧ len.toNat % 65536 = 0) ∧
      (¬base.toNat + len.toNat ≤ 2 ^ 47 ∨ ∃ va ∈ pagesOf base.toNat len.toNat, ∃ f, walkEntry s p va = .error f)) ∧
    (∃ (s : State) (key : Nat) (k : Task) (p : Part) (base len : Word) (l : List TlbEntry), (ctxAt s key).task = some k ∧ partAt s k.part = some p ∧ (base.toNat % 65536 = 0 ∧ len.toNat % 65536 = 0) ∧ base.toNat + len.toNat ≤ 2 ^ 47 ∧
      leavesOf s p (pagesOf base.toNat len.toNat) = some l ∧ ∃ d ∈ partDies p, 2048 < (pinInto k.region l (dieAt s d).tlb).countP (fun e => e.pinned.isSome && !e.revoked)) ∧
    (∃ (s : State) (key : Nat) (k : Task) (p : Part) (base len : Word) (l : List TlbEntry), (ctxAt s key).task = some k ∧ partAt s k.part = some p ∧ (base.toNat % 65536 = 0 ∧ len.toNat % 65536 = 0) ∧ base.toNat + len.toNat ≤ 2 ^ 47 ∧
      leavesOf s p (pagesOf base.toNat len.toNat) = some l ∧ ¬∃ d ∈ partDies p, 2048 < (pinInto k.region l (dieAt s d).tlb).countP (fun e => e.pinned.isSome && !e.revoked)) ∧
    (∃ (s : State) (key : Nat) (k : Task) (p : Part) (base len : Word), (ctxAt s key).task = some k ∧ partAt s k.part = some p ∧ (¬(base.toNat % 65536 = 0 ∧ len.toNat % 65536 = 0) ∨ ¬base.toNat + len.toNat ≤ 2 ^ 47 ∨
      ∃ d ∈ partDies p, ∃ va ∈ pagesOf base.toNat len.toNat, ∀ e ∈ (dieAt s d).tlb, pinnedBy k.part k.region va e = false)) ∧
    (∃ (s : State) (key : Nat) (k : Task) (p : Part) (base len : Word), (ctxAt s key).task = some k ∧ partAt s k.part = some p ∧ (base.toNat % 65536 = 0 ∧ len.toNat % 65536 = 0) ∧ base.toNat + len.toNat ≤ 2 ^ 47 ∧
      ∀ d ∈ partDies p, ∀ va ∈ pagesOf base.toNat len.toNat, ∃ e ∈ (dieAt s d).tlb, pinnedBy k.part k.region va e = true) := by
  exact ⟨⟨onD, 0, placedTask, placedPart 0 0, 0x10000, 1, rfl, by decide +kernel, by decide⟩,
   ⟨onD, 0, placedTask, placedPart 0 0, 0, 0x20000, rfl, by decide +kernel, by decide, .inr ⟨0x10000, by decide +kernel, 26, by rfl⟩⟩,
   ⟨dieHolds (List.replicate 2048 { pageEntry with vbase := 0x10000, pinned := some 1 }) onD, 0, placedTask, placedPart 0 0, 0, 0x10000, [pageEntry], rfl, by decide +kernel, by decide, by decide, by rfl, 0, by decide +kernel, by decide +kernel⟩,
   ⟨onD, 0, placedTask, placedPart 0 0, 0, 0x10000, [pageEntry], rfl, by decide +kernel, by decide, by decide, by rfl, by decide +kernel⟩,
   ⟨onD, 0, placedTask, placedPart 0 0, 0, 0x10000, rfl, by decide +kernel, .inr (.inr (by decide +kernel))⟩,
   ⟨dieHolds [{ pageEntry with pinned := some 0 }] onD, 0, placedTask, placedPart 0 0, 0, 0x10000, rfl, by decide +kernel, by decide, by decide, by decide +kernel⟩⟩

theorem witness_Invalidations :
    (∃ (s : State) (key : Nat) (k : Task) (p : Part) (base len mode : Word), (ctxAt s key).task = some k ∧ partAt s k.part = some p ∧ (base.toNat % 65536 ≠ 0 ∨ len.toNat % 65536 ≠ 0 ∨ 1 < mode.toNat)) ∧
    (∃ (s : State) (key : Nat) (k : Task) (p : Part) (base len mode : Word), (ctxAt s key).task = some k ∧ partAt s k.part = some p ∧ ¬(base.toNat % 65536 ≠ 0 ∨ len.toNat % 65536 ≠ 0 ∨ 1 < mode.toNat) ∧ decide (mode = 1) = false ∧
      ∃ d ∈ partDies p, ∃ e ∈ (dieAt s d).tlb, overlapsRange k.part base.toNat len.toNat e = true ∧ e.pinned ≠ none ∧ e.revoked = false) ∧
    (∃ (s : State) (key : Nat) (k : Task) (p : Part) (base len mode : Word), (ctxAt s key).task = some k ∧ partAt s k.part = some p ∧ ¬(base.toNat % 65536 ≠ 0 ∨ len.toNat % 65536 ≠ 0 ∨ 1 < mode.toNat) ∧ decide (mode = 1) = true ∧
      ∃ d ∈ partDies p, ∃ e ∈ (dieAt s d).tlb, overlapsRange k.part base.toNat len.toNat e = true ∧ e.pinned ≠ none ∧ e.revoked = false) ∧
    (∃ (s : State) (key : Nat) (k : Task) (p : Part) (x : Inval), (ctxAt s key).task = some k ∧ partAt s k.part = some p ∧ s.invals.find? (·.num == x.num) = some x ∧ transfersIn s x = false ∧ x.drain = false ∧ x.asker = some k.thread ∧ slotOfThread s k.thread = some key ∧
      (ctxAt s key).state = .waiting (.invalidation x.num)) ∧
    (∃ (s : State) (key : Nat) (k : Task) (p : Part) (x : Inval), (ctxAt s key).task = some k ∧ partAt s k.part = some p ∧ s.invals.find? (·.num == x.num) = some x ∧ transfersIn s x = true) ∧
    (∃ (s : State) (key : Nat) (k : Task) (p : Part), (ctxAt s key).task = some k ∧ partAt s k.part = some p ∧ p.drain = some .operations) :=
  ⟨⟨onD, 0, placedTask, placedPart 0 0, 0, 0x10000, 2, rfl, by decide +kernel, by decide⟩,
   ⟨dieHolds [{ pageEntry with pinned := some 0 }] onD, 0, placedTask, placedPart 0 0, 0, 0x10000, 0, rfl, by decide +kernel, by decide, by decide, by decide +kernel⟩,
   ⟨dieHolds [{ pageEntry with pinned := some 0 }] onD, 0, placedTask, placedPart 0 0, 0, 0x10000, 1, rfl, by decide +kernel, by decide, by decide, by decide +kernel⟩,
   ⟨{ inState (.waiting (.invalidation 6)) onD with invals := [⟨6, 0, 0, 0x10000, false, some 0, false, false⟩] }, 0, placedTask, placedPart 0 0, ⟨6, 0, 0, 0x10000, false, some 0, false, false⟩, rfl, by decide +kernel, by decide +kernel, by decide +kernel, rfl, rfl, by decide +kernel, rfl⟩,
   ⟨{ moving { tileOp true none with kind := .tile true 0 [2] [{ row := 0, addr := 0x4000, key := 0x34000, off := tileOff 2 0 0, len := 32, data := List.replicate 32 7, fill := 0 }] none } with invals := [⟨6, 0, 0, 0x10000, false, some 0, false, false⟩] },
    0, placedTask, placedPart 0 0, ⟨6, 0, 0, 0x10000, false, some 0, false, false⟩, rfl, by decide +kernel, by decide +kernel, by decide +kernel⟩,
   ⟨updPart onD 0 (fun p => { p with drain := some .operations }), 0, placedTask, { placedPart 0 0 with drain := some .operations }, rfl, by decide +kernel, rfl⟩⟩

theorem witness_StandingFaults :
    (∃ (s : State) (key : Nat), (ctxAt s key).state = .waiting .poolEmpty ∧ (ctxAt s key).task = none) ∧ (∃ (s : State) (key : Nat) (k : Task), (ctxAt s key).state = .waiting .poolEmpty ∧ (ctxAt s key).task = some k) ∧
    (∃ (s : State) (key h : Nat) (k : Task), (ctxAt s key).state = .waiting (.rayPermit h) ∧ (ctxAt s key).task = some k) ∧ (∃ (s : State) (key : Nat), (ctxAt s key).state = .waiting .debugger ∧ (ctxAt s key).priv = .u) ∧
    (∃ (s : State) (key : Nat), (ctxAt s key).state = .waiting .debugger ∧ (ctxAt s key).priv = .s ∧ (ctxAt s key).pc = Config.runtimeEntry ∧ (ctxAt s key).scause = 3) :=
  ⟨⟨inState (.waiting .poolEmpty) State.reset, 0, rfl, rfl⟩, ⟨inState (.waiting .poolEmpty) onD, 0, placedTask, rfl, rfl⟩, ⟨inState (.waiting (.rayPermit 7)) onD, 0, 7, placedTask, rfl, rfl⟩, ⟨inState (.waiting .debugger) onD, 0, rfl, rfl⟩,
   ⟨inCtx (fun c => { c with state := .waiting .debugger, priv := .s, pc := Config.runtimeEntry, scause := 3 }) onD, 0, rfl, rfl, rfl, rfl⟩⟩

theorem witness_WaitsExpire :
    (∃ (s : State) (key : Nat) (rd : BitVec 5) (o target : Word), key < 2 ^ 32 ∧ slotOfThread s (threadOf (ctxAt s key)) = some key ∧ (ctxAt s key).state = .waiting (.twait rd o target)) ∧
    (∃ (s : State) (key : Nat) (rd : BitVec 5) (h p : Nat), key < 2 ^ 32 ∧ slotOfThread s (threadOf (ctxAt s key)) = some key ∧ (ctxAt s key).state = .waiting (.collective rd h p) ∧
      ∃ b, barrierAt s h = some b ∧ b.broken = false ∧ b.phase ≤ p) ∧
    (∃ (s : State) (key : Nat) (rd : BitVec 5) (h p : Nat), key < 2 ^ 32 ∧ slotOfThread s (threadOf (ctxAt s key)) = some key ∧ (ctxAt s key).state = .waiting (.barrier rd h p) ∧ ∃ b, barrierAt s h = some b ∧ p < b.phase) ∧
    (∃ (s : State) (key h : Nat), key < 2 ^ 32 ∧ slotOfThread s (threadOf (ctxAt s key)) = some key ∧ ∃ d, (ctxAt s key).state = .waiting (.rayRecv d h)) :=
  ⟨⟨awaiting onD, 0, 3, 0x4000, 1, by decide, by decide +kernel, rfl⟩, ⟨inState (.waiting (.collective 3 9 3)) (atBarrier id onD), 0, 3, 9, 3, by decide, by decide +kernel, rfl, barrier, by decide +kernel, rfl, by decide⟩,
   ⟨inState (.waiting (.barrier 3 9 2)) (atBarrier id onD), 0, 3, 9, 2, by decide, by decide +kernel, rfl, barrier, by decide +kernel, by decide⟩, ⟨inState (.waiting (.rayRecv 4 9)) onD, 0, 9, by decide, by decide +kernel, 4, rfl⟩⟩

/-- Virtual page 1 is remote, its bytes stand on flash, and the focus waits for it. -/
def remotePage : State :=
  let s := updPart (inState (.waiting (.page 0 1)) onD) 0 (fun p => { p with backing := (0x300000, 4), pages := [0x40000] })
  { s with fetches := [(0, 1)], mem := setBytes (physKey 0x300000) (bytesOf 8 16 ++ bytesOf 8 0x100000002) (setBytes (physKey 0x20008) (bytesOf 8 0x17D) s.mem) }

theorem witness_PageFetches :
    ∃ (s : State) (part page : Nat) (p : Part) (e f : Nat) (b : Backing) (key : Nat), (part, page) ∈ s.fetches ∧ partAt s part = some p ∧ stillRemote s p page = true ∧ fetchSource s p page = some (e, f, b) ∧
      (ctxAt s key).state = .waiting (.page part page) ∧ slotOfThread s (threadOf (ctxAt s key)) = some key ∧ Memory.wf s.mem = true :=
  ⟨remotePage, 0, 1, { placedPart 0 0 with backing := (0x300000, 4), pages := [0x40000] }, 0x17D, 0x40000, .flash 0 1 16, 0, by decide +kernel, by decide +kernel, by decide +kernel, by decide +kernel, rfl, by decide +kernel, by decide +kernel⟩

/-- The clock of die 0 in a state. -/
def clocked (st : Option StepStage) (ratio : Nat) (r : Option StepReq) (thermal : Nat) : State := updDie onD 0 (fun x => { x with clock := { x.clock with stage := st, ratio := ratio, current := r, thermalSteps := thermal } })

/-- A step that nobody waits for. -/
def stepTo (ratio : Nat) : StepReq := { ratio := ratio, askers := [] }

theorem witness_ClockSteps :
    (∃ (s : State) (d : Nat) (r : StepReq), d < 8 ∧ (dieAt s d).clock.stage = some .raising ∧ (dieAt s d).clock.current = some r) ∧
    (∃ (s : State) (d : Nat) (r : StepReq), d < 8 ∧ (dieAt s d).clock.stage = some .lowering ∧ (dieAt s d).clock.current = some r ∧ (dieAt s d).clock.held = none ∧ r.askers = []) ∧
    (∃ (s : State) (d : Nat) (r : StepReq), d < 8 ∧ (dieAt s d).clock.stage = some .relocking ∧ (dieAt s d).clock.current = some r ∧ r.ratio < (dieAt s d).clock.ratio) ∧
    (∃ (s : State) (d : Nat) (r : StepReq), d < 8 ∧ (dieAt s d).clock.stage = some .relocking ∧ (dieAt s d).clock.current = some r ∧ (dieAt s d).clock.ratio ≤ r.ratio ∧ (dieAt s d).clock.held = none ∧ r.askers = []) ∧
    (∃ (s : State) (d temp : Nat), d < 8 ∧ (dieAt s d).clock.stage = none ∧ (dieAt s d).clock.current = none ∧ (dieAt s d).clock.held = none ∧ temp < 100 ∧ (95 ≤ temp ∨ (dieAt s d).clock.thermalSteps = 0)) ∧
    (∃ (s : State) (d temp : Nat), d < 8 ∧ (dieAt s d).clock.stage = none ∧ (dieAt s d).clock.current = none ∧ (dieAt s d).clock.held = none ∧ 100 ≤ temp ∧ (dieAt s d).clock.thermalSteps < temp - 99 ∧
      6 + (temp - 99 - (dieAt s d).clock.thermalSteps) ≤ (dieAt s d).clock.ratio) ∧
    (∃ (s : State) (d temp : Nat), d < 8 ∧ (dieAt s d).clock.stage = none ∧ (dieAt s d).clock.current = none ∧ (dieAt s d).clock.held = none ∧ temp < 95 ∧ 0 < (dieAt s d).clock.thermalSteps ∧ (dieAt s d).clock.ratio < 18) :=
  ⟨⟨clocked (some .raising) 10 (some (stepTo 12)) 0, 0, stepTo 12, by decide +kernel⟩, ⟨clocked (some .lowering) 8 (some (stepTo 8)) 0, 0, stepTo 8, by decide +kernel⟩, ⟨clocked (some .relocking) 10 (some (stepTo 8)) 0, 0, stepTo 8, by decide +kernel⟩,
   ⟨clocked (some .relocking) 10 (some (stepTo 10)) 0, 0, stepTo 10, by decide +kernel⟩, ⟨clocked none 10 none 1, 0, 95, by decide +kernel⟩, ⟨clocked none 10 none 1, 0, 104, by decide +kernel⟩, ⟨clocked none 9 none 1, 0, 94, by decide +kernel⟩⟩

/-- Queue 1 in a state with rings at 1 GiB and 1 GiB + 1 MiB. -/
def onQueue (f : Queue → Queue) (s : State) : State :=
  updQueue { s with axis := { s.axis with windows := true, stage := .ready } } 1 (fun q => f { q with state := .running, alog2 := 6, slog2 := 6, sbase := 0x40000000, abase := 0x40100000 })

theorem witness_QueueRegisters :
    (∃ s : State, s.axis.windows = false) ∧ (∃ (s : State) (q : Nat), q < 64 ∧ s.axis.windows = true ∧ (queueAt s q).state = .disabled) ∧
    (∃ (s : State) (q : Nat), q < 64 ∧ s.axis.windows = true ∧ (queueAt s q).state ≠ .disabled ∧ (queueAt s q).state ≠ .draining ∧ (queueAt s q).cmds = []) ∧
    (∃ (s : State) (q : Nat) (v : Word), q < 64 ∧ s.axis.windows = true ∧ v.getLsbD 0 = true ∧ v.getLsbD 1 = false ∧ (queueAt s q).state = .stopped) ∧
    (∃ (s : State) (q : Nat) (v : Word), q < 64 ∧ s.axis.windows = true ∧ v.getLsbD 0 = true ∧ v.getLsbD 1 = false ∧ v.getLsbD 3 = false ∧ (queueAt s q).state = .running) ∧
    (∃ (s : State) (q : Nat) (v : Word), q < 64 ∧ s.axis.windows = true ∧ v.getLsbD 0 = true ∧ v.getLsbD 3 = false ∧ (queueAt s q).state = .draining) ∧
    (∃ (off : BitVec 12) (size : Nat), size ≠ 8 ∨ off.toNat % 8 ≠ 0 ∨ off.toNat ∈ [0x020, 0x048, 0x050, 0x058, 0x060] ∨ 0x800 ≤ off.toNat) :=
  ⟨⟨State.reset, rfl⟩, ⟨onD, 1, by decide +kernel⟩, ⟨onQueue id onD, 1, by decide +kernel⟩, ⟨onQueue (fun q => { q with state := .stopped }) onD, 1, 5, by decide +kernel⟩, ⟨onQueue id onD, 1, 5, by decide +kernel⟩,
   ⟨onQueue (fun q => { q with state := .draining }) onD, 1, 1, by decide +kernel⟩, ⟨0x800, 8, by decide⟩⟩

/-- A NOP command in slot 0 of queue 1's ring, numbered n, with its check. -/
def withSlot (n : Nat) (chk : Nat) (s : State) : State :=
  { s with mem := setBytes (physKey 0x40000000) (bytesOf 4 n ++ [0, 0] ++ bytesOf 2 chk ++ List.replicate 56 0) s.mem }

theorem witness_Consumption :
    (∃ (s : State) (q : Nat), q < 64 ∧ s.axis.stage = .ready ∧ canConsume (queueAt s q) = true ∧
      (let slot := physRead s ((queueAt s q).sbase.toNat + (queueAt s q).slot.toNat % 2 ^ (queueAt s q).slog2 * 64) 64
       recNat slot 6 2 ≠ slotCheck slot)) ∧
    (∃ (s : State) (q : Nat), q < 64 ∧ s.axis.stage = .ready ∧ canConsume (queueAt s q) = true ∧
      (let slot := physRead s ((queueAt s q).sbase.toNat + (queueAt s q).slot.toNat % 2 ^ (queueAt s q).slog2 * 64) 64
       recNat slot 6 2 = slotCheck slot ∧ BitVec.ofNat 32 (recNat slot 0 4) ≠ (queueAt s q).hseq + 1)) ∧
    (∃ (s : State) (q : Nat), q < 64 ∧ s.axis.stage = .ready ∧ canConsume (queueAt s q) = true ∧
      (let slot := physRead s ((queueAt s q).sbase.toNat + (queueAt s q).slot.toNat % 2 ^ (queueAt s q).slog2 * 64) 64
       recNat slot 6 2 = slotCheck slot ∧ BitVec.ofNat 32 (recNat slot 0 4) = (queueAt s q).hseq + 1)) := by
  exact ⟨⟨withSlot 1 1 (onQueue (fun q => { q with dbell := 1 }) onD), 1, by decide +kernel⟩,
    ⟨withSlot 2 (slotCheck (bytesOf 4 2 ++ List.replicate 60 0)) (onQueue (fun q => { q with dbell := 1 }) onD), 1, by decide +kernel⟩,
    ⟨withSlot 1 (slotCheck (bytesOf 4 1 ++ List.replicate 60 0)) (onQueue (fun q => { q with dbell := 1 }) onD), 1, by decide +kernel⟩⟩

/-- What the clause on an emission assumes beside the results. -/
def Emits (s : State) (q : Nat) (a : Answer) : Prop :=
  q < 64 ∧ s.axis.stage = .ready ∧ (∃ rest, (queueAt s q).due = a :: rest) ∧ canEmit (queueAt s q) = true ∧ (queueAt s q).state ≠ .draining ∧ (∀ p ∈ s.parts, p.drain = none) ∧
    s.waitingDrains = [] ∧ InMemory s ((queueAt s q).abase.toNat + ((queueAt s q).dseq + 1).toNat % 2 ^ (queueAt s q).alog2 * 32) 32

/-- The command of a GRUN that a drain has killed, whose answer is next. -/
def killedRun (s : State) (q : Nat) (a : Answer) (c : Cmd) : Prop := (queueAt s q).cmds.find? (fun c => c.hseq == a.hseq && c.opc == 6 && a.status == 7 && !a.event) = some c

/-- A queue bound to partition 0 with a GRUN killed, whose object is at virtual address 0x4000. -/
def killedState : State :=
  onQueue (fun q => { q with part := some 0, cmds := [{ slot := 0, hseq := 1, opc := 6, flags := 0, args := [0, 0x4000, 1], begun := true, left := 0, replaced := 0, onObject := none }], due := [⟨1, 6, 7, 5, 6, false⟩] }) onD

theorem witness_Emission :
    (∃ (s : State) (q : Nat) (a : Answer), Emits s q a ∧ ((queueAt s q).part = none ∨ ∀ c, ¬killedRun s q a c)) ∧
    (∃ (s : State) (q : Nat) (a : Answer) (part : Nat) (c : Cmd) (o : List Byte), Emits s q a ∧ (queueAt s q).part = some part ∧ killedRun s q a c ∧ deviceRead s part (c.args.getD 1 0) 16 = some o) := by
  obtain ⟨o, h⟩ := some_of_isSome (o := deviceRead killedState 0 0x4000 16) (by decide +kernel)
  exact ⟨⟨onQueue (fun q => { q with due := [⟨1, 0, 0, 5, 6, false⟩] }) onD, 1, ⟨1, 0, 0, 5, 6, false⟩, ⟨by decide, rfl, ⟨[], by decide +kernel⟩, by decide +kernel, by decide +kernel, by decide +kernel, rfl, by unfold InMemory; decide +kernel⟩,
      .inl (by decide +kernel)⟩,
    ⟨killedState, 1, ⟨1, 6, 7, 5, 6, false⟩, 0, { slot := 0, hseq := 1, opc := 6, flags := 0, args := [0, 0x4000, 1], begun := true, left := 0, replaced := 0, onObject := none }, o,
      ⟨by decide, rfl, ⟨[], by decide +kernel⟩, by decide +kernel, by decide +kernel, by decide +kernel, rfl, by unfold InMemory; decide +kernel⟩, by decide +kernel, by unfold killedRun; decide +kernel, h⟩⟩

/-! ## Hypotheses that can be met: commands -/

/-- A command in flight, numbered 1. -/
def cmd (opc : BitVec 8) (args : List Word) : Cmd := { slot := 0, hseq := 1, opc := opc, flags := 0, args := args, begun := false, left := 0, replaced := 0, onObject := none }

/-- Queue q has a command in flight, and is bound to a partition or to none. -/
def commanded (q : Nat) (part : Option Nat) (c : Cmd) (s : State) : State := updQueue s q (fun k => { k with state := .running, cmds := [c], part := part })

/-- `CmdWaits`, as a yes or no. -/
def isWaiting (s : State) (q : Nat) (hseq : BitVec 32) (c : Cmd) : Bool :=
  decide (q < 64) && decide (cmdAt s q hseq = some c) && !c.begun && (queueAt s q).due.all (fun a => a.event || a.hseq != hseq)

theorem cmdWaits {s : State} {q : Nat} {hseq : BitVec 32} {c : Cmd} (h : isWaiting s q hseq c = true) : CmdWaits s q hseq c := by
  simp only [isWaiting, Bool.and_eq_true, decide_eq_true_eq, Bool.not_eq_true', List.all_eq_true, Bool.or_eq_true, bne_iff_ne] at h
  exact ⟨h.1.1.1, h.1.1.2, h.1.2, h.2⟩

/-- `CmdReady`, as a yes or no. -/
def isReady (s : State) (q : Nat) (hseq : BitVec 32) (c : Cmd) (used : Nat) (bound : Bool) : Bool :=
  isWaiting s q hseq c && c.flags == 0 && (!bound || (queueAt s q).part.isSome) && (c.args.drop used).all (· == 0)

theorem cmdReady {s : State} {q : Nat} {hseq : BitVec 32} {c : Cmd} {used : Nat} {bound : Bool} (h : isReady s q hseq c used bound = true) : CmdReady s q hseq c used bound := by
  simp only [isReady, Bool.and_eq_true, beq_iff_eq, List.all_eq_true, Bool.or_eq_true, Bool.not_eq_true'] at h
  exact ⟨cmdWaits h.1.1.1, .inl (by rw [h.1.1.2]; rfl), fun b e => h.1.2.elim (fun x => by rw [b] at x; cases x) (fun x => by rw [e] at x; cases x), by rw [h.1.1.2]; rfl, h.2⟩

theorem witness_CommandChecks :
    (∃ (i : Instr) (s : State) (q : Nat) (hseq : BitVec 32) (used : Nat) (bound : Bool) (c : Cmd), commandForm i = some (q, hseq, used, bound) ∧ CmdWaits s q hseq c ∧ ¬(c.flags.toNat % 2 = 0 ∨ earliest s q hseq = true)) ∧
    (∃ (i : Instr) (s : State) (q : Nat) (hseq : BitVec 32) (used : Nat) (bound : Bool) (c : Cmd), commandForm i = some (q, hseq, used, bound) ∧ CmdWaits s q hseq c ∧ (c.flags.toNat % 2 = 0 ∨ earliest s q hseq = true) ∧ bound = true ∧
      (queueAt s q).part = none) ∧
    (∃ (i : Instr) (s : State) (q : Nat) (hseq : BitVec 32) (used : Nat) (bound : Bool) (c : Cmd), commandForm i = some (q, hseq, used, bound) ∧ CmdWaits s q hseq c ∧ (c.flags.toNat % 2 = 0 ∨ earliest s q hseq = true) ∧
      (bound = true → (queueAt s q).part ≠ none) ∧ (c.flags.toNat / 2 ≠ 0 ∨ ∃ a ∈ c.args.drop used, a ≠ 0)) :=
  ⟨⟨.nop 1 2, updQueue onD 1 (fun k => { k with cmds := [cmd 0 [], { cmd 0 [] with hseq := 2, flags := 1 }] }), 1, 2, 0, false, { cmd 0 [] with hseq := 2, flags := 1 }, rfl, cmdWaits (by decide +kernel), by decide +kernel⟩,
   ⟨.rretire 1 1, commanded 1 none (cmd 16 [1]) onD, 1, 1, 1, true, cmd 16 [1], rfl, cmdWaits (by decide +kernel), by decide +kernel, rfl, by decide +kernel⟩,
   ⟨.grun 1 1, commanded 1 (some 0) (cmd 6 [1, 0, 0, 2]) onD, 1, 1, 3, true, cmd 6 [1, 0, 0, 2], rfl, cmdWaits (by decide +kernel), by decide +kernel, by decide +kernel, .inr ⟨2, .head _, by decide⟩⟩⟩

theorem witness_SimpleCommands :
    (∃ s q hseq c, CmdReady s q hseq c 0 false) ∧ (∃ s q hseq c, CmdReady s q hseq c 1 false ∧ (c.args.getD 0 0).toNat < 2 ^ 32) ∧ (∃ s q hseq c, CmdReady s q hseq c 1 false ∧ 2 ^ 32 ≤ (c.args.getD 0 0).toNat) ∧
    (∃ s q hseq c, CmdReady s q hseq c 2 false ∧ 1 ≤ (c.args.getD 0 0).toNat ∧ (c.args.getD 0 0).toNat < 64 ∧ (queueAt s (c.args.getD 0 0).toNat).state = .disabled ∧ (c.args.getD 1 0).toNat = 0xFF) ∧
    (∃ s q hseq c, CmdReady s q hseq c 2 false ∧ 1 ≤ (c.args.getD 0 0).toNat ∧ (c.args.getD 0 0).toNat < 64 ∧ (queueAt s (c.args.getD 0 0).toNat).state = .disabled ∧ (c.args.getD 1 0).toNat ≠ 0xFF ∧
      partAt s (c.args.getD 1 0).toNat ≠ none ∧ (List.range 64).countP (fun i => i != (c.args.getD 0 0).toNat && (queueAt s i).part == some (c.args.getD 1 0).toNat) < 8) ∧
    (∃ s q hseq c, CmdReady s q hseq c 2 false ∧ ((c.args.getD 0 0).toNat = 0 ∨ 64 ≤ (c.args.getD 0 0).toNat ∨ (queueAt s (c.args.getD 0 0).toNat).state ≠ .disabled ∨
      ((c.args.getD 1 0).toNat ≠ 0xFF ∧ partAt s (c.args.getD 1 0).toNat = none))) ∧
    (∃ s q hseq c, CmdWaits s q hseq c ∧ earliest s q hseq = true) ∧ (∃ s q hseq c, CmdWaits s q hseq c ∧ earliest s q hseq = false) :=
  ⟨⟨commanded 1 none (cmd 0 []) onD, 1, 1, cmd 0 [], cmdReady (by decide +kernel)⟩, ⟨commanded 1 none (cmd 7 [0xFFFFFFFF]) onD, 1, 1, cmd 7 [0xFFFFFFFF], cmdReady (by decide +kernel), by decide⟩,
   ⟨commanded 1 none (cmd 7 [0x100000000]) onD, 1, 1, cmd 7 [0x100000000], cmdReady (by decide +kernel), by decide⟩,
   ⟨commanded 0 none (cmd 3 [63, 0xFF]) onD, 0, 1, cmd 3 [63, 0xFF], cmdReady (by decide +kernel), by decide, by decide, by decide +kernel, by decide⟩,
   ⟨commanded 0 none (cmd 3 [63, 0]) onD, 0, 1, cmd 3 [63, 0], cmdReady (by decide +kernel), by decide, by decide, by decide +kernel, by decide, by decide +kernel, by decide +kernel⟩,
   ⟨commanded 0 none (cmd 3 [64, 0]) onD, 0, 1, cmd 3 [64, 0], cmdReady (by decide +kernel), by decide⟩, ⟨commanded 1 none (cmd 10 []) onD, 1, 1, cmd 10 [], cmdWaits (by decide +kernel), by decide +kernel⟩,
   ⟨updQueue onD 1 (fun k => { k with cmds := [cmd 0 [], { cmd 10 [] with hseq := 2 }] }), 1, 2, { cmd 10 [] with hseq := 2 }, cmdWaits (by decide +kernel), by decide +kernel⟩⟩

/-- A record at 1.25 GiB of a partition of core 1 with the third GiB, with its page tables, and a region block as its root. -/
def withRecord (s : State) : State :=
  { s with mem := setBytes 0x80034024 ([16] ++ List.replicate 12 0 ++ [0x80, 0, 0, 0, 0, 0, 0, 4]) (setBytes 0x80020000 (bytesOf 8 0x8003007D) (setBytes 0x80010000 (bytesOf 8 0x80020001) (setBytes 0x80000000 (bytesOf 8 0x80010001)
      (setBytes 0x50000000 (bytesOf 8 0x4000 ++ bytesOf 8 0x80000000 ++ bytesOf 8 0x40000000 ++ List.replicate 24 0 ++ [2]) s.mem)))) }

theorem witness_PartitionCommands :
    (∃ s q hseq c, CmdReady s q hseq c 2 false ∧ createPart (c.args.getD 0 0).toNat (c.args.getD 1 0).toNat s = none) ∧ (∃ s u q hseq c, CmdReady s q hseq c 2 false ∧ createPart (c.args.getD 0 0).toNat (c.args.getD 1 0).toNat s = some u ∧ (settleQuiesced s).parts = s.parts) ∧
    (∃ s q hseq c, CmdReady s q hseq c 1 false ∧ mayDestroy s (c.args.getD 0 0).toNat = false) ∧
    (∃ s q hseq c p, CmdReady s q hseq c 1 false ∧ mayDestroy s (c.args.getD 0 0).toNat = true ∧ partAt s (c.args.getD 0 0).toNat = some p ∧ p.drain = none ∧ Machine.copying s (c.args.getD 0 0).toNat = false) ∧
    (∃ s hseq c, CmdReady s 0 hseq c 1 false ∧ partAt s (c.args.getD 0 0).toNat = none) ∧
    (∃ s q hseq c p, q ≠ 0 ∧ CmdReady s q hseq c 0 true ∧ partAt s (((queueAt s q).part).getD 64) = some p ∧ p.drain = none ∧ Machine.copying s (((queueAt s q).part).getD 64) = false) := by
  obtain ⟨u, h⟩ := some_of_isSome (o := createPart 0x50000000 1 (commanded 0 none (cmd 1 [0x50000000, 1]) (withRecord onD))) (by decide +kernel)
  exact ⟨⟨commanded 0 none (cmd 1 [64, 1]) onD, 0, 1, cmd 1 [64, 1], cmdReady (by decide +kernel), by rfl⟩,
    ⟨commanded 0 none (cmd 1 [0x50000000, 1]) (withRecord onD), u, 0, 1, cmd 1 [0x50000000, 1], cmdReady (by decide +kernel), h, by decide +kernel⟩,
    ⟨commanded 0 none (cmd 2 [5]) onD, 0, 1, cmd 2 [5], cmdReady (by decide +kernel), by decide +kernel⟩,
    ⟨commanded 0 none (cmd 2 [0]) onD, 0, 1, cmd 2 [0], placedPart 0 0, cmdReady (by decide +kernel), by decide +kernel, by decide +kernel, rfl, by decide +kernel⟩,
    ⟨commanded 0 none (cmd 4 [5]) onD, 1, cmd 4 [5], cmdReady (by decide +kernel), by decide +kernel⟩,
    ⟨commanded 1 (some 0) (cmd 4 []) onD, 1, 1, cmd 4 [], placedPart 0 0, by decide, cmdReady (by decide +kernel), by decide +kernel, rfl, by decide +kernel⟩⟩

/-- A root region without a restart policy. -/
def plainRoot : Region := { region 0 none .active with eff := { fields with policy := 0 } }

theorem witness_RegionCommands :
    (∃ s q part hseq c, (queueAt s q).part = some part ∧ CmdReady s q hseq c 2 true ∧ createRegion part (c.args.getD 0 0) (c.args.getD 1 0) s = none) ∧
    (∃ s q part hseq c idx v, (queueAt s q).part = some part ∧ CmdReady s q hseq c 2 true ∧ createRegion part (c.args.getD 0 0) (c.args.getD 1 0) s = some (idx, v)) ∧
    (∃ s q part hseq c, (queueAt s q).part = some part ∧ CmdReady s q hseq c 3 true ∧ (c.args.getD 1 0).toNat % 16 ≠ 0) ∧
    (∃ s u q part hseq c, (queueAt s q).part = some part ∧ CmdReady s q hseq c 3 true ∧ (c.args.getD 1 0).toNat % 16 = 0 ∧
      submitNode part (c.args.getD 0 0) (queueAt s q).home none true (updCmd q hseq (fun c => { c with begun := true }) s) = (u, .bad)) ∧
    (∃ s u q part hseq c, (queueAt s q).part = some part ∧ CmdReady s q hseq c 3 true ∧ (c.args.getD 1 0).toNat % 16 = 0 ∧
      submitNode part (c.args.getD 0 0) (queueAt s q).home none true (updCmd q hseq (fun c => { c with begun := true }) s) = (u, .budget)) ∧
    (∃ s u q part hseq c tseq o, (queueAt s q).part = some part ∧ CmdReady s q hseq c 3 true ∧ (c.args.getD 1 0).toNat % 16 = 0 ∧
      submitNode part (c.args.getD 0 0) (queueAt s q).home none true (updCmd q hseq (fun c => { c with begun := true }) s) = (u, .accepted tseq) ∧ deviceRead u part (c.args.getD 1 0) 16 = some o ∧ (c.args.getD 2 0).toNat ≤ recNat o 0 8) ∧
    (∃ s u q part hseq c tseq, (queueAt s q).part = some part ∧ CmdReady s q hseq c 3 true ∧ (c.args.getD 1 0).toNat % 16 = 0 ∧
      submitNode part (c.args.getD 0 0) (queueAt s q).home none true (updCmd q hseq (fun c => { c with begun := true }) s) = (u, .accepted tseq) ∧ c.args.getD 2 0 = 0 ∧ deviceRead u part (c.args.getD 1 0) 16 = none) ∧
    (∃ s u q part hseq c, (queueAt s q).part = some part ∧ CmdReady s q hseq c 3 true ∧ (c.args.getD 1 0).toNat % 16 = 0 ∧
      submitNode part (c.args.getD 0 0) (queueAt s q).home none true (updCmd q hseq (fun c => { c with begun := true }) s) = (u, .full)) ∧
    (∃ s u q part hseq c tseq, (queueAt s q).part = some part ∧ CmdReady s q hseq c 3 true ∧ (c.args.getD 1 0).toNat % 16 = 0 ∧
      submitNode part (c.args.getD 0 0) (queueAt s q).home none true (updCmd q hseq (fun c => { c with begun := true }) s) = (u, .accepted tseq) ∧ c.args.getD 2 0 ≠ 0 ∧
      ∀ o, deviceRead u part (c.args.getD 1 0) 16 = some o → recNat o 0 8 < (c.args.getD 2 0).toNat) ∧
    (∃ s q part hseq c, (queueAt s q).part = some part ∧ CmdReady s q hseq c 1 true ∧ regionAt s part ((c.args.getD 0 0).toNat % 65536) = none) ∧
    (∃ s q part hseq c r, (queueAt s q).part = some part ∧ CmdReady s q hseq c 1 true ∧ (regionAt s part ((c.args.getD 0 0).toNat % 65536) = some r ∧ (c.args.getD 0 0).toNat / 65536 = part ∧ r.idx ≠ 0 ∧ r.state ≠ .retired ∧
      ∀ x ∈ s.regions, x.part = part → x.parent = some r.idx → x.state = .retired)) := by
  let run (node : Word) (target : Word) (entry : Nat) (segs : Nat) (obj : Word := 0x5000) : State := commanded 1 (some 0) (cmd 6 [node, obj, target]) (tasked (nodeBytes entry 0 0) [{ plainRoot with eff := { fields with segs := segs } }] onD)
  let after (s : State) : State × Submitted := submitNode 0 0x4000 (queueAt s 1).home none true (updCmd 1 1 (fun c => { c with begun := true }) s)
  obtain ⟨v, e⟩ := some_of_isSome (o := createRegion 0 0x8000 0 (commanded 1 (some 0) (cmd 5 [0x8000]) { onD with regions := [plainRoot] })) (by decide +kernel)
  obtain ⟨u4, h4⟩ := pair_of (x := after (run 0x4000 0 2 64)) (b := .bad) (by decide +kernel)
  obtain ⟨u5, h5⟩ := pair_of (x := after (run 0x4000 0 0 1)) (b := .budget) (by decide +kernel)
  obtain ⟨u6, h6⟩ := pair_of (x := after (run 0x4000 0 0 64)) (b := .accepted 1) (by decide +kernel)
  obtain ⟨u7, h7⟩ := pair_of (x := after (run 0x4000 3 0 64)) (b := .accepted 1) (by decide +kernel)
  have o6 : (deviceRead (after (run 0x4000 0 0 64)).1 0 0x5000 16).isSome = true := by decide +kernel
  have o7 : (deviceRead (after (run 0x4000 3 0 64)).1 0 0x5000 16).all (fun o => decide (recNat o 0 8 < 3)) = true := by decide +kernel
  obtain ⟨u8, h8⟩ := pair_of (x := after (run 0x4000 0 0 64 0x20000)) (b := .accepted 1) (by decide +kernel)
  obtain ⟨u9, h9⟩ := pair_of (x := after (subsHeld (run 0x4000 0 0 64))) (b := .full) (by decide +kernel)
  have o8 : deviceRead (after (run 0x4000 0 0 64 0x20000)).1 0 0x20000 16 = none := by decide +kernel
  rw [h8] at o8
  rw [h6] at o6
  rw [h7] at o7
  obtain ⟨o, q6⟩ := some_of_isSome o6
  exact ⟨⟨commanded 1 (some 0) (cmd 5 [0x8001]) { onD with regions := [plainRoot] }, 1, 0, 1, cmd 5 [0x8001], by decide +kernel, cmdReady (by decide +kernel), by rfl⟩,
    ⟨commanded 1 (some 0) (cmd 5 [0x8000]) { onD with regions := [plainRoot] }, 1, 0, 1, cmd 5 [0x8000], v.1, v.2, by decide +kernel, cmdReady (by decide +kernel), e⟩,
    ⟨commanded 1 (some 0) (cmd 6 [0x4000, 8]) onD, 1, 0, 1, cmd 6 [0x4000, 8], by decide +kernel, cmdReady (by decide +kernel), by decide⟩,
    ⟨run 0x4000 0 2 64, u4, 1, 0, 1, cmd 6 [0x4000, 0x5000, 0], by decide +kernel, cmdReady (by decide +kernel), by decide, h4⟩,
    ⟨run 0x4000 0 0 1, u5, 1, 0, 1, cmd 6 [0x4000, 0x5000, 0], by decide +kernel, cmdReady (by decide +kernel), by decide, h5⟩,
    ⟨run 0x4000 0 0 64, u6, 1, 0, 1, cmd 6 [0x4000, 0x5000, 0], 1, o, by decide +kernel, cmdReady (by decide +kernel), by decide, h6, q6, Nat.zero_le _⟩,
    ⟨run 0x4000 0 0 64 0x20000, u8, 1, 0, 1, cmd 6 [0x4000, 0x20000, 0], 1, by decide +kernel, cmdReady (by decide +kernel), by decide, h8, rfl, o8⟩,
    ⟨subsHeld (run 0x4000 0 0 64), u9, 1, 0, 1, cmd 6 [0x4000, 0x5000, 0], by decide +kernel, cmdReady (by decide +kernel), by decide, h9⟩,
    ⟨run 0x4000 3 0 64, u7, 1, 0, 1, cmd 6 [0x4000, 0x5000, 3], 1, by decide +kernel, cmdReady (by decide +kernel), by decide, h7, by decide, fun o h => by
      rw [show deviceRead u7 0 0x5000 16 = some o from h] at o7
      exact of_decide_eq_true o7⟩,
    ⟨commanded 1 (some 0) (cmd 16 [7]) onD, 1, 0, 1, cmd 16 [7], by decide +kernel, cmdReady (by decide +kernel), by decide +kernel⟩,
    ⟨commanded 1 (some 0) (cmd 16 [1]) { onD with regions := [plainRoot, region 1 (some 0) .active] }, 1, 0, 1, cmd 16 [1], region 1 (some 0) .active, by decide +kernel, cmdReady (by decide +kernel), by decide +kernel⟩⟩

theorem witness_ClockCommands :
    (∃ s q d hseq c, CmdReady s q hseq c 2 false ∧ d < 8 ∧ ((c.args.getD 0 0).toNat = 0 ∨ 256 ≤ (c.args.getD 0 0).toNat ∨ (c.args.getD 1 0).toNat < 6 ∨ 18 < (c.args.getD 1 0).toNat)) ∧
    (∃ s q d hseq c, CmdReady s q hseq c 2 false ∧ d < 8 ∧ ¬((c.args.getD 0 0).toNat = 0 ∨ 256 ≤ (c.args.getD 0 0).toNat ∨ (c.args.getD 1 0).toNat < 6 ∨ 18 < (c.args.getD 1 0).toNat) ∧ (c.args.getD 0 0).toNat = 2 ^ d ∧
      (dieAt s d).clock.stage = none ∧ (dieAt s d).clock.ratio ≠ (c.args.getD 1 0).toNat) ∧
    (∃ s q d hseq c, CmdReady s q hseq c 2 false ∧ d < 8 ∧ ¬((c.args.getD 0 0).toNat = 0 ∨ 256 ≤ (c.args.getD 0 0).toNat ∨ (c.args.getD 1 0).toNat < 6 ∨ 18 < (c.args.getD 1 0).toNat) ∧ (c.args.getD 0 0).toNat = 2 ^ d ∧
      (dieAt s d).clock.stage = none ∧ (dieAt s d).clock.ratio = (c.args.getD 1 0).toNat) :=
  ⟨⟨commanded 0 none (cmd 15 [1, 19]) onD, 0, 0, 1, cmd 15 [1, 19], cmdReady (by decide +kernel), by decide, by decide⟩, ⟨commanded 0 none (cmd 15 [128, 18]) onD, 0, 7, 1, cmd 15 [128, 18], cmdReady (by decide +kernel), by decide, by decide, by decide,
     by decide +kernel, by decide +kernel⟩,
   ⟨commanded 0 none (cmd 15 [8, 10]) onD, 0, 3, 1, cmd 15 [8, 10], cmdReady (by decide +kernel), by decide, by decide, by decide, by decide +kernel, by decide +kernel⟩⟩

/-- A checkpoint of partition 0. -/
def checkpoint (load copying : Bool) : Checkpoint := { q := 1, hseq := 1, load := load, tierOff := 0x40000000, parts := [0], all := false, copying := copying }

theorem witness_Checkpoints :
    (∃ (i : Instr) (s : State) (q : Nat) (hseq : BitVec 32) (load : Bool) (c : Cmd), (i = .cksave q hseq ∧ load = false ∨ i = .ckload q hseq ∧ load = true) ∧ CmdReady s q hseq c 3 (q != 0) ∧ 1 < (c.args.getD 1 0).toNat) ∧
    (∃ (i : Instr) (s : State) (hseq : BitVec 32) (load : Bool) (c : Cmd), (i = .cksave 0 hseq ∧ load = false ∨ i = .ckload 0 hseq ∧ load = true) ∧ CmdReady s 0 hseq c 3 false ∧ (c.args.getD 1 0).toNat = 0 ∧ partAt s (c.args.getD 2 0).toNat = none) ∧
    (∃ (i : Instr) (s : State) (q : Nat) (hseq : BitVec 32) (load : Bool) (c : Cmd) (part : Nat) (p : Part), q ≠ 0 ∧ (i = .cksave q hseq ∧ load = false ∨ i = .ckload q hseq ∧ load = true) ∧ CmdReady s q hseq c 3 true ∧ (c.args.getD 1 0).toNat = 0 ∧ c.args.getD 2 0 = 0 ∧ (queueAt s q).part = some part ∧
      partAt s part = some p ∧ (c.args.getD 0 0).toNat % 2 ^ 30 = 0 ∧ (c.args.getD 0 0).toNat + p.hlen ≤ Config.tierSize) ∧
    (∃ (i : Instr) (s : State) (hseq : BitVec 32) (load : Bool) (c : Cmd), (i = .cksave 0 hseq ∧ load = false ∨ i = .ckload 0 hseq ∧ load = true) ∧ CmdReady s 0 hseq c 3 false ∧ (c.args.getD 1 0).toNat = 1 ∧ c.args.getD 2 0 = 0 ∧
      (c.args.getD 0 0).toNat % 2 ^ 30 = 0 ∧ (c.args.getD 0 0).toNat + 8 * Config.hbmPerDie ≤ Config.tierSize) ∧
    (∃ s q hseq k, checkpointAt s q hseq = some k ∧ k.all = false ∧ k.copying = false) ∧
    (∃ s q hseq k c p pid, checkpointAt s q hseq = some k ∧ k.all = false ∧ k.copying = true ∧ k.parts = [pid] ∧ partAt s pid = some p ∧ Memory.wf s.mem = true ∧ q < 64 ∧ cmdAt s q hseq = some c ∧
      ∀ a ∈ (queueAt s q).due, a.event = true ∨ a.hseq ≠ hseq) :=
  ⟨⟨.cksave 0 1, commanded 0 none (cmd 8 [0, 2, 0]) onD, 0, 1, false, cmd 8 [0, 2, 0], .inl ⟨rfl, rfl⟩, cmdReady (by decide +kernel), by decide⟩,
   ⟨.ckload 0 1, commanded 0 none (cmd 9 [0, 0, 5]) onD, 1, true, cmd 9 [0, 0, 5], .inr ⟨rfl, rfl⟩, cmdReady (by decide +kernel), by decide, by decide +kernel⟩,
   ⟨.ckload 1 1, commanded 1 (some 0) (cmd 9 [0x40000000]) onD, 1, 1, true, cmd 9 [0x40000000], 0, placedPart 0 0, by decide, .inr ⟨rfl, rfl⟩, cmdReady (by decide +kernel), by decide, by decide, by decide +kernel, by decide +kernel, by decide, by decide⟩,
   ⟨.cksave 0 1, commanded 0 none (cmd 8 [0, 1, 0]) onD, 1, false, cmd 8 [0, 1, 0], .inl ⟨rfl, rfl⟩, cmdReady (by decide +kernel), by decide, by decide, by decide, by decide⟩,
   ⟨{ onD with checkpoints := [checkpoint false false] }, 1, 1, checkpoint false false, by decide +kernel, rfl, rfl⟩,
   ⟨{ commanded 1 (some 0) { cmd 9 [0x40000000] with begun := true } onD with checkpoints := [checkpoint true true] }, 1, 1, checkpoint true true, { cmd 9 [0x40000000] with begun := true }, placedPart 0 0, 0, by decide +kernel, rfl, rfl, rfl, by decide +kernel,
    by decide +kernel, by decide, by decide +kernel, by decide +kernel⟩⟩

theorem witness_Watchdogs :
    (∃ (s : State) (q : Nat), q < 64 ∧ ¬(((queueAt s q).state = .running ∨ (queueAt s q).state = .held ∨ (queueAt s q).state = .stopped) ∧ (queueAt s q).wdog ≠ 0 ∧ (queueAt s q).cmds ≠ [] ∧ (queueAt s q).wleft = 0)) ∧
    (∃ (s : State) (q : Nat), q < 64 ∧ (((queueAt s q).state = .running ∨ (queueAt s q).state = .held ∨ (queueAt s q).state = .stopped) ∧ (queueAt s q).wdog ≠ 0 ∧ (queueAt s q).cmds ≠ [] ∧ (queueAt s q).wleft = 0) ∧ (queueAt s q).part = none) ∧
    (∃ (s : State) (q id : Nat) (p : Part), q < 64 ∧ (((queueAt s q).state = .running ∨ (queueAt s q).state = .held ∨ (queueAt s q).state = .stopped) ∧ (queueAt s q).wdog ≠ 0 ∧ (queueAt s q).cmds ≠ [] ∧ (queueAt s q).wleft = 0) ∧ q ≠ 0 ∧
      (queueAt s q).part = some id ∧ partAt s id = some p ∧ p.drain = none ∧ Machine.copying s id = false) :=
  ⟨⟨onD, 1, by decide +kernel⟩, ⟨updQueue (commanded 1 none (cmd 0 []) onD) 1 (fun k => { k with wdog := 5 }), 1, by decide +kernel⟩,
   ⟨updQueue (commanded 1 (some 0) (cmd 0 []) onD) 1 (fun k => { k with wdog := 5 }), 1, 0, placedPart 0 0, by decide +kernel⟩⟩

/-! ## Hypotheses that can be met: boot, management, memory from outside, links

A signature that is good and an image that passes rest on functions that the model leaves free (logs 8, 9, 11), so a witness of a clause about one takes one as given. -/

theorem ite_eq_none {c : Prop} [Decidable c] {a : Nat} {b : Option Nat} : (if c then some a else b) = none ↔ ¬c ∧ b = none := by split <;> simp_all

/-- Whether an image passes depends on the fused minimum SVNs alone. -/
theorem image_passes {s u : State} {kind : Nat} {x : List Byte} (h : imageFault s kind x = none) (m : u.axis.minSvn = s.axis.minSvn) : imageFault u kind x = none := by
  have e : minSvn u kind = minSvn s kind := by unfold minSvn; rw [m]
  unfold imageFault at h ⊢
  simp only [e, ite_eq_none] at h ⊢
  exact h

/-- The state in a boot stage. -/
def booting (st : BootStage) (tried : Nat) : State := { State.reset with axis := { State.reset.axis with stage := st, tried := tried } }

theorem getBytes_window (x : List Byte) (s : State) (w : Memory.wf s.mem = true) : getBytes (2 ^ 50) x.length (setBytes (2 ^ 50) x s.mem) = x := Laws.getBytes_setBytes (2 ^ 50) x w

/-- The ROM waits, and the source whose turn it is is the host or not. -/
def romWaits (host : Bool) (s : State) : Prop := s.axis.stage = .rom ∧ s.axis.powered = true ∧ hostSource s = host

/-- Whichever source is first, one of the two turns is that of the host and the other is not. -/
theorem turns (host : Bool) (m : Memory) : romWaits host { booting .rom 0 with mem := m } ∨ romWaits host { booting .rom 1 with mem := m } := by
  have h0 : hostSource { booting .rom 0 with mem := m } = Config.hostFirst := rfl
  have h1 : hostSource { booting .rom 1 with mem := m } = !Config.hostFirst := rfl
  unfold romWaits
  rw [h0, h1]
  cases host <;> cases Config.hostFirst <;> simp [booting, State.reset]

theorem turn (host : Bool) (m : Memory) : ∃ s : State, romWaits host s ∧ s.mem = m ∧ s.axis.minSvn = State.reset.axis.minSvn := by
  rcases turns host m with h | h
  · exact ⟨_, h, rfl, rfl⟩
  · exact ⟨_, h, rfl, rfl⟩

theorem witness_Boot (x y : List Byte) (px : imageFault State.reset 1 x = none) (py : imageFault State.reset 2 y = none) (n : x.length < 2 ^ 24) (z : x ≠ []) :
    (∃ s : State, s.axis.staged = none) ∧ (∃ (s : State) (x : List Byte), s.axis.staged = some x ∧ ∀ u : State, u.axis.minSvn = s.axis.minSvn → imageFault u 1 x = none) ∧
    (∃ (s : State) (len : Word), romWaits true s ∧ len.toNat % 2 ^ 24 ≠ 0 ∧ imageFault s 1 (getBytes (2 ^ 50) (len.toNat % 2 ^ 24) s.mem) = none) ∧
    (∃ (s : State) (img : List Byte), romWaits false s ∧ imageFault s 1 img = none) ∧
    (∃ (s : State) (img : List Byte), s.axis.stage = .bringup ∧ imageFault s 2 (runtimeImage img s) = none) := by
  have l : (BitVec.ofNat 64 x.length).toNat % 2 ^ 24 = x.length := by rw [BitVec.toNat_ofNat, Nat.mod_eq_of_lt (Nat.lt_trans n (by decide)), Nat.mod_eq_of_lt n]
  obtain ⟨s, hs, ms, vs⟩ := turn true (setBytes (2 ^ 50) x [])
  obtain ⟨u, hu, _, vu⟩ := turn false []
  refine ⟨⟨State.reset, rfl⟩, ⟨{ State.reset with axis := { State.reset.axis with staged := some x } }, x, rfl, fun u m => image_passes px m⟩,
    ⟨s, BitVec.ofNat 64 x.length, hs, by rw [l]; exact fun e => z (List.length_eq_zero_iff.mp e), ?_⟩, ⟨u, x, hu, image_passes px vu⟩, ⟨booting .bringup 0, y, rfl, image_passes py rfl⟩⟩
  rw [l, ms, show getBytes (2 ^ 50) x.length (setBytes (2 ^ 50) x []) = x from getBytes_window x State.reset rfl]
  exact image_passes px vs

/-- An image with a reserved byte that is not zero. -/
def reservedImage (kind : Nat) : List Byte := bytesOf 4 0x5A384657 ++ bytesOf 4 kind ++ List.replicate 8 1 ++ List.replicate 4080 0

theorem reserved_fails (u : State) : imageFault u 1 (reservedImage 1) = some 5 ∧ imageFault u 2 (reservedImage 2) = some 5 := by
  constructor <;> (unfold imageFault; rw [if_neg (by decide +kernel), if_pos (by decide +kernel)])

theorem witness_Boot_failures :
    (∃ (s : State) (x : List Byte) (c : Nat), s.axis.staged = some x ∧ ∀ u : State, u.axis.minSvn = s.axis.minSvn → imageFault u 1 x = some c) ∧
    (∃ s : State, s.axis.stage ≠ .rom) ∧ (∃ len : Word, len.toNat % 2 ^ 24 = 0) ∧
    (∀ host, ∃ (s : State) (len : Word) (c : Nat), romWaits host s ∧ len.toNat % 2 ^ 24 ≠ 0 ∧ imageFault s 1 (getBytes (2 ^ 50) (len.toNat % 2 ^ 24) s.mem) = some c) ∧
    (∃ (s : State) (img : List Byte) (c : Nat), romWaits false s ∧ imageFault s 1 img = some c) ∧ (∃ s : State, hostSource s = true) ∧
    (∃ s : State, s.axis.stage = .rom ∧ s.axis.powered = true ∧ 0 < s.axis.tried) ∧ (∃ s : State, s.axis.stage = .rom ∧ s.axis.powered = true ∧ s.axis.tried = 0) ∧
    (∃ (s : State) (img : List Byte) (c : Nat), s.axis.stage = .bringup ∧ imageFault s 2 (runtimeImage img s) = some c) ∧
    (∃ s : State, s.axis.bootRuntime = none) ∧ (∃ (s : State) (x : List Byte), s.axis.bootRuntime = some x) := by
  refine ⟨⟨{ State.reset with axis := { State.reset.axis with staged := some (reservedImage 1) } }, reservedImage 1, 5, rfl, fun u _ => (reserved_fails u).1⟩, ⟨booting .ready 0, nofun⟩, ⟨0x1000000, by decide⟩, fun host => ?_, ?_, ?_, ⟨booting .rom 1, rfl, rfl, by decide⟩,
    ⟨booting .rom 0, rfl, rfl, rfl⟩, ⟨booting .bringup 0, reservedImage 2, 5, rfl, (reserved_fails _).2⟩, ⟨State.reset, rfl⟩, ⟨{ State.reset with axis := { State.reset.axis with bootRuntime := some [] } }, [], rfl⟩⟩
  · obtain ⟨s, h, m, _⟩ := turn host (setBytes (2 ^ 50) (reservedImage 1) [])
    refine ⟨s, 4096, 5, h, by decide, ?_⟩
    rw [m, show (4096 : Word).toNat % 2 ^ 24 = (reservedImage 1).length from by decide +kernel, show getBytes (2 ^ 50) (reservedImage 1).length (setBytes (2 ^ 50) (reservedImage 1) []) = reservedImage 1 from getBytes_window _ State.reset rfl]
    exact (reserved_fails s).1
  · obtain ⟨s, h, _, _⟩ := turn false []
    exact ⟨s, reservedImage 1, 5, h, (reserved_fails s).1⟩
  · obtain ⟨s, h, _, _⟩ := turn true []
    exact ⟨s, h.2.2⟩

/-- A die is at 110 °C. -/
def hot (s : State) : State := updDie s 0 (fun x => { x with released := true, clock := { x.clock with temp := 110 } })

/-- The reaction of the alarm to a cause is level n. -/
def alarmAt (j : Fin 5) (n : BitVec 2) (s : State) : State := { s with axis := { s.axis with alarm := { s.axis.alarm with levels := s.axis.alarm.levels.set j n } } }

/-- What some cause's level reaches. -/
def reaches (s : State) (told : BitVec 5) (n : Nat) : Prop := ∃ j < 5, (told ||| causesOf s).getLsbD j = true ∧ n ≤ max 1 (s.axis.alarm.levels.toList.getD j 0).toNat

theorem witness_Alarms :
    (∃ (s : State) (told : BitVec 5), s.axis.powered = true ∧ told ||| causesOf s = 0) ∧ (∃ s : State, s.axis.powered = true ∧ (causesOf s).getLsbD 2 = true) ∧
    (∃ (s : State) (told : BitVec 5), s.axis.powered = true ∧ told ||| causesOf s ≠ 0 ∧ ¬reaches s told 2) ∧
    (∃ (s : State) (told : BitVec 5), s.axis.powered = true ∧ told ||| causesOf s ≠ 0 ∧ reaches s told 2 ∧ s.axis.stage ≠ .halted ∧ ¬reaches s told 3) ∧
    (∃ (s : State) (told : BitVec 5), s.axis.powered = true ∧ told ||| causesOf s ≠ 0 ∧ reaches s told 3) ∧
    (∃ s : State, s.axis.powered = true ∧ s.axis.store.erasing = true) ∧ (∃ s : State, s.axis.powered = true ∧ s.axis.store.erasing = false) :=
  ⟨⟨State.reset, 0, rfl, by decide +kernel⟩, ⟨hot State.reset, rfl, by decide +kernel⟩, ⟨State.reset, 8, rfl, by decide +kernel, by unfold reaches; decide +kernel⟩,
   ⟨State.reset, 1, rfl, by decide +kernel, by unfold reaches; decide +kernel, nofun, by unfold reaches; decide +kernel⟩, ⟨alarmAt 0 3 State.reset, 1, rfl, by decide +kernel, by unfold reaches; decide +kernel⟩,
   ⟨{ State.reset with axis := { State.reset.axis with store := { State.reset.axis.store with erasing := true } } }, rfl, rfl⟩, ⟨State.reset, rfl, rfl⟩⟩

/-- The state with a key store that has an identity and one operator. -/
def withStore (k : List Byte) (last : Word) (s : State) : State :=
  { s with axis := { s.axis with stage := .ready, store := { keys := some ([1], [2]), erasing := false, erasedAt := none, boots := 1, operators := [(k, last)], past := [] } } }

theorem witness_OpenServices : (∃ s : State, s.axis.powered = false) ∧ (∃ s : State, s.axis.powered = true ∧ s.axis.store.keys = none) ∧ (∃ (s : State) (priv pub : List Byte), s.axis.powered = true ∧ s.axis.store.keys = some (priv, pub)) :=
  ⟨⟨{ State.reset with axis := { State.reset.axis with powered := false } }, rfl⟩, ⟨State.reset, rfl, rfl⟩, ⟨withStore [] 0 onD, [1], [2], rfl, rfl⟩⟩

/-- A request by the operator in place 0. -/
def request (counter : Word) (sig : List Byte) : Auth := { key := 0, counter := counter, sig := sig }

/-- The state that has taken the counter of that operator's request. -/
def took (s : State) : State := { withStore [7] 0 s with axis := { (withStore [7] 0 s).axis with store := { (withStore [7] 0 s).axis.store with operators := [([7], 1)] } } }

/-- A request that the operator in place 0 has signed, with a counter above 0, is accepted. -/
theorem accepted (svc : Nat) (args : List Nat) (h : Config.requestSigned [7] svc args 1 [] = true) (s : State) (p : s.axis.powered = true) : Accepted (withStore [7] 0 s) (request 1 []) svc args (took s) :=
  ⟨p, nofun, [7], 0, rfl, by decide, h, rfl⟩

theorem witness_SignedServices_refused : ∃ (i : Instr) (s : State) (a : Auth) (svc : Nat) (args : List Nat), signedForm i = some (a, svc, args) ∧ s.axis.powered = true ∧ s.axis.stage ≠ .halted ∧
    ∀ k last, s.axis.store.operators[a.key]? = some (k, last) → ¬(last.toNat < a.counter.toNat ∧ Config.requestSigned k svc args a.counter a.sig = true) :=
  ⟨.step (request 5 []) 0 12, withStore [] 5 onD, request 5 [], 7, [0, 12], rfl, rfl, nofun, fun k last h g => by cases h; exact absurd g.1 (by decide)⟩

theorem witness_SignedServices (all : ∀ svc args, Config.requestSigned [7] svc args 1 [] = true) :
    (∃ s u a d q, Accepted s a 3 [d, (q : BitVec 32).toNat] u ∧ d ≤ 8) ∧ (∃ s u a d n, Accepted s a 4 [d, n] u ∧ d ≤ 8 ∧ n < 32) ∧ (∃ s u a d n x y, Accepted s a 4 [d, n, (x : Word).toNat, (y : Word).toNat] u ∧ d ≤ 8 ∧ n < 32) ∧
    (∃ s u a img c, Accepted s a 5 ((img : List Byte).map (·.toNat)) u ∧ imageFault u (if recNat img 4 4 = 2 then 2 else 1) img = some c) ∧
    (∃ s u a x y w, Accepted s a 6 [(1 : BitVec 8).toNat, (x : Word).toNat, (y : Word).toNat] u ∧ s.axis.stage = .ready ∧ createPart x.toNat y.toNat u = some w) ∧
    (∃ s u a x y, Accepted s a 6 [(1 : BitVec 8).toNat, (x : Word).toNat, (y : Word).toNat] u ∧ s.axis.stage = .ready ∧ createPart x.toNat y.toNat u = none) ∧
    (∃ s u a x y w, Accepted s a 6 [(3 : BitVec 8).toNat, (x : Word).toNat, (y : Word).toNat] u ∧ s.axis.stage = .ready ∧ bindQueue x.toNat y.toNat u = some w) ∧
    (∃ s u a x y, Accepted s a 6 [(5 : BitVec 8).toNat, (x : Word).toNat, (y : Word).toNat] u ∧ s.axis.stage = .ready) ∧
    (∃ s u a x y p, Accepted s a 6 [(2 : BitVec 8).toNat, (x : Word).toNat, (y : Word).toNat] u ∧ s.axis.stage = .ready ∧ mayDestroy s x.toNat = true ∧ partAt s x.toNat = some p ∧ p.drain = none ∧ Machine.copying s x.toNat = false) ∧
    (∃ s u a x y p, Accepted s a 6 [(4 : BitVec 8).toNat, (x : Word).toNat, (y : Word).toNat] u ∧ s.axis.stage = .ready ∧ partAt s x.toNat = some p ∧ p.drain = none ∧ Machine.copying s x.toNat = false) ∧
    (∃ s u a d n, Accepted s a 7 [d, n] u ∧ (8 ≤ d ∨ n < 6 ∨ 18 < n)) ∧
    (∃ s u a d n, Accepted s a 7 [d, n] u ∧ d < 8 ∧ 6 ≤ n ∧ n ≤ 18 ∧ (dieAt s d).clock.stage = none ∧ (dieAt s d).clock.ratio ≠ n) ∧
    (∃ s u a, Accepted s a 8 [] u ∧ s.axis.alarm.locked = false) ∧ (∃ s u a v, ∃ lock : Bool, Accepted s a 8 [(v : BitVec 10).toNat, if lock then 1 else 0] u ∧ s.axis.alarm.locked = true) := by
  have a (s : State) (p : s.axis.powered = true) (svc : Nat) (args : List Nat) := accepted svc args (all svc args) s p
  obtain ⟨w5, g5⟩ := some_of_isSome (o := createPart 0x50000000 1 (took (withRecord onD))) (by decide +kernel)
  obtain ⟨w7, g7⟩ := some_of_isSome (o := bindQueue 5 0 (took onD)) (by decide +kernel)
  exact ⟨⟨_, _, _, 8, 5, a onD rfl _ _, by decide⟩, ⟨_, _, _, 8, 31, a onD rfl _ _, by decide, by decide⟩, ⟨_, _, _, 0, 0, 5, 6, a onD rfl _ _, by decide, by decide⟩, ⟨_, _, _, [], _, a onD rfl _ _, rfl⟩,
    ⟨_, _, _, 0x50000000, 1, w5, a (withRecord onD) rfl _ _, rfl, g5⟩, ⟨_, _, _, 64, 1, a onD rfl _ _, rfl, rfl⟩, ⟨_, _, _, 5, 0, w7, a onD rfl _ _, rfl, g7⟩, ⟨_, _, _, 0, 0, a onD rfl _ _, rfl⟩, ⟨_, _, _, 0, 0, placedPart 0 0, a onD rfl _ _, rfl, by decide +kernel, rfl, rfl, rfl⟩,
    ⟨_, _, _, 0, 0, placedPart 0 0, a onD rfl _ _, rfl, rfl, rfl, rfl⟩,
    ⟨_, _, _, 7, 19, a onD rfl _ _, by decide⟩, ⟨_, _, _, 7, 18, a onD rfl _ _, by decide, by decide, by decide, rfl, by decide +kernel⟩, ⟨_, _, _, a onD rfl _ _, rfl⟩,
    ⟨_, _, _, 3, true, a { onD with axis := { onD.axis with alarm := { onD.axis.alarm with locked := true } } } rfl _ _, rfl⟩⟩

theorem witness_SignedServices_image (x : List Byte) (h : Config.requestSigned [7] 5 (x.map (·.toNat)) 1 [] = true) (px : imageFault State.reset (if recNat x 4 4 = 2 then 2 else 1) x = none) :
    ∃ s u a, Accepted s a 5 (x.map (·.toNat)) u ∧ imageFault u (if recNat x 4 4 = 2 then 2 else 1) x = none := ⟨_, _, _, accepted _ _ h onD rfl, image_passes px rfl⟩

/-- A key that a request enrols has signed it, with a counter above its last. -/
def enrols (s : State) (a : Auth) (keys : List (List Byte)) (k : List Byte) : Prop :=
  keys[a.key]? = some k ∧ (lastCounter s.axis.store k).toNat < a.counter.toNat ∧ Config.requestSigned k 9 (keys.flatMap (fun k => k.length :: k.map (·.toNat))) a.counter a.sig = true

theorem witness_Provisioning (k sig : List Byte) (counter : Word) (c : 0 < counter.toNat) (h : Config.requestSigned k 9 (k.length :: k.map (·.toNat)) counter sig = true) :
    (∃ s : State, s.axis.powered = true ∧ s.axis.store.operators = [] ∧ s.axis.stage = .halted) ∧
    (∃ (s : State) (a : Auth) (keys : List (List Byte)), s.axis.powered = true ∧ s.axis.store.operators = [] ∧ s.axis.stage ≠ .halted ∧ ∀ k, ¬enrols s a keys k) ∧
    (∃ (s : State) (a : Auth) (keys : List (List Byte)) (k : List Byte), s.axis.powered = true ∧ s.axis.store.operators = [] ∧ s.axis.stage ≠ .halted ∧ enrols s a keys k ∧ s.axis.store.keys ≠ none) ∧
    (∃ (s : State) (a : Auth) (keys : List (List Byte)) (k : List Byte), s.axis.powered = true ∧ s.axis.store.operators = [] ∧ s.axis.stage ≠ .halted ∧ enrols s a keys k ∧ s.axis.store.keys = none ∧ keys.length ≤ 8) := by
  have g : Config.requestSigned k 9 ([k].flatMap (fun k => k.length :: k.map (·.toNat))) counter sig = true := by simpa using h
  exact ⟨⟨booting .halted 0, rfl, rfl, rfl⟩, ⟨State.reset, request counter sig, [], rfl, rfl, nofun, fun _ e => nomatch e.1⟩,
    ⟨{ State.reset with axis := { State.reset.axis with store := { State.reset.axis.store with keys := some ([], []) } } }, request counter sig, [k], k, rfl, rfl, nofun, ⟨rfl, c, g⟩, nofun⟩,
    ⟨State.reset, request counter sig, [k], k, rfl, rfl, nofun, ⟨rfl, c, g⟩, rfl, by simp⟩⟩

theorem witness_OutsideMemory :
    (∃ (s : State) (addr : Nat) (bs : List Byte), bs ≠ [] ∧ addr + bs.length ≤ 8 * Config.hbmPerDie ∧ Memory.wf s.mem = true) ∧ (∃ (s : State) (addr : Nat) (bs : List Byte), bs ≠ [] ∧ (2 ^ 50 ≤ addr ∧ addr + bs.length ≤ 2 ^ 50 + 2 ^ 24) ∧ Memory.wf s.mem = true) ∧
    (∃ (addr : Nat) (bs : List Byte), bs ≠ [] ∧ ¬addr + bs.length ≤ 8 * Config.hbmPerDie ∧ ¬(2 ^ 50 ≤ addr ∧ addr + bs.length ≤ 2 ^ 50 + 2 ^ 24)) ∧ (∃ addr unit : Nat, addr < 8 * Config.hbmPerDie ∧ 5 ≤ unit) ∧ (∃ addr : Nat, addr < 384 * 2 ^ 20) ∧
    (∃ (s : State) (addr : Nat), addr < 384 * 2 ^ 12 ∧ addr % 2 ^ 12 ∈ numbersTaken (coreAt s (addr / 2 ^ 12))) ∧ (∃ (s : State) (addr : Nat), addr < 384 * 2 ^ 12 ∧ addr % 2 ^ 12 ∉ numbersTaken (coreAt s (addr / 2 ^ 12))) :=
  ⟨⟨onD, 0xBFFFFFFFFF, [7], by decide, by decide, by decide +kernel⟩, ⟨onD, 2 ^ 50 + 0xFFFFFF, [7], by decide, by decide, by decide +kernel⟩, ⟨0xC000000000, [7], by decide, by decide, by decide⟩, ⟨0xBFFFFFFFFF, 5, by decide⟩, ⟨402653183, by decide⟩,
   ⟨inVec 5 16 onD, 1, by decide, by decide +kernel⟩, ⟨onD, 384 * 2 ^ 12 - 1, by decide, by decide +kernel⟩⟩

/-- A header with its CRC, over a payload of zeros. -/
def sealed (low : Nat) : BitVec 64 := BitVec.ofNat 64 (low + flitCrc (BitVec.ofNat 64 low) 0 * 2 ^ 48)

/-- Port E of die 0 is up. -/
def linked : State := updPort 0 0 (fun x => { x with up := true }) onD

/-- A flit that port E of die 0 receives out of relock, with a CRC that holds and no reserved field. -/
def Passes (s : State) (h : BitVec 64) : Prop := (portAt s 0 0).up = true ∧ relocking (dieAt s 0) = false ∧ h.toNat / 2 ^ 48 = flitCrc h 0 ∧ badFlit h = false

/-- Die 0 stands in a relock. -/
def inRelock (s : State) : State := updDie s 0 (fun x => { x with clock := { x.clock with stage := some .relocking } })

/-- Ports E of dies 0 and 1 are up, with a receive buffer free at the partner of each. -/
def linked2 : State := updPort 1 0 (fun x => { x with up := true, credits := 1 }) (updPort 0 1 (fun x => { x with up := true, credits := 1 }) linked)

theorem witness_Flits :
    (∃ s : State, (portAt s 0 0).up = true ∧ relocking (dieAt s 0) = true) ∧
    (∃ (s : State) (h : BitVec 64), (portAt s 0 0).up = true ∧ relocking (dieAt s 0) = false ∧ h.toNat / 2 ^ 48 ≠ flitCrc h 0) ∧
    (∃ (s : State) (h : BitVec 64), (portAt s 0 0).up = true ∧ relocking (dieAt s 0) = false ∧ h.toNat / 2 ^ 48 = flitCrc h 0 ∧ badFlit h = true ∧ flitSeq h = (portAt s 0 0).seqIn) ∧
    (∃ s h, Passes s h ∧ flitAck h = 0 ∧ flitSeq h = (portAt s 0 0).seqIn ∧ flitDst h = 0 ∧ (portAt s 0 0).waiting = []) ∧
    (∃ s h, Passes s h ∧ flitAck h = 0 ∧ flitSeq h = (portAt s 0 0).seqIn ∧ flitDst h ≠ 0 ∧ (portAt s (0 : Nat) (routePort s 0 (flitDst h))).up = true ∧ (portAt s 0 (routePort s 0 (flitDst h))).waiting = [] ∧
      0 < (portAt s 0 (routePort s 0 (flitDst h))).credits) ∧
    (∃ s h, Passes s h ∧ flitAck h = 0 ∧ flitSeq h ≠ (portAt s 0 0).seqIn ∧ seqUpTo (flitSeq h) (portAt s 0 0).seqIn = true) ∧
    (∃ s h, Passes s h ∧ flitAck h = 0 ∧ seqUpTo (flitSeq h) (portAt s 0 0).seqIn = false) ∧
    (∃ s h, Passes s h ∧ flitAck h = 1 ∧ flitType h = 8 ∧ (portAt s 0 0).waiting = []) ∧
    (∃ s h, Passes s h ∧ flitAck h = 2 ∧ flitType h = 8 ∧ 7 ≤ (portAt s 0 0).replays ∧ ∃ f ∈ (portAt s 0 0).outbox, seqUpTo (flitSeq h) (flitSeq f.1) = true) :=
  ⟨⟨inRelock linked, by decide +kernel, by decide +kernel⟩, ⟨linked, 0, by decide +kernel, by decide +kernel, by decide +kernel⟩,
   ⟨linked, sealed (9 * 2 ^ 20), by decide +kernel, by decide +kernel, by decide +kernel, by decide +kernel, by decide +kernel⟩,
   ⟨linked, sealed 0, by unfold Passes; decide +kernel, by decide +kernel, by decide +kernel, by decide +kernel, by decide +kernel⟩,
   ⟨linked2, sealed (3 * 2 ^ 24), by unfold Passes; decide +kernel, by decide +kernel, by decide +kernel, by decide +kernel, by decide +kernel, by decide +kernel, by decide +kernel⟩,
   ⟨linked, sealed (1023 * 2 ^ 38), by unfold Passes; decide +kernel, by decide +kernel, by decide +kernel, by decide +kernel⟩,
   ⟨linked, sealed (2 ^ 38), by unfold Passes; decide +kernel, by decide +kernel, by decide +kernel⟩,
   ⟨linked, sealed (8 * 2 ^ 20 + 2 ^ 16), by unfold Passes; decide +kernel, by decide +kernel, by decide +kernel, by decide +kernel⟩,
   ⟨updPort 0 0 (fun x => { x with replays := 7, outbox := [(sealed 0, 0)] }) linked, sealed (8 * 2 ^ 20 + 2 * 2 ^ 16), by unfold Passes; decide +kernel, by decide +kernel, by decide +kernel, by decide +kernel, (sealed 0, 0), by decide +kernel, by decide +kernel⟩⟩

theorem witness_Links :
    (∃ (s : State) (d p : Nat), d < 8 ∧ p < 4 ∧ (portAt s d p).down = true) ∧ (∃ (s : State) (d p : Nat), d < 8 ∧ p < 4 ∧ (portAt s d p).down = false ∧ p < 2) ∧ (∃ (s : State) (d p : Nat), d < 8 ∧ p < 4 ∧ (portAt s d p).down = false ∧ p = 2) ∧
    (∃ (s : State) (d p : Nat), d < 8 ∧ p < 4 ∧ (portAt s d p).down = false ∧ p = 3) ∧ (∃ (s : State) (d p : Nat), d < 8 ∧ p < 4 ∧ (portAt s d p).down = false ∧ (portAt s d p).waiting = []) ∧
    (∃ (s : State) (d p : Nat), d < 8 ∧ p < 4 ∧ (portAt s d p).down = false ∧ 3 ≤ (((portAt s d p).failures ++ [(dieAt s d).refk.toNat]).filter (fun n => (dieAt s d).refk.toNat < n + 100000000)).length) ∧
    (∃ (s : State) (port : Nat) (f : BitVec 64 × BitVec 512), port < 16 ∧ f.1.toNat / 2 ^ 48 = flitCrc f.1 f.2 ∧ badFlit f.1 = false ∧ flitAck f.1 = 0 ∧ flitSeq f.1 = fabricSeq s port) ∧
    (∃ (port : Nat) (f : BitVec 64 × BitVec 512), port < 16 ∧ f.1.toNat / 2 ^ 48 ≠ flitCrc f.1 f.2) ∧ (∃ port : Nat, 16 ≤ port) ∧ (∃ (s : State) (port : Nat), ∃ g ∈ s.fabric.unacked, g.1 = port) :=
  ⟨⟨updPort 7 3 (fun x => { x with down := true }) onD, 7, 3, by decide +kernel⟩, ⟨onD, 3, 1, by decide +kernel⟩, ⟨onD, 7, 2, by decide +kernel⟩, ⟨onD, 0, 3, by decide +kernel⟩, ⟨onD, 0, 3, by decide +kernel⟩,
   ⟨updPort 0 0 (fun x => { x with failures := [0, 0] }) onD, 0, 0, by decide +kernel⟩,
   ⟨onD, 15, (sealed 0, 0), by decide, by decide +kernel, by decide +kernel, by decide +kernel, by decide +kernel⟩, ⟨0, (0, 0), by decide, by decide +kernel⟩, ⟨16, by decide⟩,
   ⟨{ onD with fabric := { onD.fabric with unacked := [(3, [])] } }, 3, (3, []), .head _, rfl⟩⟩

/-! ## Hypotheses that can be met: words and steps -/

theorem witness_WordsReadBack : ∃ (i : Instr) (w : Word32), i.wf = true ∧ encode i = some w := ⟨.add 1 2 3, _, rfl, rfl⟩

theorem witness_WordsAreCanonical : ∃ (w : Word32) (i : Instr), decode w = .ok i := ⟨0x00000013, _, rfl⟩

theorem witness_TimePasses : (∃ s : State, s.axis.powered = true) ∧ (∃ (s : State) (d : Fin 8), s.axis.powered = true ∧ s.dies[d].released = true ∧ relocking s.dies[d] = false) ∧ (∃ (s : State) (d : Fin 8), s.axis.powered = true ∧ s.dies[d].released = true ∧ relocking s.dies[d] = true) :=
  ⟨⟨State.reset, rfl⟩, ⟨onD, 0, rfl, by decide +kernel, by decide +kernel⟩, ⟨inRelock onD, 0, rfl, by decide +kernel, by decide +kernel⟩⟩

theorem witness_NothingStops : (∃ (i : Instr) (_ : State), ∀ a bs, i ≠ .hostMemoryWrite a bs) ∧ (∃ s : State, s.inputs = [] ∧ (∀ l ∈ s.agenda, ∀ i ∈ l, ∀ a bs, i ≠ .hostMemoryWrite a bs) ∧ ∀ x ∈ s.timers, ∀ a bs, x.event ≠ .hostMemoryWrite a bs) :=
  ⟨⟨.tdone, onD, fun _ _ h => nomatch h⟩, ⟨onD, rfl, fun _ h => absurd (h : _ ∈ []) List.not_mem_nil, fun _ h => absurd (h : _ ∈ []) List.not_mem_nil⟩⟩

/-- A step has a next state, as a yes or no. -/
def isNext (r : Result) : Bool := match r with | .next _ => true | _ => false

theorem witness_StepsKeepMemory : ∃ s t, Memory.wf s.mem = true ∧ step s = .next t := by
  have h : isNext (step onD) = true := by decide +kernel
  unfold isNext at h
  split at h
  · next t e => exact ⟨onD, t, by decide +kernel, e⟩
  · cases h

/-- The state whose next step runs the word of `add x3, x2, x1`. -/
def addNext : State := placeWord [0xB3, 0x01, 0x11, 0x00] State.reset

/-- What the fetch finds, as a yes or no: the place of the word, no error in it, and whether a word can be read there. -/
noncomputable def fetches (s : State) (p : Except Reject Instr → Bool) : Bool :=
  let f := focus (advance s) 0
  match scalarPlace f (who f) .fetch f.cur.pc.toNat with
  | .ok (.mem k, _) => !hasError k 4 f && p (decode (BitVec.ofNat 32 (natOf (seeBytes f .fetch k 4))))
  | _ => false

theorem witness_StepRunsTheWord (p : Bool) :
    ∃ (s : State) (key k : Nat) (use : Option (TlbEntry × Source)), chosen (advance s) = some (.context key) ∧ ¬((focus (advance s) key).cur.priv = .s ∧ (focus (advance s) key).cur.pc = Config.runtimeEntry) ∧
      (focus (advance s) key).cur.pc.toNat % 4 = 0 ∧ scalarPlace (focus (advance s) key) (who (focus (advance s) key)) .fetch (focus (advance s) key).cur.pc.toNat = .ok (.mem k, use) ∧ hasError k 4 (focus (advance s) key) = false ∧
      (match decode (BitVec.ofNat 32 (natOf (seeBytes (focus (advance s) key) .fetch k 4))) with | .ok _ => p = true | .error _ => p = false) := by
  obtain ⟨s, a, b, c, h⟩ : ∃ s : State, chosen (advance s) = some (.context 0) ∧ ¬((focus (advance s) 0).cur.priv = .s ∧ (focus (advance s) 0).cur.pc = Config.runtimeEntry) ∧ (focus (advance s) 0).cur.pc.toNat % 4 = 0 ∧
      fetches s (fun r => match r with | .ok _ => p | .error _ => !p) = true := by
    cases p with
    | true => exact ⟨addNext, by decide +kernel, by decide +kernel, by decide +kernel, by decide +kernel⟩
    | false => exact ⟨onD, by decide +kernel, by decide +kernel, by decide +kernel, by decide +kernel⟩
  unfold fetches at h
  simp only at h
  split at h
  · next k use e =>
    rw [Bool.and_eq_true, Bool.not_eq_true'] at h
    refine ⟨s, 0, k, use, a, b, c, e, h.1, ?_⟩
    have g := h.2
    split at g <;> simp_all
  · cases h

/-! ## Small executions

The expected values are worked by hand from the rules named. -/

/-- An instruction answers a next state that passes. -/
def ran (i : Instr) (s : State) (p : State → Bool) : Bool := match exec i s with | .next t => p t | _ => false

/-- Two registers hold values. -/
def two (a b : Word) : State := withX 2 b (withX 1 a onD)

/-- R263, worked fields: `bfx` at offset 60, width 8 of 0xF123456789ABCDEF is 0xF. -/
theorem test_bfx_past_the_top : ran (.bfx 3 2 1 5) (withX 3 8 (two 0xF123456789ABCDEF 60)) (fun t => rx t 5 == 0xF) = true := by decide +kernel

/-- R263: `bfxs` at the same offset and width is all ones, and at offset 4, width 8 it is 0xFFFFFFFFFFFFFFDE. -/
theorem test_bfxs_signs : ran (.bfxs 3 2 1 5) (withX 3 8 (two 0xF123456789ABCDEF 60)) (fun t => rx t 5 == 0xFFFFFFFFFFFFFFFF) = true ∧
    ran (.bfxs 3 2 1 5) (withX 3 8 (two 0xF123456789ABCDEF 4)) (fun t => rx t 5 == 0xFFFFFFFFFFFFFFDE) = true := by decide +kernel

/-- R263: `bfi` of 0xAB into a zero register at offset 60, width 8 is 0xB000000000000000. -/
theorem test_bfi_past_the_top : ran (.bfi 3 2 1 5) (withX 3 8 (two 0xAB 60)) (fun t => rx t 5 == 0xB000000000000000) = true := by decide +kernel

/-- R245: addition wraps, and x0 discards its write. -/
theorem test_add_wraps : ran (.add 2 1 3) (two 0xFFFFFFFFFFFFFFFF 2) (fun t => rx t 3 == 1 && t.cur.pc == 0x1004) = true ∧ ran (.add 2 1 0) (two 5 2) (fun t => rx t 0 == 0) = true := by decide +kernel

/-- R245: `sub` takes rs1 - rs2, with one register as source and destination. -/
theorem test_sub_order : ran (.sub 2 1 1) (two 3 5) (fun t => rx t 1 == 0xFFFFFFFFFFFFFFFE) = true := by decide +kernel

/-- R245: division by zero gives all ones and leaves the dividend as the remainder; the one overflow gives the dividend. -/
theorem test_div_corners : ran (.div 2 1 3) (two 7 0) (fun t => rx t 3 == 0xFFFFFFFFFFFFFFFF) = true ∧ ran (.rem 2 1 3) (two 7 0) (fun t => rx t 3 == 7) = true ∧
    ran (.div 2 1 3) (two 0x8000000000000000 0xFFFFFFFFFFFFFFFF) (fun t => rx t 3 == 0x8000000000000000) = true := by decide +kernel

/-- R245: `mulh` is signed: -1 times 2 has the upper half -1. -/
theorem test_mulh_signed : ran (.mulh 2 1 3) (two 0xFFFFFFFFFFFFFFFF 2) (fun t => rx t 3 == 0xFFFFFFFFFFFFFFFF) = true := by decide +kernel

/-- R245: `sraw` takes the low word, shifts by five bits of rs2 and sign-extends. -/
theorem test_sraw_low_word : ran (.sraw 2 1 3) (two 0x1280000000 36) (fun t => rx t 3 == 0xFFFFFFFFF8000000) = true := by decide +kernel

/-- R245: `jalr` jumps to rs1 + imm with bit 0 cleared, and links past itself, also with rd = rs1. -/
theorem test_jalr_links_last : ran (.jalr 5 1 1) (two 0x1100 0) (fun t => t.cur.pc == 0x1104 && rx t 1 == 0x1004) = true := by decide +kernel

/-- R245: `lb` extends the sign; bytes stand lowest first. -/
theorem test_loads_extend : ran (.lb 1 1 3) (paged 0x4000 [0x34, 0x92] (two 0x4000 0)) (fun t => rx t 3 == 0xFFFFFFFFFFFFFF92) = true ∧
    ran (.lhu 0 1 3) (paged 0x4000 [0x34, 0x92] (two 0x4000 0)) (fun t => rx t 3 == 0x9234) = true := by decide +kernel

/-- R189, R192: `ecall` in U mode has code 8, at its own pc. -/
theorem test_ecall_traps : ran .ecall onD (fun t => t.cur.scause == 8 && t.cur.sepc == 0x1000 && t.cur.priv == .s && !t.cur.spp) = true := by decide +kernel

/-- R264: `amomaxu` compares without sign and gives what stood there. -/
theorem test_amomaxu : ran (.amomaxu 0 0 2 1 1 3) (paged 0x4000 [0xFF, 0xFF, 0xFF, 0xFF, 0xFF, 0xFF, 0xFF, 0xFF] (two 0x4000 5)) (fun t => rx t 3 == 0xFFFFFFFFFFFFFFFF && natOf (getBytes 0x34000 8 t.mem) == 2 ^ 64 - 1) = true := by
  decide +kernel

/-- The bytes of a register. -/
def bytesIn (t : State) (r : Nat) : List Byte := chainBytes (coreAt t t.core) (vreg t.cur r)

/-- R279: `vadd` of n8 wraps: 0xFF + 0xFF is 0xFE, four elements of the four granted. -/
theorem test_vadd_wraps : ran (.vaddVv 0 1 3 3 4) (inVecWith 0xFF 2 4 onD) (fun t => bytesIn t 4 == [0xFE, 0xFE, 0xFE, 0xFE]) = true := by decide +kernel

/-- R279: `vsub` of a register is vs1 - x. -/
theorem test_vsub_order : ran (.vsubVx 0 1 3 6 4) (withX 6 1 (inVecWith 0 1 4 onD)) (fun t => bytesIn t 4 == [0xFF, 0xFF, 0xFF, 0xFF]) = true := by decide +kernel

/-- R298: `pnot` complements the `vl` bits that elements have. -/
theorem test_pnot : ran (.pnot 0 1 2) (inVec 1 4 onD) (fun t => (predAt t.cur 2).toNat % 16 == 15) = true := by decide +kernel

/-- R303: `vlen` counts the elements of the chain's own type: 16 bytes of n32 are 4. -/
theorem test_vlen_own_type : ran (.vlen 1 6) (inVec 6 16 onD) (fun t => rx t 6 == 4) = true := by decide +kernel

/-- R319: `mset` beyond 128 bytes a row is refused with the shape left as it was, and rd 1; 128 bytes pass. -/
theorem test_mset_limit : ran (.mset 1 2 6 3) (withX 1 33 (withX 2 128 (inVec 5 16 onD))) (fun t => t.cur.scause != 0) = true ∧
    ran (.mset 1 2 6 3) (withX 1 32 (withX 2 128 (inVec 5 16 onD))) (fun t => t.cur.scause == 0) = true := by decide +kernel

/-! ## Words that the checks refuse -/

/-- One ill-formed instruction for each check of `Instr.wf` (R239 to R244, R250, R242 with R321, R326 to R331). -/
theorem test_ill_formed : (Instr.vcvt 0 1 0 2 3).wf = false ∧ (Instr.vcvt 0 1 15 2 3).wf = false ∧ (Instr.vcvt 0 1 14 2 3).wf = false ∧ (Instr.vcvts 0 1 15 2 3).wf = false ∧ (Instr.vcvts 0 1 14 2 3).wf = false ∧
    (Instr.vsplit 1 2 2).wf = false ∧ (Instr.vretype 0 1 2).wf = false ∧ (Instr.fdrain 2 2).wf = false ∧ (Instr.mset 1 2 7 3).wf = false ∧ (Instr.mzero 11).wf = false ∧ (Instr.mop 3 0 1 0).wf = false ∧
    (Instr.mop 0 0 1 6).wf = false ∧ (Instr.mop 2 0 1 2).wf = false ∧ (Instr.mop 2 1 1 0).wf = false ∧ (Instr.msca 2 1 2).wf = false ∧ (Instr.mrowIn 1 2 7 0).wf = false ∧ (Instr.mrowIn 1 3 4 0).wf = false ∧
    (Instr.mrowIn 1 2 4 1).wf = false ∧ (Instr.mrowOut 1 2 7 2).wf = false ∧ (Instr.mrowOut 1 1 4 2).wf = false ∧ (Instr.mrowOut 1 2 4 3).wf = false ∧ (Instr.maccOut 0 1 2 4 3).wf = false ∧ (Instr.vsmine 0 1 0).wf = false ∧
    (Instr.vsmine 0 1 10).wf = false ∧ (Instr.vsetl 0 1 2).wf = false ∧ (Instr.vsetl 15 1 2).wf = false ∧ (Instr.vroute 30 1 2).wf = false := by decide

/-- A word of no listed major opcode, and `lr.w` with a nonzero rs2, decode to nothing (R234, R235, R245). -/
theorem test_reserved_words : decode 0x00000000 = .error .major ∧ decode 0x1010A1AF = .error .reserved := ⟨rfl, rfl⟩

/-! ## KV pages (R223 to R225) -/

/-- Source: the page bounds of spec/19_program_sparse_attention.md: q = (1, 0, …), a centroid of 4.75 and radius 4.25 make 9.0. -/
theorem test_page_score : pageScore (0x3F800000 :: List.replicate 31 0) (List.replicate 32 0x4098) 0x40880000 = 0x41100000 := by decide

/-- Source: by hand from R225: 3·3 + 1 is no square, so its root is rounded up: √10 lies between 0x404A62C1 and 0x404A62C2. -/
theorem test_page_root : pageScore [0x40400000, 0x3F800000] [0, 0] 0x3F800000 = 0x404A62C2 := by decide

/-- The header that `.kvpage` makes for a page of spec/19_program_sparse_attention.md, with its magic number and plen given. -/
def kvHeader (magic plen : Nat) : List Byte :=
  bytesOf 4 magic ++ bytesOf 4 0xEE201001 ++ bytesOf 4 128 ++ bytesOf 4 448 ++ bytesOf 4 384 ++ bytesOf 4 704 ++ bytesOf 4 768 ++
    bytesOf 4 0x40880000 ++ bytesOf 4 plen ++ List.replicate 92 0

/-- Source: that header, and R224 for a wrong MAGIC and for an area past PLEN. -/
theorem test_kv_header : kvHeaderOk (kvHeader 0x5A384B50 832) = true ∧ kvHeaderOk (kvHeader 0x5A384B51 832) = false ∧
    kvHeaderOk (kvHeader 0x5A384B50 831) = false := by decide

/-! ## Hypotheses that can be met: where the steps complete -/

/-- The clauses of `Claims.TaskStepsComplete` assume what the claims on the same steps assume, which the witnesses of those claims meet (`witness_ObjectUpdates` to `witness_PageFetches`); here, the ones that differ: a region killed that no RRETIRE waits for,
a copy without an object, the oldest add of its line, a node with two predecessors, and a core that may bid. -/
theorem witness_TaskStepsComplete :
    (∃ (s : State) (part idx : Nat) (r : Region), regionAt s part idx = some r ∧ r.state = .killing ∧ r.retirers = []) ∧
    (∃ (s : State) (op : EngineOp), Runs s op true ∧ op.object = 0 ∧ (∃ toFar space far off len size dims, op.kind = .copy toFar space far off len size dims) ∧ ∃ v, runMoves op (movesOf op.kind) s = (v, none)) ∧
    (∃ (s : State) (q : Pending), s.pending.find? (fun r => r.num == q.num) = some q ∧ oldestOfLine s q = true ∧ s.badCells = []) ∧
    (∃ (s : State) (part pa : Nat) (node : Word), deviceAddr s part node = .ok pa ∧ Memory.wf s.mem = true ∧ pa + 128 ≤ 8 * Config.hbmPerDie ∧ 1 < nodePred (getBytes pa 128 s.mem)) ∧
    (∃ (s : State) (l n core : Nat) (e : Entry), entryAt s l n = some e ∧ e.num = n ∧ l < 9 ∧ eligible s core e = true ∧ (coreAt s core).awards.all (·.committed) = true ∧ slotFor s core e.part e ≠ none) := by
  have r : (runMoves copyOp (movesOf copyOp.kind) (copying [])).2 = none := by decide +kernel
  exact ⟨⟨{ onD with regions := [region 1 (some 0) .killing] }, 0, 1, region 1 (some 0) .killing, by decide +kernel, rfl, rfl⟩,
    ⟨copying [], copyOp, ⟨by decide +kernel, by decide +kernel⟩, rfl, ⟨_, _, _, _, _, _, _, rfl⟩, (runMoves copyOp (movesOf copyOp.kind) (copying [])).1, Prod.ext rfl r⟩,
    ⟨{ onD with pending := [queued 6, queued 7] }, queued 6, by decide +kernel, by decide +kernel, rfl⟩,
    ⟨lastOf (nodeBytes 0 0 2) [region 0 none .active], 0, 0x34000, 0x4000, isAddr_iff (by decide +kernel), by decide +kernel, by decide, by decide +kernel⟩,
    ⟨tendered [entry .waiting], 0, 2, 0, entry .waiting, by decide +kernel, rfl, by decide, by decide +kernel, by decide +kernel, by decide +kernel⟩⟩

/-- The clauses of `Claims.DeviceStepsComplete` assume what the claims on the same steps assume, which the witnesses of those claims meet (`witness_ClockSteps` to `witness_Links`); here, the ones that differ: a write of QACONS up to QDSEQ, a queue halted that is
resumed, one running that is held, a bound queue whose watchdog has run down, and a command ready with any number of arguments. -/
theorem witness_DeviceStepsComplete :
    (∃ (s : State) (q : Nat) (x : Word), q < 64 ∧ s.axis.windows = true ∧ seqLe (x.setWidth 32) (queueAt s q).dseq = true) ∧
    (∃ (s : State) (q : Nat) (x : Word), q < 64 ∧ s.axis.windows = true ∧ x.getLsbD 0 = true ∧ x.getLsbD 1 = false ∧ x.getLsbD 3 = false ∧ (queueAt s q).state = .halted) ∧
    (∃ (s : State) (q : Nat) (x : Word), q < 64 ∧ s.axis.windows = true ∧ x.getLsbD 0 = true ∧ x.getLsbD 1 = false ∧ x.getLsbD 3 = false ∧ (queueAt s q).state = .running) ∧
    (∃ (s : State) (q id : Nat) (z : Part), q < 64 ∧ s.axis.stage = .ready ∧ q ≠ 0 ∧ (queueAt s q).state = .running ∧ (queueAt s q).wdog ≠ 0 ∧ (queueAt s q).cmds ≠ [] ∧ (queueAt s q).wleft = 0 ∧ (queueAt s q).part = some id ∧ partAt s id = some z ∧ z.drain = none ∧
      Machine.copying s id = false) ∧
    (∀ n, ∃ (s : State) (q : Nat) (c : Cmd), q < 64 ∧ s.axis.stage = .ready ∧ cmdAt s q 1 = some c ∧ c.begun = false ∧ c.flags = 0 ∧ (∀ e ∈ (queueAt s q).due, e.event = true ∨ e.hseq ≠ 1) ∧ c.args.length = n) :=
  ⟨⟨onQueue (fun q => { q with dseq := 1 }) onD, 1, 1, by decide +kernel⟩, ⟨onQueue (fun q => { q with state := .halted }) onD, 1, 1, by decide +kernel⟩, ⟨onQueue id onD, 1, 5, by decide +kernel⟩,
   ⟨onQueue (fun q => { q with wdog := 5, part := some 0, cmds := [cmd 0 []] }) onD, 1, 0, placedPart 0 0, by decide +kernel⟩,
   fun n => ⟨onQueue (fun q => { q with cmds := [cmd 0 (List.replicate n 0)] }) onD, 1, cmd 0 (List.replicate n 0), by decide, rfl, rfl, rfl, rfl, (fun e h => nomatch (h : e ∈ [])), List.length_replicate⟩⟩

end Sys2Proof
end

section
/-! SUPPORT. What the steps of the host queues leave alone: they change queues and what is due, and whatever was due stays so. -/

namespace Sys2Proof.Proofs

open Machine Laws

/-! ## What is due -/

@[simp] theorem isDue_postOnce_self (i : Instr) (s : State) : isDue (postOnce i s) i = true := by
  unfold postOnce
  split
  · assumption
  · simp [isDue, post]

theorem isDue_postOnce_of_isDue {i : Instr} {s : State} (j : Instr) (h : isDue s i = true) : isDue (postOnce j s) i = true := by
  unfold postOnce
  split
  · exact h
  · simp only [isDue, post, List.any_append, Bool.or_eq_true] at *
    exact .inl h

theorem isDue_retract_of_isDue {i : Instr} {s : State} {p : Instr → Bool} (hp : p i = false) (h : isDue s i = true) : isDue (retract p s) i = true := by
  simp only [isDue, List.any_eq_true, List.contains_iff_mem] at *
  obtain ⟨l, hl, hi⟩ := h
  have kept : i ∈ l.filter (fun e => !p e) := List.mem_filter.2 ⟨hi, by simp [hp]⟩
  refine ⟨_, List.mem_filter.2 ⟨List.mem_map_of_mem hl, ?_⟩, kept⟩
  simpa using List.ne_nil_of_mem kept

theorem isDue_startTimer_of_isDue {i j : Instr} {s : State} (d : Nat) (b : Bool) (n : Nat) (ne : i ≠ j) (h : isDue s i = true) :
    isDue (startTimer d b n j s) i = true :=
  isDue_retract_of_isDue (p := (· == j)) (beq_false_of_ne ne) h

theorem mem_timers_startTimer (d : Nat) (b : Bool) (n : Nat) (i : Instr) (s : State) :
    { die := d, inCycles := b, left := n, event := i } ∈ (startTimer d b n i s).timers := by
  simp [startTimer]

/-! ## Only queues and what is due -/

/-- Nothing has changed but queues and what is due, and all that was due is due still. -/
def OnlyQueues (s t : State) : Prop :=
  t = { s with queues := t.queues, agenda := t.agenda } ∧ ∀ i, isDue s i = true → isDue t i = true

namespace OnlyQueues
variable {s t u : State}

theorem refl (s : State) : OnlyQueues s s := ⟨rfl, fun _ h => h⟩

theorem trans (h : OnlyQueues s t) (g : OnlyQueues t u) : OnlyQueues s u :=
  ⟨by rw [g.1, h.1], fun i hi => g.2 i (h.2 i hi)⟩

theorem dieAt (h : OnlyQueues s t) (d : Nat) : dieAt t d = dieAt s d := by rw [h.1]; rfl
theorem dies (h : OnlyQueues s t) : t.dies = s.dies := by rw [h.1]
theorem mem (h : OnlyQueues s t) : t.mem = s.mem := by rw [h.1]
theorem cur (h : OnlyQueues s t) : t.cur = s.cur := by rw [h.1]
theorem timers (h : OnlyQueues s t) : t.timers = s.timers := by rw [h.1]

theorem foldl {α : Type} {f : State → α → State} (h : ∀ a s, OnlyQueues s (f s a)) (l : List α) (s : State) : OnlyQueues s (l.foldl f s) :=
  List.foldlRecOn l f (refl s) (fun _ ht a _ => ht.trans (h a _))

end OnlyQueues

theorem postOnce_onlyQueues (i : Instr) (s : State) : OnlyQueues s (postOnce i s) :=
  ⟨by unfold postOnce; split <;> rfl, fun _ h => isDue_postOnce_of_isDue i h⟩

theorem updQueue_onlyQueues (q : Nat) (f : Queue → Queue) (s : State) : OnlyQueues s (updQueue s q f) :=
  ⟨by unfold updQueue setQueue; split <;> rfl, fun i h => by simpa [isDue] using h⟩

theorem updCmd_onlyQueues (q : Nat) (hseq : BitVec 32) (f : Cmd → Cmd) (s : State) : OnlyQueues s (updCmd q hseq f s) := updQueue_onlyQueues ..

theorem kickQueue_onlyQueues (q : Nat) (s : State) : OnlyQueues s (kickQueue q s) := by
  have when (b : Bool) (i : Instr) (u : State) : OnlyQueues u (if b then postOnce i u else u) := by
    split
    · exact postOnce_onlyQueues ..
    · exact .refl _
  unfold kickQueue
  split
  · exact .refl _
  · exact (when ..).trans (when ..)

theorem answer_onlyQueues (q : Nat) (a : Answer) (s : State) : OnlyQueues s (answer q a s) :=
  (updQueue_onlyQueues ..).trans (kickQueue_onlyQueues ..)

theorem finish_onlyQueues (q : Nat) (hseq : BitVec 32) (status : Nat) (r0 r1 : Word) (s : State) : OnlyQueues s (finish q hseq status r0 r1 s) := by
  unfold finish
  split
  · exact .refl _
  · split
    · exact .refl _
    · exact answer_onlyQueues ..

/-! ## Commands in flight and their answers -/

theorem queueAt_congr {s t : State} (h : t.queues = s.queues) (q : Nat) : queueAt t q = queueAt s q := by simp [queueAt, h]

@[simp] theorem queueAt_kickQueue (q p : Nat) (s : State) : queueAt (kickQueue q s) p = queueAt s p := by
  have when (b : Bool) (i : Instr) (u : State) : (if b then postOnce i u else u).queues = u.queues := by
    split
    · exact postOnce_queues ..
    · rfl
  refine queueAt_congr ?_ p
  unfold kickQueue
  split
  · rfl
  · exact (when ..).trans (when ..)

theorem queueAt_answer_self {q : Nat} (h : q < 64) (a : Answer) (s : State) :
    queueAt (answer q a s) q = { queueAt s q with due := (queueAt s q).due ++ [a] } := by
  rw [answer, queueAt_kickQueue, queueAt_updQueue_self s _ h]

theorem queueAt_updCmd_self {q : Nat} (h : q < 64) (hseq : BitVec 32) (f : Cmd → Cmd) (s : State) :
    queueAt (updCmd q hseq f s) q = { queueAt s q with cmds := (queueAt s q).cmds.map (fun c => if c.hseq == hseq then f c else c) } :=
  queueAt_updQueue_self s _ h

theorem due_updCmd {q : Nat} (h : q < 64) (hseq : BitVec 32) (f : Cmd → Cmd) (s : State) : (queueAt (updCmd q hseq f s) q).due = (queueAt s q).due := by
  rw [queueAt_updCmd_self h]

/-- A command in flight that is changed and keeps its number is found changed. -/
theorem cmdAt_updCmd_self {q : Nat} (h : q < 64) {hseq : BitVec 32} {f : Cmd → Cmd} (hf : ∀ c, (f c).hseq = c.hseq) (s : State) :
    cmdAt (updCmd q hseq f s) q hseq = (cmdAt s q hseq).map f := by
  have same : (fun c : Cmd => c.hseq == hseq) ∘ (fun c => if c.hseq == hseq then f c else c) = (fun c => c.hseq == hseq) := by
    funext c
    simp only [Function.comp]
    split <;> simp [hf]
  rw [cmdAt, queueAt_updCmd_self h, List.find?_map, same, cmdAt]
  cases e : (queueAt s q).cmds.find? (·.hseq == hseq) with
  | none => rfl
  | some c =>
    have number := List.find?_some e
    simp only [Option.map_some, if_pos number]

/-- The answer to a command that has none due yet falls due behind the others. -/
theorem finish_answered {q : Nat} (hq : q < 64) {hseq : BitVec 32} {c x : Cmd} {s u : State} (there : cmdAt u q hseq = some x) (opc : x.opc = c.opc)
    (due : (queueAt u q).due = (queueAt s q).due) (unanswered : ∀ a ∈ (queueAt s q).due, a.event = true ∨ a.hseq ≠ hseq) (status : Nat) (r0 r1 : Word) :
    Answered q hseq c status r0 r1 s (finish q hseq status r0 r1 u) := by
  have none : (queueAt u q).due.any (fun a => !a.event && a.hseq == hseq) = false := by
    rw [due, List.any_eq_false]
    intro a ha
    rcases unanswered a ha with h | h <;> simp [h]
  unfold finish
  rw [there]
  dsimp only
  rw [none, if_neg Bool.false_ne_true]
  exact ⟨_, by rw [queueAt_answer_self hq, due], rfl, opc, rfl, rfl, rfl, rfl⟩

/-- A command with nothing against it begins, and is carried out as its function says. -/
theorem command_ready {q : Nat} {hseq : BitVec 32} {c : Cmd} {used : Nat} {bound : Bool} {s : State} (h : CmdReady s q hseq c used bound)
    (again : Instr) (f : Cmd → State → State) :
    command q hseq used bound again f s = .next (f c (updCmd q hseq (fun c => { c with begun := true }) s)) := by
  have turn : (bit c.flags.toNat 0 && !earliest s q hseq) = false := by
    rcases h.turn with t | t <;> simp [bit, t]
  have binding : (bound && (queueAt (updCmd q hseq (fun c => { c with begun := true }) s) q).part.isNone) = false := by
    rw [queueAt_updCmd_self h.queue]
    cases bound with
    | false => rfl
    | true => simpa [Option.isSome_iff_ne_none] using h.binding rfl
  have unused : (c.args.drop used).any (· != 0) = false := by
    simpa using h.unused
  have clean : (decide (c.flags.toNat / 2 ≠ 0) || (c.args.drop used).any (· != 0)) = false := by
    rw [unused, h.flags]; rfl
  simp only [command, h.there, h.fresh, turn, binding, clean, Bool.false_eq_true, if_false]

end Sys2Proof.Proofs
end

section
/-! SUPPORT. What the steps of a die's clock do to it, and what else they leave alone. -/

namespace Sys2Proof.Proofs

open Machine Laws

/-! ## A clock changed -/

@[simp] theorem dieAt_updClock_self (d : Nat) (f : Clock → Clock) (s : State) :
    dieAt (updClock d f s) d = { dieAt s d with clock := f (dieAt s d).clock } := dieAt_updDie_self ..

theorem dieAt_updClock_ne {d e : Nat} (f : Clock → Clock) (s : State) (h : e ≠ d) (h8 : e < 8 ∨ d < 8) : dieAt (updClock d f s) e = dieAt s e :=
  dieAt_updDie_ne s _ h h8

@[simp] theorem updClock_mem (d : Nat) (f : Clock → Clock) (s : State) : (updClock d f s).mem = s.mem := updDie_mem ..
@[simp] theorem updClock_agenda (d : Nat) (f : Clock → Clock) (s : State) : (updClock d f s).agenda = s.agenda := updDie_agenda ..
@[simp] theorem updClock_queues (d : Nat) (f : Clock → Clock) (s : State) : (updClock d f s).queues = s.queues := updDie_queues ..

@[simp] theorem dieAt_startTimer (n : Nat) (b : Bool) (k : Nat) (i : Instr) (s : State) (d : Nat) : dieAt (startTimer n b k i s) d = dieAt s d := rfl

@[simp] theorem dieAt_beginRelock_self (d : Nat) (s : State) :
    dieAt (beginRelock d s) d = { dieAt s d with clock := { (dieAt s d).clock with
      stage := some .relocking, cAtRelock := (dieAt s d).cycle, kAtRelock := (dieAt s d).refk, oldAtRelock := (dieAt s d).clock.ratio } } :=
  dieAt_updClock_self ..

theorem dieAt_beginRelock_ne {d e : Nat} (s : State) (h : e ≠ d) (h8 : e < 8 ∨ d < 8) : dieAt (beginRelock d s) e = dieAt s e :=
  dieAt_updClock_ne _ s h h8

@[simp] theorem beginRelock_mem (d : Nat) (s : State) : (beginRelock d s).mem = s.mem := updClock_mem ..
@[simp] theorem beginRelock_queues (d : Nat) (s : State) : (beginRelock d s).queues = s.queues := updClock_queues ..

/-- The end of a step for which no command asked, with no request held: the record is written, and that is all (R16 step 4, R19). -/
theorem endStep_unasked {d : Nat} {r : StepReq} {s : State} (current : (dieAt s d).clock.current = some r) (held : (dieAt s d).clock.held = none)
    (unasked : r.askers = []) :
    endStep d s = updClock d (fun k => { k with
      stage := none, current := none, held := none, cstep := k.cAtRelock, kstep := k.kAtRelock, nstep := k.nstep + 1, relk := 150, newr := k.ratio, oldr := k.oldAtRelock }) s := by
  simp [endStep, current, held, unasked]

theorem mem_timers_beginRelock (d : Nat) (s : State) :
    { die := d, inCycles := false, left := 150, event := .relockEnd d } ∈ (beginRelock d s).timers := mem_timers_startTimer ..

/-! ## A request carried out -/

/-- A request above the clock that a die runs at: the supply rises first. -/
theorem carryOut_rise {d : Nat} {r : StepReq} {s : State} (h : (dieAt s d).clock.ratio < r.ratio) :
    carryOut d r s = startTimer d false (rampTicks (dieAt s d).clock.supply (minSupply r.ratio)) (.supplyRampDone d)
      (updClock d (fun k => { k with stage := some .raising }) (updClock d (fun k => { k with current := some r }) s)) := by
  simp only [carryOut, if_neg (Nat.ne_of_gt h), if_pos h]

/-- A request below it: the relock begins at once. -/
theorem carryOut_fall {d : Nat} {r : StepReq} {s : State} (h : r.ratio < (dieAt s d).clock.ratio) :
    carryOut d r s = beginRelock d (updClock d (fun k => { k with current := some r }) s) := by
  simp only [carryOut, if_neg (Nat.ne_of_lt h), if_neg (Nat.not_lt.2 (Nat.le_of_lt h))]

/-- A request for the present clock is complete at once. -/
theorem carryOut_same {d : Nat} {r : StepReq} {s : State} (h : r.ratio = (dieAt s d).clock.ratio) :
    carryOut d r s = r.askers.foldl (fun s a => stepDone d a s) s := if_pos h

theorem requestStep_idle {d : Nat} {s : State} (r : StepReq) (h : (dieAt s d).clock.stage = none) : requestStep d r s = carryOut d r s := by
  simp [requestStep, h]

theorem stepDone_onlyQueues (d : Nat) (a : Nat × BitVec 32) (s : State) : OnlyQueues s (stepDone d a s) := by
  unfold stepDone
  dsimp only
  split
  · exact updCmd_onlyQueues ..
  · split
    · exact updCmd_onlyQueues ..
    · exact (updCmd_onlyQueues ..).trans (finish_onlyQueues ..)

/-- A request for another clock at a die that stands in no step becomes its step: up by way of the supply, down by way of the relock. -/
theorem clock_requestStep_idle {d : Nat} {r : StepReq} {s : State} (idle : (dieAt s d).clock.stage = none) (ne : (dieAt s d).clock.ratio ≠ r.ratio) :
    let c := (dieAt (requestStep d r s) d).clock
    c.current = some r ∧ c.stage = some (if (dieAt s d).clock.ratio < r.ratio then .raising else .relocking) ∧ c.thermalSteps = (dieAt s d).clock.thermalSteps := by
  rw [requestStep_idle r idle]
  rcases Nat.lt_or_gt_of_ne ne with h | h
  · simp [carryOut_rise h, h]
  · simp [carryOut_fall h, Nat.le_of_lt h]

/-- Beside the die's clock such a request changes only the bounds that run and what is due. -/
theorem requestStep_idle_frame {d : Nat} {r : StepReq} {s : State} (idle : (dieAt s d).clock.stage = none) (ne : (dieAt s d).clock.ratio ≠ r.ratio) (h8 : d < 8) :
    let t := requestStep d r s
    t.queues = s.queues ∧ t.mem = s.mem ∧ ∀ e, e ≠ d → dieAt t e = dieAt s e := by
  rw [requestStep_idle r idle]
  rcases Nat.lt_or_gt_of_ne ne with h | h
  · rw [carryOut_rise h]
    refine ⟨by simp, by simp, fun e he => ?_⟩
    rw [dieAt_startTimer, dieAt_updClock_ne _ _ he (.inr h8), dieAt_updClock_ne _ _ he (.inr h8)]
  · rw [carryOut_fall h]
    refine ⟨by simp, by simp, fun e he => ?_⟩
    rw [dieAt_beginRelock_ne _ he (.inr h8), dieAt_updClock_ne _ _ he (.inr h8)]

/-! ## A die at 110 °C -/

/-- The die's temperature has been noted, and the temperature alarm is due (R46). -/
def HotAndDue (d temp : Nat) (s : State) : Prop := (dieAt s d).clock.temp = temp ∧ isDue s (.alarmTrip 4) = true

namespace HotAndDue
variable {d temp : Nat} {s t : State}

theorem updClock (h : HotAndDue d temp s) {f : Clock → Clock} (hf : ∀ k, (f k).temp = k.temp) : HotAndDue d temp (updClock d f s) := by
  refine ⟨?_, ?_⟩
  · rw [dieAt_updClock_self, hf]; exact h.1
  · rw [isDue, updClock_agenda]; exact h.2

theorem startTimer (h : HotAndDue d temp s) (n : Nat) {i : Instr} (ne : .alarmTrip 4 ≠ i) : HotAndDue d temp (startTimer d false n i s) :=
  ⟨h.1, isDue_startTimer_of_isDue d false n ne h.2⟩

theorem of_onlyQueues (h : HotAndDue d temp s) (o : OnlyQueues s t) : HotAndDue d temp t := ⟨by rw [o.dieAt]; exact h.1, o.2 _ h.2⟩

theorem beginRelock (h : HotAndDue d temp s) : HotAndDue d temp (beginRelock d s) := by
  unfold Machine.beginRelock
  exact (h.updClock fun _ => by rfl).startTimer 150 nofun

theorem carryOut (h : HotAndDue d temp s) (r : StepReq) : HotAndDue d temp (carryOut d r s) := by
  have g : HotAndDue d temp (Machine.updClock d (fun k => { k with current := some r }) s) := h.updClock fun _ => by rfl
  rcases Nat.lt_trichotomy r.ratio (Machine.dieAt s d).clock.ratio with c | c | c
  · rw [carryOut_fall c]; exact g.beginRelock
  · rw [carryOut_same c]; exact h.of_onlyQueues (.foldl (stepDone_onlyQueues d) ..)
  · rw [carryOut_rise c]; exact (g.updClock fun _ => by rfl).startTimer _ nofun

theorem requestStep (h : HotAndDue d temp s) (r : StepReq) : HotAndDue d temp (requestStep d r s) := by
  unfold Machine.requestStep
  dsimp only
  split
  · exact h.carryOut r
  · split
    · exact h.updClock fun _ => by rfl
    · exact (h.of_onlyQueues (.foldl (fun _ _ => updCmd_onlyQueues ..) ..)).updClock fun _ => by rfl

end HotAndDue

/-! ## Ports keep clocks -/

/-- The clock of every die, hub included, is as before. -/
structure SameClocks (s t : State) : Prop where
  clock : ∀ d, (dieAt t d).clock = (dieAt s d).clock

namespace SameClocks
variable {s t u : State}

theorem refl (s : State) : SameClocks s s := ⟨fun _ => rfl⟩

theorem trans (h : SameClocks s t) (g : SameClocks t u) : SameClocks s u := ⟨fun d => (g.clock d).trans (h.clock d)⟩

theorem foldl {α : Type} {f : State → α → State} (h : ∀ a s, SameClocks s (f s a)) (l : List α) (s : State) : SameClocks s (l.foldl f s) :=
  List.foldlRecOn l f (refl s) (fun _ ht a _ => ht.trans (h a _))

end SameClocks

theorem updDie_sameClocks (d : Nat) {f : Die → Die} (hf : ∀ x, (f x).clock = x.clock) (s : State) : SameClocks s (updDie s d f) := by
  refine ⟨fun e => ?_⟩
  by_cases h : e = d
  · subst h
    rw [dieAt_updDie_self, hf]
  · by_cases h8 : e < 8 ∨ d < 8
    · rw [dieAt_updDie_ne _ _ h h8]
    · have hub (t : State) : dieAt t e = dieAt t d := by simp [dieAt, show ¬ e < 8 by omega, show ¬ d < 8 by omega]
      rw [hub, hub, dieAt_updDie_self, hf]

theorem countDie_sameClocks (code n d : Nat) (s : State) : SameClocks s (countDie code n d s) := updDie_sameClocks d (fun _ => by rfl) s

theorem updPort_sameClocks (d p : Nat) (f : Port → Port) (s : State) : SameClocks s (updPort d p f s) := updDie_sameClocks d (fun _ => by rfl) s

theorem agenda_sameClocks (l : List (List Instr)) (s : State) : SameClocks s { s with agenda := l } := ⟨fun _ => rfl⟩

theorem wire_sameClocks (d p : Nat) (f : BitVec 64 × BitVec 512) (s : State) : SameClocks s (wire d p f s) := by
  unfold wire
  dsimp only
  split <;> exact agenda_sameClocks ..

theorem sendAck_sameClocks (d p : Nat) (a : Nat × Nat) (s : State) : SameClocks s (sendAck d p a s) :=
  (countDie_sameClocks ..).trans ((updPort_sameClocks ..).trans (wire_sameClocks ..))

theorem sendNext_sameClocks (d p : Nat) (f : BitVec 64 × BitVec 512) (s : State) : SameClocks s (sendNext d p f s) :=
  (countDie_sameClocks ..).trans ((updPort_sameClocks ..).trans (wire_sameClocks ..))

theorem pump_sameClocks (d p : Nat) (s : State) : SameClocks s (pump d p s) := by
  unfold pump
  dsimp only
  split
  · exact .refl _
  · exact (updPort_sameClocks ..).trans ((SameClocks.foldl (sendAck_sameClocks d p) ..).trans (.foldl (sendNext_sameClocks d p) ..))

theorem postInOrder_sameClocks (is : List Instr) (s : State) : SameClocks s (postInOrder is s) := by
  unfold postInOrder
  split
  · exact .refl _
  · exact agenda_sameClocks ..

theorem restartPorts_sameClocks (d : Nat) (s : State) : SameClocks s (restartPorts d s) := by
  refine .foldl (fun p s => ?_) ..
  have emptied : SameClocks s (updPort d p (fun x => { x with buffer := [] }) s) := updPort_sameClocks ..
  dsimp only
  split
  · exact emptied.trans ((agenda_sameClocks ..).trans (pump_sameClocks ..))
  · exact emptied.trans ((postInOrder_sameClocks ..).trans (pump_sameClocks ..))

/-! ## The steps themselves -/

theorem execSupplyRampDone_raising {d : Nat} {r : StepReq} {s : State} (stage : (dieAt s d).clock.stage = some .raising) (current : (dieAt s d).clock.current = some r) :
    execSupplyRampDone d s = .next (beginRelock d (updClock d (fun k => { k with supply := minSupply r.ratio }) s)) := by
  simp [execSupplyRampDone, stage, current]

theorem execSupplyRampDone_lowering {d : Nat} {r : StepReq} {s : State} (stage : (dieAt s d).clock.stage = some .lowering) (current : (dieAt s d).clock.current = some r) :
    execSupplyRampDone d s = .next (endStep d (updClock d (fun k => { k with supply := minSupply k.ratio }) s)) := by
  simp [execSupplyRampDone, stage, current]

/-- The state in which the clock of a die runs again at a ratio, before its step goes on or ends (R16, R17). -/
def relocked (d ratio : Nat) (s : State) : State :=
  restartPorts d (countDie 0x108 1 d (updClock d (fun k => { k with ratio := ratio, stage := none }) s))

@[simp] theorem clock_relocked (d ratio : Nat) (s : State) : (dieAt (relocked d ratio s) d).clock = { (dieAt s d).clock with ratio := ratio, stage := none } := by
  rw [relocked, (restartPorts_sameClocks ..).clock, (countDie_sameClocks ..).clock, dieAt_updClock_self]

theorem execRelockEnd_relocking {d : Nat} {r : StepReq} {s : State} (stage : (dieAt s d).clock.stage = some .relocking) (current : (dieAt s d).clock.current = some r) :
    execRelockEnd d s = .next (if r.ratio < (dieAt s d).clock.ratio then
      startTimer d false (rampTicks (dieAt s d).clock.supply (minSupply r.ratio)) (.supplyRampDone d) (updClock d (fun k => { k with stage := some .lowering }) (relocked d r.ratio s))
      else endStep d (relocked d r.ratio s)) := by
  simp [execRelockEnd, relocked, stage, current]

/-! ## The thermal policy -/

/-- The state in which a die's temperature has been noted, and its alarm where it is due (R21, R46). -/
def heated (d temp : Nat) (s : State) : State :=
  let s := updClock d (fun k => { k with temp := temp }) s
  if 110 ≤ temp then postOnce (.alarmTrip 4) s else s

@[simp] theorem dieAt_heated_self (d temp : Nat) (s : State) : dieAt (heated d temp s) d = { dieAt s d with clock := { (dieAt s d).clock with temp := temp } } := by
  unfold heated
  dsimp only
  split
  · rw [(postOnce_onlyQueues ..).dieAt, dieAt_updClock_self]
  · exact dieAt_updClock_self ..

theorem hotAndDue_heated {temp : Nat} (hot : 110 ≤ temp) (d : Nat) (s : State) : HotAndDue d temp (heated d temp s) :=
  ⟨by simp, by simp [heated, hot]⟩

/-- Steps of 0.1 GHz down that the policy asks for (R21). -/
def stepsDown (k : Clock) (temp : Nat) : Nat := min (temp - 99 - k.thermalSteps) (targetRatio k - 6)

section
variable {d temp : Nat} {s : State} (h8 : d < 8)
include h8

/-- The policy where the die is hotter than the steps it has taken: it notes them and asks for the clock that many steps down. -/
theorem execThermalPolicy_down (down : 0 < stepsDown (dieAt s d).clock temp) :
    execThermalPolicy d temp s = .next (requestStep d { ratio := targetRatio (dieAt s d).clock - stepsDown (dieAt s d).clock temp, askers := [] }
      (updClock d (fun k => { k with thermalSteps := k.thermalSteps + stepsDown (dieAt s d).clock temp }) (heated d temp s))) := by
  unfold stepsDown at down
  simp only [execThermalPolicy, if_neg (Nat.not_le.2 h8), if_pos down]
  rfl

/-- The policy below 95 °C with steps taken: it asks for one of them up again. -/
theorem execThermalPolicy_up (cool : temp < 95) (taken : 0 < (dieAt s d).clock.thermalSteps) :
    execThermalPolicy d temp s = .next (requestStep d { ratio := min 18 (targetRatio (dieAt s d).clock + 1), askers := [] }
      (updClock d (fun k => { k with thermalSteps := k.thermalSteps - 1 }) (heated d temp s))) := by
  simp only [execThermalPolicy, if_neg (Nat.not_le.2 h8), if_pos (And.intro cool taken)]
  rw [if_neg (by omega)]
  rfl

/-- The policy in between asks for nothing. -/
theorem execThermalPolicy_steady (noDown : stepsDown (dieAt s d).clock temp = 0) (noUp : 95 ≤ temp ∨ (dieAt s d).clock.thermalSteps = 0) :
    execThermalPolicy d temp s = .next (heated d temp s) := by
  unfold stepsDown at noDown
  simp only [execThermalPolicy, if_neg (Nat.not_le.2 h8), noDown, if_neg (Nat.lt_irrefl 0)]
  rw [if_neg (by omega)]
  rfl

/-- At 110 °C, whatever else it does, the policy notes the temperature and makes the alarm due. -/
theorem execThermalPolicy_hot (hot : 110 ≤ temp) : ∃ t, execThermalPolicy d temp s = .next t ∧ HotAndDue d temp t := by
  have noted := hotAndDue_heated hot d s
  rcases Nat.eq_zero_or_pos (stepsDown (dieAt s d).clock temp) with none | down
  · exact ⟨_, execThermalPolicy_steady h8 none (.inl (by omega)), noted⟩
  · exact ⟨_, execThermalPolicy_down h8 down, (noted.updClock fun _ => by rfl).requestStep _⟩

end

/-- A step that the policy asks for at a die that stands in none begins, with the steps taken that it has noted. -/
theorem clock_requestStep_heated {d temp : Nat} {s : State} {r : StepReq} (n : Nat → Nat) (idle : (dieAt s d).clock.stage = none) (ne : (dieAt s d).clock.ratio ≠ r.ratio) :
    let c := (dieAt (requestStep d r (updClock d (fun k => { k with thermalSteps := n k.thermalSteps }) (heated d temp s))) d).clock
    c.thermalSteps = n (dieAt s d).clock.thermalSteps ∧ c.stage = some (if (dieAt s d).clock.ratio < r.ratio then .raising else .relocking) ∧ c.current = some r := by
  obtain ⟨hcurrent, hstage, hsteps⟩ := clock_requestStep_idle (d := d) (r := r) (s := updClock d (fun k => { k with thermalSteps := n k.thermalSteps }) (heated d temp s))
    (by simpa using idle) (by simpa using ne)
  exact ⟨hsteps.trans (by simp), hstage.trans (by simp), hcurrent⟩

theorem targetRatio_idle {k : Clock} (current : k.current = none) (held : k.held = none) : targetRatio k = k.ratio := by
  simp [targetRatio, current, held]

/-! ## FSTEP -/

/-- The dies of a mask with one bit. -/
theorem dies_of_mask {d : Nat} (h : d < 8) : (upTo 8).filter (fun i => bit (2 ^ d) i) = [d] := by
  revert d
  decide

/-- A die answered for is out of the dies left of a mask with that one bit. -/
theorem left_cleared {d : Nat} (h : d < 8) : BitVec.ofNat 8 (2 ^ d) &&& ~~~(1#8 <<< d) = 0#8 := by
  revert d
  decide

/-- The ratios that an FSTEP reports, a byte for each die of its mask (R34). -/
def reportedRatios (mask : Nat) (s : State) : Nat :=
  (upTo 8).foldl (fun n i => if bit mask i then n + (dieAt s i).clock.ratio * 2 ^ (8 * i) else n) 0

theorem reportedRatios_single {d : Nat} (h : d < 8) (s : State) : reportedRatios (2 ^ d) s = (dieAt s d).clock.ratio * 2 ^ (8 * d) := by
  rw [reportedRatios, ← List.foldl_filter, dies_of_mask h, List.foldl_cons, List.foldl_nil, Nat.zero_add]

/-- The state in which a die is out of the dies that an FSTEP has left to answer for. -/
def dieCleared (d : Nat) (a : Nat × BitVec 32) (s : State) : State :=
  updCmd a.1 a.2 (fun c => { c with left := c.left &&& ~~~(1#8 <<< d) }) s

/-- The last die of an FSTEP is done: the command is answered with the ratios of the dies of its mask, and with those replaced. -/
theorem stepDone_last {d : Nat} {a : Nat × BitVec 32} {s : State} {x : Cmd} (there : cmdAt (dieCleared d a s) a.1 a.2 = some x) (left : x.left = 0) :
    stepDone d a s = finish a.1 a.2 0 (BitVec.ofNat 64 (reportedRatios (arg x 0).toNat (dieCleared d a s))) (x.replaced.setWidth 64) (dieCleared d a s) := by
  unfold dieCleared at there ⊢
  unfold stepDone
  dsimp only
  rw [there]
  dsimp only
  rw [left, if_neg (by decide)]
  rfl

/-- A command that has begun for the dies of a mask, none of which is done. -/
def steppingCmd (mask : Nat) (c : Cmd) : Cmd := { c with begun := true, left := BitVec.ofNat 8 mask }

/-- The state in which an FSTEP has begun for the dies of a mask. -/
def stepping (q : Nat) (hseq : BitVec 32) (mask : Nat) (s : State) : State :=
  updCmd q hseq (fun c => { c with left := BitVec.ofNat 8 mask }) (updCmd q hseq (fun c => { c with begun := true }) s)

theorem stepping_onlyQueues (q : Nat) (hseq : BitVec 32) (mask : Nat) (s : State) : OnlyQueues s (stepping q hseq mask s) :=
  (updCmd_onlyQueues ..).trans (updCmd_onlyQueues ..)

section
variable {s : State} {q d : Nat} {hseq : BitVec 32} {c : Cmd}

theorem due_stepping (h : q < 64) (mask : Nat) : (queueAt (stepping q hseq mask s) q).due = (queueAt s q).due := by
  rw [stepping, due_updCmd h, due_updCmd h]

theorem cmdAt_stepping (h : q < 64) (there : cmdAt s q hseq = some c) (mask : Nat) : cmdAt (stepping q hseq mask s) q hseq = some (steppingCmd mask c) := by
  rw [stepping, cmdAt_updCmd_self h (by exact fun _ => rfl), cmdAt_updCmd_self h (by exact fun _ => rfl), there]
  rfl

theorem execFstep_bad (h : CmdReady s q hseq c 2 false)
    (bad : (arg c 0).toNat = 0 ∨ 256 ≤ (arg c 0).toNat ∨ (arg c 1).toNat < 6 ∨ 18 < (arg c 1).toNat) :
    execFstep q hseq s = .next (finish q hseq 4 0 0 (updCmd q hseq (fun c => { c with begun := true }) s)) := by
  rw [execFstep, command_ready h]
  simp only [if_pos bad]

/-- A good FSTEP of one die requests its step. -/
theorem execFstep_single (h : CmdReady s q hseq c 2 false) (h8 : d < 8)
    (good : ¬((arg c 0).toNat = 0 ∨ 256 ≤ (arg c 0).toNat ∨ (arg c 1).toNat < 6 ∨ 18 < (arg c 1).toNat)) (one : (arg c 0).toNat = 2 ^ d) :
    execFstep q hseq s = .next (requestStep d { ratio := (arg c 1).toNat, askers := [(q, hseq)] } (stepping q hseq (2 ^ d) s)) := by
  rw [execFstep, command_ready h]
  simp only [if_neg good]
  rw [one, dies_of_mask h8]
  rfl

/-- Once its one die is done, such an FSTEP is answered. -/
theorem stepDone_single (h : CmdReady s q hseq c 2 false) (h8 : d < 8) (one : (arg c 0).toNat = 2 ^ d) :
    Answered q hseq c 0 (BitVec.ofNat 64 ((dieAt s d).clock.ratio * 2 ^ (8 * d))) (c.replaced.setWidth 64) s (stepDone d (q, hseq) (stepping q hseq (2 ^ d) s)) := by
  have there : cmdAt (dieCleared d (q, hseq) (stepping q hseq (2 ^ d) s)) q hseq = some { steppingCmd (2 ^ d) c with left := 0#8 } := by
    rw [dieCleared, cmdAt_updCmd_self h.queue (by exact fun _ => rfl), cmdAt_stepping h.queue h.there, Option.map_some, steppingCmd, left_cleared h8]
  have ratios : reportedRatios (2 ^ d) (dieCleared d (q, hseq) (stepping q hseq (2 ^ d) s)) = (dieAt s d).clock.ratio * 2 ^ (8 * d) := by
    rw [reportedRatios_single h8, dieCleared, (updCmd_onlyQueues ..).dieAt, (stepping_onlyQueues ..).dieAt]
  have args : (arg { steppingCmd (2 ^ d) c with left := 0#8 } 0).toNat = 2 ^ d := one
  rw [stepDone_last there rfl, args, ratios]
  exact finish_answered h.queue there rfl (by rw [dieCleared, due_updCmd h.queue, due_stepping h.queue]) h.unanswered ..

end

end Sys2Proof.Proofs
end

section
/-! SUPPORT. What passing time does to queues, dies and bounds (R3, R15, R17, R18). -/

namespace Sys2Proof.Proofs

open Machine Laws

theorem tickQueues_onlyQueues (e : Nat) (s : State) : OnlyQueues s (tickQueues e s) := by
  refine .foldl (fun q s => ?_) ..
  dsimp only
  split
  · split
    · exact (updQueue_onlyQueues ..).trans (postOnce_onlyQueues ..)
    · exact updQueue_onlyQueues ..
  · exact .refl _

theorem foldl_postOnce_onlyQueues (l : List Timer) (s : State) : OnlyQueues s (l.foldl (fun s x => postOnce x.event s) s) :=
  .foldl (fun x s => postOnce_onlyQueues x.event s) l s

/-- The events of bounds that have run out fall due. -/
theorem isDue_foldl_postOnce {x : Timer} : ∀ {l : List Timer} (s : State), x ∈ l → isDue (l.foldl (fun s x => postOnce x.event s) s) x.event = true
  | [], _, h => nomatch h
  | y :: l, s, h => by
    rcases List.mem_cons.1 h with rfl | hl
    · exact (foldl_postOnce_onlyQueues l _).2 _ (isDue_postOnce_self ..)
    · exact isDue_foldl_postOnce (l := l) _ hl

/-- The bounds that run on after a time. -/
def runningOn (s : State) (e : Nat) : List Timer :=
  (s.timers.filter (fun x => !(x.left ≤ elapsed s e x))).map (fun x => { x with left := x.left - elapsed s e x })

theorem tickTimers_onlyQueues (e : Nat) (s : State) : OnlyQueues { s with timers := runningOn s e } (tickTimers e s) := foldl_postOnce_onlyQueues ..

theorem isDue_tickTimers {s : State} {e : Nat} {x : Timer} (h : x ∈ s.timers) (out : x.left ≤ elapsed s e x) : isDue (tickTimers e s) x.event = true :=
  isDue_foldl_postOnce _ (List.mem_filter.2 ⟨h, by simpa using out⟩)

theorem mem_runningOn {s : State} {e : Nat} {x : Timer} (h : x ∈ s.timers) (on : elapsed s e x < x.left) : { x with left := x.left - elapsed s e x } ∈ runningOn s e :=
  List.mem_map.2 ⟨x, List.mem_filter.2 ⟨h, by simpa using on⟩, rfl⟩

/-- What is left of the state but for clocks and counters once time has passed. -/
theorem tick_onlyQueues (e : Nat) (s : State) : OnlyQueues { s with timers := runningOn s e } (tickQueues e (tickTimers e s)) :=
  (tickTimers_onlyQueues ..).trans (tickQueues_onlyQueues ..)

/-- Cycles that pass in a time at a ratio (R15). -/
def cyclesAt (s : State) (e ratio : Nat) : Nat := (s.wall + e) * ratio / Config.tickParts - s.wall * ratio / Config.tickParts

theorem cyclesIn_hub {s : State} {d : Nat} (h : 8 ≤ d) (e : Nat) : cyclesIn s e d = if relocking s.hub then 0 else cyclesAt s e 10 := by
  have hub : dieAt s d = s.hub := dif_neg (Nat.not_lt.2 h)
  simp [cyclesIn, cyclesAt, ticking, hub, h]

section
variable {s : State} {d : Nat} (h8 : d < 8)
include h8

theorem ticking_die : ticking s d = (dieAt s d).released := by simp [ticking, Nat.not_le.2 h8]

theorem cyclesIn_held (held : (dieAt s d).released = false) (e : Nat) : cyclesIn s e d = 0 := by simp [cyclesIn, ticking_die h8, held]

theorem cyclesIn_released (released : (dieAt s d).released = true) (e : Nat) :
    cyclesIn s e d = if relocking (dieAt s d) then 0 else cyclesAt s e (dieAt s d).clock.ratio := by
  simp [cyclesIn, cyclesAt, ticking_die h8, released, Nat.not_le.2 h8]

end

/-- What a bound loses in a time: ticks or cycles of the hub, or of its die, and nothing while that is in reset (R3, R15, R17). -/
theorem elapsed_eq (s : State) (e : Nat) (x : Timer) :
    elapsed s e x = if 8 ≤ x.die then (if x.inCycles then (if relocking s.hub then 0 else cyclesAt s e 10) else ticksIn s e)
      else if (dieAt s x.die).released = false then 0
      else if x.inCycles then (if relocking (dieAt s x.die) then 0 else cyclesAt s e (dieAt s x.die).clock.ratio) else ticksIn s e := by
  unfold elapsed
  by_cases h : 8 ≤ x.die
  · simp [cyclesIn_hub h, ticking, h]
  · have h8 := Nat.not_le.1 h
    rw [if_neg h, ticking_die h8]
    cases r : (dieAt s x.die).released with
    | false => simp [cyclesIn_held h8 r]
    | true => simp [cyclesIn_released h8 r]

/-- In a time of whole ticks, at any ratio, a tick has as many cycles as the ratio says. -/
theorem whole_ticks {s : State} {e w n : Nat} (pos : 0 < Config.tickParts) (wall : s.wall = w * Config.tickParts) (whole : e = n * Config.tickParts) (ratio : Nat) :
    ticksIn s e = n ∧ cyclesAt s e ratio = n * ratio := by
  have swap (a : Nat) : a * Config.tickParts * ratio / Config.tickParts = a * ratio := by
    rw [Nat.mul_right_comm, Nat.mul_div_cancel _ pos]
  rw [ticksIn, cyclesAt, wall, whole, ← Nat.add_mul, swap, swap, Nat.mul_div_cancel _ pos, Nat.mul_div_cancel _ pos, ← Nat.sub_mul, Nat.add_sub_cancel_left]
  exact ⟨rfl, rfl⟩

@[simp] theorem tickDie_clock (s : State) (e d : Nat) (x : Die) : (tickDie s e d x).clock = x.clock := by
  unfold tickDie
  dsimp only
  split <;> rfl

theorem tickDie_held {s : State} {d : Nat} (h : ticking s d = false) (e : Nat) (x : Die) : (tickDie s e d x).cycle = x.cycle ∧ (tickDie s e d x).refk = x.refk := by
  simp [tickDie, h]

theorem tickDie_ticking {s : State} {d : Nat} (h : ticking s d = true) (e : Nat) (x : Die) :
    (tickDie s e d x).cycle = x.cycle + BitVec.ofNat 64 (cyclesIn s e d) ∧ (tickDie s e d x).refk = x.refk + BitVec.ofNat 64 (ticksIn s e) := by
  simp [tickDie, h]

section
variable {s : State} (powered : s.axis.powered = true)
include powered

theorem advance_wall : (advance s).wall = s.wall + stepTime s := by simp [advance, powered]

theorem advance_agenda : (advance s).agenda = (tickQueues (stepTime s) (tickTimers (stepTime s) s)).agenda := by simp [advance, powered]

theorem advance_cur : (advance s).cur = s.cur := by simp [advance, powered, (tick_onlyQueues ..).cur]

theorem advance_mem : (advance s).mem = s.mem := by simp [advance, powered, (tick_onlyQueues ..).mem]

theorem advance_timers : (advance s).timers = runningOn s (stepTime s) := by simp [advance, powered, (tick_onlyQueues ..).timers]

theorem advance_die (d : Fin 8) : (advance s).dies[d] = tickDie s (stepTime s) d s.dies[d] := by simp [advance, powered, (tick_onlyQueues ..).dies]

end

end Sys2Proof.Proofs
end

section
/-! SUPPORT. The settled statement on clock steps, their commands, and how time passes (O44). -/

namespace Sys2Proof.Proofs

open Machine Laws

theorem claims_clockSteps : Claims.ClockSteps := by
  intro s d r h8
  dsimp only
  refine ⟨fun stage current => ?_, fun stage current held unasked => ?_, fun stage current fall => ?_, fun stage current rise held unasked => ?_, fun temp hot => ?_,
    fun temp idle current held => ⟨fun cool steady => ?_, fun hot more room => ?_, fun cool taken room => ?_⟩⟩
  · exact ⟨_, execSupplyRampDone_raising stage current, by simp [mem_timers_beginRelock]⟩
  · refine ⟨_, execSupplyRampDone_lowering stage current, ?_⟩
    rw [endStep_unasked (by simpa using current) (by simpa using held) unasked]
    simp
  · refine ⟨_, execRelockEnd_relocking stage current, ?_⟩
    rw [if_pos fall]
    simp [mem_timers_startTimer]
  · refine ⟨_, execRelockEnd_relocking stage current, ?_⟩
    rw [if_neg (Nat.not_lt.2 rise), endStep_unasked (by simpa using current) (by simpa using held) unasked]
    simp
  · exact execThermalPolicy_hot h8 hot
  · have none : stepsDown (dieAt s d).clock temp = 0 := by rw [stepsDown]; omega
    exact ⟨_, execThermalPolicy_steady h8 none steady, by simp⟩
  · have down : stepsDown (dieAt s d).clock temp = temp - 99 - (dieAt s d).clock.thermalSteps := by rw [stepsDown, targetRatio_idle current held]; omega
    refine ⟨_, execThermalPolicy_down h8 (by omega), ?_⟩
    rw [down, targetRatio_idle current held]
    obtain ⟨hsteps, hstage, hcurrent⟩ := clock_requestStep_heated (temp := temp)
      (r := { ratio := (dieAt s d).clock.ratio - (temp - 99 - (dieAt s d).clock.thermalSteps), askers := [] })
      (· + (temp - 99 - (dieAt s d).clock.thermalSteps)) idle (by dsimp only; omega)
    exact ⟨hsteps.trans (by omega), hstage.trans (by rw [if_neg (by dsimp only; omega)]), hcurrent⟩
  · have up : min 18 ((dieAt s d).clock.ratio + 1) = (dieAt s d).clock.ratio + 1 := by omega
    refine ⟨_, execThermalPolicy_up h8 cool taken, ?_⟩
    rw [targetRatio_idle current held, up]
    obtain ⟨hsteps, hstage, hcurrent⟩ := clock_requestStep_heated (temp := temp) (r := { ratio := (dieAt s d).clock.ratio + 1, askers := [] }) (· - 1) idle (by dsimp only; omega)
    exact ⟨hsteps, hstage.trans (by rw [if_pos (Nat.lt_succ_self _)]), hcurrent⟩

theorem claims_clockCommands : Claims.ClockCommands := by
  intro s q d hseq c ready h8 mask ratio bad
  refine ⟨fun isBad => ?_, fun good one idle ne => ?_, fun good one idle same => ?_⟩
  · refine ⟨_, execFstep_bad ready isBad, ?_, fun e => ?_⟩
    · have there : cmdAt (updCmd q hseq (fun c => { c with begun := true }) s) q hseq = some { c with begun := true } := by
        rw [cmdAt_updCmd_self ready.queue (by exact fun _ => rfl), ready.there]
        rfl
      exact finish_answered ready.queue there rfl (due_updCmd ready.queue ..) ready.unanswered ..
    · rw [(finish_onlyQueues ..).dieAt, (updCmd_onlyQueues ..).dieAt]
  · refine ⟨_, execFstep_single ready h8 good one, ?_⟩
    have die (e : Nat) : dieAt (stepping q hseq (2 ^ d) s) e = dieAt s e := (stepping_onlyQueues ..).dieAt e
    have idle' : (dieAt (stepping q hseq (2 ^ d) s) d).clock.stage = none := by rw [die]; exact idle
    have ne' : (dieAt (stepping q hseq (2 ^ d) s) d).clock.ratio ≠ ratio := by rw [die]; exact ne
    obtain ⟨hcurrent, hstage, -⟩ := clock_requestStep_idle (r := { ratio := ratio, askers := [(q, hseq)] }) idle' ne'
    obtain ⟨queues, mem, others⟩ := requestStep_idle_frame (r := { ratio := ratio, askers := [(q, hseq)] }) idle' ne' h8
    refine ⟨?_, mem.trans (stepping_onlyQueues ..).mem, hcurrent, ?_, fun e _ he => (others e he).trans (die e)⟩
    · exact (congrArg Queue.due (queueAt_congr queues q)).trans (due_stepping ready.queue _)
    · rw [← die d]; exact hstage
  · refine ⟨_, execFstep_single ready h8 good one, ?_⟩
    have die : dieAt (stepping q hseq (2 ^ d) s) d = dieAt s d := (stepping_onlyQueues ..).dieAt d
    rw [requestStep_idle _ (by rw [die]; exact idle), carryOut_same (by rw [die]; exact same.symm)]
    have answered := stepDone_single ready h8 one
    rw [same] at answered
    exact answered

theorem claims_timePasses : Claims.TimePasses := by
  intro s e powered he t ticks cycles passed
  subst he
  have lost (x : Timer) : passed x = elapsed s (stepTime s) x := (elapsed_eq ..).symm
  refine ⟨advance_wall powered, advance_cur powered, advance_mem powered, fun d => ?_, fun w n r pos wall whole => whole_ticks pos wall whole r, fun x hx => ⟨fun out => ?_, fun on => ?_⟩⟩
  · have die : dieAt s d = s.dies[d] := dif_pos d.isLt
    intro x y
    have hy : y = tickDie s (stepTime s) d x := advance_die powered d
    refine ⟨by rw [hy, tickDie_clock], fun held => ?_, fun released => ?_⟩
    · rw [hy]
      exact tickDie_held (by rw [ticking_die d.isLt, die, held]) ..
    · obtain ⟨hcycle, hrefk⟩ := tickDie_ticking (s := s) (d := d) (by rw [ticking_die d.isLt, die, released]) (stepTime s) x
      rw [cyclesIn_released d.isLt (by rw [die, released]), die] at hcycle
      rw [hy]
      refine ⟨hrefk, fun relock => ?_, fun runs => ?_⟩
      · rw [hcycle, if_pos relock]; simp
      · rw [hcycle, if_neg (by rw [runs]; decide)]; rfl
  · rw [lost] at out
    have due := (tickQueues_onlyQueues (stepTime s) _).2 _ (isDue_tickTimers hx out)
    unfold isDue at due ⊢
    rw [advance_agenda powered]
    exact due
  · rw [lost] at on ⊢
    rw [advance_timers powered]
    exact mem_runningOn hx on

/-- Settles O44: each clause from the equation of its step, FSTEP from the common course of commands, and the passing of time from what `advance` does to dies and bounds. -/
theorem clockSteps : Obligations.ClockSteps := ⟨claims_clockSteps, claims_clockCommands, claims_timePasses⟩

end Sys2Proof.Proofs
end
